-- ==== Sys2Proof/Word.lean ====
section
/-! DEFINITION. The word types of the TQ4 (R5, R10, R24, R52) and the sparse table type that State uses. -/

namespace Sys2Proof

/-- A scalar register, an address or a slot word: 64 bits (R24, R52). -/
abbrev Word := BitVec 64

/-- A byte of memory. -/
abbrev Byte := BitVec 8

/-- A 512-bit bundle or 64-byte line (R52). -/
abbrev Line := BitVec 512

/-- One slice number across the 256 lanes of a cluster: lane l stands in bits [4l+3:4l] (R19, R233). -/
abbrev SliceLine := BitVec 1024

/-- A half of a lane mask: bit l governs lane l (R26). -/
abbrev LaneMask := BitVec 256

/-- A sparse table from numbers to records: an absent key holds the default its reader names. -/
abbrev Map (α : Type) := List (Nat × α)

end Sys2Proof
end

