-- ==== Sys2Proof/Config.lean ====
section
/-! DEFINITION. What this manual leaves to other standards or to one specimen: constants without a body. A proof can use
nothing about their values, so a claim holds whatever they are. -/

namespace Sys2Proof.Config

/-- SHA-256 of a message of `len` bytes (R341, R396, R397). -/
opaque sha256 : (len msg : Nat) → BitVec 256

/-- HKDF-SHA-256 of a secret with an info string of `len` bytes (R396, R397, R406). -/
opaque hkdf : (secret : BitVec 256) → (len info : Nat) → BitVec 256

/-- AES-256-GCM decryption of a 256-byte line under a key, an IV and a tag, with no added data (R405); `none` when the
tag fails. -/
opaque gcmOpen : (key : BitVec 256) → (iv : BitVec 96) → (tag : BitVec 128) → (line : BitVec 2048) →
  Option (BitVec 2048)

/-- AES-256-GCM encryption of `len` bytes under a key and an IV, with no added data: the ciphertext and its tag (R401, R406). -/
opaque gcmSeal : (key : BitVec 256) → (iv : BitVec 96) → (len msg : Nat) → Nat × BitVec 128

/-- AES-256-GCM decryption of `len` bytes under a key, an IV and a tag; `none` when the tag fails (R401). -/
opaque gcmUnseal : (key : BitVec 256) → (iv : BitVec 96) → (tag : BitVec 128) → (len ct : Nat) → Option Nat

/-- The world key of a virtual function's world in a generation (R401). -/
opaque worldKey : (vf world generation : Nat) → BitVec 256

/-- The Ed25519 public key of a seed (R397). -/
opaque edPublic : (seed : BitVec 256) → BitVec 256

/-- The ML-DSA-65 public key of a seed, 1,952 bytes (R397). -/
opaque mldsaPublic : (seed : BitVec 256) → BitVec 15616

/-- The Ed25519 signature of a message under a seed (R344, R398). -/
opaque edSign : (seed : BitVec 256) → (len msg : Nat) → BitVec 512

/-- The ML-DSA-65 signature, 3,309 bytes, of a message under a seed (R340, R344, R398). -/
opaque mldsaSign : (seed : BitVec 256) → (len msg : Nat) → BitVec 26472

/-- The fused secret UDS of the package (R396). -/
opaque uds : BitVec 256

/-- The fused minimum version of boot layer n (R396). -/
opaque minVersion : (layer : Nat) → Nat

/-- The domain secret with a given handle, as fabric key hand-over delivers it (R406). -/
opaque domainSecret : (handle : Nat) → BitVec 256

/-- The n-th choice that the manual leaves open: a time, an order, or which of several values a read may take. Free (log 2). -/
opaque choice : (n : Nat) → Nat

/-- What an entry of the loop stack holds when the debug path raises the depth over it (R18): a value for each core, level and cycle. -/
opaque looseEntry : (core level cycle : Nat) → BitVec 128

/-- The bytes of a section of a hand-over record of a TYPE with a number of items: R392 lays no items out. -/
opaque sectionBytes : (type items : Nat) → Nat

/-- The address of a launch's save area: no rule places it (R318, R392). -/
opaque saveArea : (launch : Nat) → BitVec 64

end Sys2Proof.Config
end

