-- ==== Sys2Proof/Machine/Bits.lean ====
section
/-! DEFINITION. Bit fields, sign extension, sparse tables and byte strings, written once for every later file. -/

namespace Sys2Proof.Machine

/-- Bits [hi:lo] of x (R5). -/
def bits (x hi lo : Nat) : Nat := (x >>> lo) % 2 ^ (hi + 1 - lo)

/-- Bit i of x. -/
def bit (x i : Nat) : Bool := x.testBit i

/-- 1 for true. -/
def b2n (b : Bool) : Nat := if b then 1 else 0

/-- The low n bits of x taken as two's complement (R11). -/
def toSigned (n x : Nat) : Int :=
  let y := x % 2 ^ n
  if n = 0 then 0 else if y < 2 ^ (n - 1) then (y : Int) else (y : Int) - (2 ^ n : Nat)

/-- x mod 2^n as a pattern of n bits. -/
def toPattern (n : Nat) (x : Int) : Nat := (x % ((2 ^ n : Nat) : Int)).toNat

/-- Divides rounding up. -/
def ceilDiv (a b : Nat) : Nat := (a + b - 1) / b

/-- Sum of f over 0 to n - 1. -/
def sumTo (n : Nat) (f : Nat → Nat) : Nat := (List.range n).foldl (fun a i => a + f i) 0

/-- A string of values of b bits each, the first in the low bits (R92). -/
def packBits (b : Nat) : List Nat → Nat
  | [] => 0
  | x :: xs => x % 2 ^ b + (packBits b xs) <<< b

/-- Element k of a packed array of b-bit elements (R92). -/
def elemAt (b v k : Nat) : Nat := (v >>> (b * k)) % 2 ^ b

/-- Number of one bits of the low n bits. -/
def popCount : Nat → Nat → Nat
  | 0, _ => 0
  | n + 1, x => x % 2 + popCount n (x / 2)

/-- Number of zero bits above the highest one bit of the low n bits; n for zero (R150, R167). -/
def clzBits (n x : Nat) : Nat :=
  let y := x % 2 ^ n
  if y = 0 then n else n - 1 - y.log2

/-- Number of zero bits below the lowest one bit of the low n bits; n for zero (R150). -/
def ctzBits : Nat → Nat → Nat
  | 0, _ => 0
  | n + 1, x => if x % 2 = 1 then 0 else 1 + ctzBits n (x / 2)

/-- Integer square root by Newton's step, on fuel. -/
def isqrtFrom : Nat → Nat → Nat → Nat
  | 0, _, g => g
  | fuel + 1, n, g =>
    let h := (g + n / g) / 2
    if g ≤ h then g else isqrtFrom fuel n h

/-- The largest r with r * r ≤ n. -/
def isqrt (n : Nat) : Nat := if n = 0 then 0 else isqrtFrom 2000 n (2 ^ (n.log2 / 2 + 1))

/-- Reads a sparse table. -/
def getD {α : Type} (d : α) (m : Map α) (k : Nat) : α :=
  match m with
  | [] => d
  | (i, a) :: rest => if i = k then a else getD d rest k

/-- Reads a sparse table, if the key is there. -/
def find? {α : Type} (m : Map α) (k : Nat) : Option α :=
  match m with
  | [] => none
  | (i, a) :: rest => if i = k then some a else find? rest k

/-- Writes a sparse table, keys rising. -/
def put {α : Type} (m : Map α) (k : Nat) (a : α) : Map α :=
  match m with
  | [] => [(k, a)]
  | (i, b) :: rest =>
    if k < i then (k, a) :: (i, b) :: rest
    else if k = i then (k, a) :: rest
    else (i, b) :: put rest k a

/-- Removes a key. -/
def erase {α : Type} (m : Map α) (k : Nat) : Map α := m.filter (fun e => e.1 != k)

/-- Element i of a list, or a default. -/
def nth {α : Type} (d : α) (l : List α) (i : Nat) : α := (l[i]?).getD d

/-- Replaces element i of a list. -/
def setNth {α : Type} (l : List α) (i : Nat) (a : α) : List α := l.set i a

/-- Inserts into a rising list, after its equals. -/
def insertBy {α : Type} (le : α → α → Bool) (x : α) : List α → List α
  | [] => [x]
  | y :: r => if le y x then y :: insertBy le x r else x :: y :: r

/-- Sorts, equals in their order. -/
def sortBy {α : Type} (le : α → α → Bool) (l : List α) : List α := l.foldl (fun acc x => insertBy le x acc) []

end Sys2Proof.Machine
end

