-- ==== Sys2Proof/Machine/Formats.lean ====
section
/-! DEFINITION. The number formats of R58, R59, R82, R87, R88, R90 and the matrix shapes of R189. -/

namespace Sys2Proof.Machine

/-- Floating formats of R82, and P12 of R183. -/
inductive FFmt where
  | f64 | f32 | e8m10 | bf16 | f16 | e5m2 | e4m3 | e3m2 | e2m3 | e2m1 | p12
  deriving DecidableEq, Repr

/-- Which patterns are NaN (R82): exponent all ones with a fraction, 0x7F and 0xFF only, or none. -/
inductive NanKind where
  | ieee | e4m3 | none
  deriving DecidableEq, Repr

/-- Layout of a floating format: exponent bits, fraction bits, bias, NaN patterns. -/
structure FParams where
  eb   : Nat
  p    : Nat
  bias : Nat
  nan  : NanKind
  deriving DecidableEq, Repr

/-- The table of R82; P12 has a sign, 8 exponent bits of bias 127 and 11 fraction bits (R183). -/
def FFmt.params : FFmt → FParams
  | .f64 => ⟨11, 52, 1023, .ieee⟩
  | .f32 => ⟨8, 23, 127, .ieee⟩
  | .e8m10 => ⟨8, 10, 127, .ieee⟩
  | .bf16 => ⟨8, 7, 127, .ieee⟩
  | .f16 => ⟨5, 10, 15, .ieee⟩
  | .e5m2 => ⟨5, 2, 15, .ieee⟩
  | .e4m3 => ⟨4, 3, 7, .e4m3⟩
  | .e3m2 => ⟨3, 2, 3, .none⟩
  | .e2m3 => ⟨2, 3, 1, .none⟩
  | .e2m1 => ⟨2, 1, 1, .none⟩
  | .p12 => ⟨8, 11, 127, .ieee⟩

/-- Width in bits. -/
def FFmt.width (f : FFmt) : Nat := f.params.eb + f.params.p + 1

/-- Whether the format has infinity (R82). -/
def FFmt.hasInf (f : FFmt) : Bool := f.params.nan == .ieee

/-- Pattern of the largest finite magnitude (R82). -/
def FFmt.maxFinite (f : FFmt) : Nat :=
  let q := f.params
  match q.nan with
  | .ieee => (2 ^ q.eb - 1) * 2 ^ q.p - 1
  | .e4m3 => 2 ^ (q.eb + q.p) - 2
  | .none => 2 ^ (q.eb + q.p) - 1

/-- Pattern of +infinity in the formats that have it. -/
def FFmt.infPattern (f : FFmt) : Nat := (2 ^ f.params.eb - 1) * 2 ^ f.params.p

/-- The canonical NaN of R84; +0 where the format has none (R99). -/
def FFmt.canonicalNaN (f : FFmt) : Nat :=
  let q := f.params
  match q.nan with
  | .ieee => (2 ^ q.eb - 1) * 2 ^ q.p + 2 ^ (q.p - 1)
  | .e4m3 => 0x7F
  | .none => 0

/-- A vector type or the format of one element: an integer of n bits or a floating format (R10, R87). -/
inductive NumFmt where
  | int (signed : Bool) (n : Nat)
  | flt (f : FFmt)
  deriving DecidableEq, Repr

/-- Width in bits; E8M10 has 19 (R155). -/
def NumFmt.width : NumFmt → Nat
  | .int _ n => n
  | .flt f => f.width

/-- The vector type codes of R58; 0xF is reserved. -/
def vtype (ty : BitVec 4) : Option NumFmt :=
  match ty.toNat with
  | 0 => some (.int true 8) | 1 => some (.int true 16) | 2 => some (.int true 32) | 3 => some (.int true 64)
  | 4 => some (.int false 8) | 5 => some (.int false 16) | 6 => some (.int false 32) | 7 => some (.int false 64)
  | 8 => some (.flt .f64) | 9 => some (.flt .f32) | 10 => some (.flt .bf16) | 11 => some (.flt .f16)
  | 12 => some (.flt .e8m10) | 13 => some (.flt .e4m3) | 14 => some (.flt .e5m2)
  | _ => none

/-- Class I of R155. -/
def isClassI (ty : BitVec 4) : Bool := ty.toNat < 8

/-- Class F of R155. -/
def isClassF (ty : BitVec 4) : Bool := 8 ≤ ty.toNat && ty.toNat ≤ 12

/-- Class E of R155. -/
def isClassE (ty : BitVec 4) : Bool := ty.toNat = 13 || ty.toNat = 14

/-- A type the code does not name is taken as `.i8`; a bundle that holds one is illegal (R58). -/
def vtypeD (ty : BitVec 4) : NumFmt := (vtype ty).getD (.int true 8)

/-- A matrix format code of R59: an element format or block floating point of m bits. -/
inductive MFmt where
  | num (f : NumFmt)
  | bfp (m : Nat)
  deriving DecidableEq, Repr

/-- The codes of R59; 0x18 to 0x1F are reserved. -/
def mfmt (c : Nat) : Option MFmt :=
  match c with
  | 0x00 => some (.num (.flt .f64)) | 0x01 => some (.num (.flt .f32)) | 0x02 => some (.num (.flt .e8m10))
  | 0x03 => some (.num (.flt .bf16)) | 0x04 => some (.num (.flt .f16)) | 0x05 => some (.num (.flt .e4m3))
  | 0x06 => some (.num (.flt .e5m2)) | 0x07 => some (.num (.flt .e3m2)) | 0x08 => some (.num (.flt .e2m3))
  | 0x09 => some (.num (.flt .e2m1))
  | 0x0A => some (.bfp 2) | 0x0B => some (.bfp 3) | 0x0C => some (.bfp 4) | 0x0D => some (.bfp 5)
  | 0x0E => some (.bfp 6) | 0x0F => some (.bfp 7) | 0x10 => some (.bfp 8)
  | 0x11 => some (.num (.int true 16)) | 0x12 => some (.num (.int false 16))
  | 0x13 => some (.num (.int true 8)) | 0x14 => some (.num (.int false 8))
  | 0x15 => some (.num (.int true 4)) | 0x16 => some (.num (.int false 4))
  | 0x17 => some (.num (.int true 2))
  | _ => none

/-- Width of a stored element in slices or packed arrays; an E8M10 element in memory takes a 32-bit container (R92). -/
def MFmt.storeWidth : MFmt → Nat
  | .num (.flt .e8m10) => 32
  | .num f => f.width
  | .bfp m => m

/-- An integer format of the matrix unit. -/
def MFmt.isInt : MFmt → Bool
  | .num (.int _ _) => true
  | _ => false

/-- The MX element formats, scaled in blocks of 32 (R89). -/
def MFmt.isMx : MFmt → Bool
  | .num (.flt .e4m3) | .num (.flt .e5m2) | .num (.flt .e3m2) | .num (.flt .e2m3) | .num (.flt .e2m1) => true
  | _ => false

/-- Accumulator formats of R188. -/
inductive AccFmt where
  | fp64 | fp32 | int32
  deriving DecidableEq, Repr

/-- Bytes of an accumulator (R188). -/
def AccFmt.bytes : AccFmt → Nat
  | .fp64 => 8 | .fp32 => 4 | .int32 => 4

/-- acc(f) of R188. -/
def MFmt.acc : MFmt → AccFmt
  | .num (.flt .f64) => .fp64
  | .num (.int _ _) => .int32
  | _ => .fp32

/-- How an operand is scaled (R192): not, one scale per row or column, or one exponent per 16-element block. -/
inductive Scaling where
  | plain | mx | bfp
  deriving DecidableEq, Repr

/-- A row of R189 and the group size of R105 (0: the whole K). -/
structure Shape where
  m : Nat
  n : Nat
  k : Nat
  q : Nat
  acc : AccFmt
  scaling : Scaling
  group : Nat
  deriving DecidableEq, Repr

/-- The pairings of R189; `none` is a TYPE violation. -/
def shapeOf (a b : MFmt) : Option Shape :=
  match a, b with
  | .num (.flt .f64), .num (.flt .f64) => some ⟨16, 16, 8, 16, .fp64, .plain, 4⟩
  | .num (.flt .f32), .num (.flt .f32) => some ⟨32, 32, 8, 16, .fp32, .plain, 8⟩
  | .num (.flt .e8m10), .num (.flt .e8m10) => some ⟨32, 32, 16, 16, .fp32, .plain, 8⟩
  | .bfp _, .bfp mb => some ⟨64, 128, 32, 4 * mb, .fp32, .bfp, 16⟩
  | .num (.int _ x), .num (.int _ y) =>
    if x = 16 ∨ y = 16 then some ⟨32, 32, 16, 16, .int32, .plain, 0⟩
    else if x = 8 ∨ y = 8 then some ⟨32, 64, 32, 16, .int32, .plain, 0⟩
    else if x = 4 ∨ y = 4 then some ⟨64, 64, 32, 16, .int32, .plain, 0⟩
    else some ⟨64, 128, 32, 16, .int32, .plain, 0⟩
  | .num (.flt .bf16), .num (.flt .bf16) | .num (.flt .bf16), .num (.flt .f16)
  | .num (.flt .f16), .num (.flt .bf16) | .num (.flt .f16), .num (.flt .f16) =>
    some ⟨32, 32, 32, 16, .fp32, .plain, 8⟩
  | x, y =>
    if x.isMx && y.isMx then
      if x = .num (.flt .e2m1) ∧ y = .num (.flt .e2m1) then some ⟨64, 64, 32, 16, .fp32, .mx, 8⟩
      else some ⟨32, 64, 32, 16, .fp32, .mx, 8⟩
    else none

/-- A bytes of R189. -/
def Shape.aBytes (s : Shape) (a : MFmt) : Nat := s.m * s.k * a.storeWidth / 8

/-- B bytes of R189. -/
def Shape.bBytes (s : Shape) (b : MFmt) : Nat := s.k * s.n * b.storeWidth / 8

end Sys2Proof.Machine
end

