-- ==== Sys2Proof/Syntax.lean ====
section
/-! DEFINITION. The syntax of the TQ4: one constructor of Instr for each row of spec/opcode_table.json.
The first 158 rows are slot instructions (R55, R62, R68 to R71): their arguments are the encoded fields, so that a term
can hold a value the bundle check refuses (R72). The other rows are events of the part: their arguments say which
object takes the event, and carry what arrives from outside. -/

namespace Sys2Proof

/-- The eight slots of a bundle (R52). -/
inductive Slot where
  | ct | sa | sb | va | vb | mx | ls | sf
  deriving DecidableEq, Repr

/-- The two scalar slots, which share one map (R63, R136). -/
inductive ScalarSlot where
  | sa | sb
  deriving DecidableEq, Repr

/-- The two vector slots; `va` works on cluster A and `vb` on cluster B (R21). -/
inductive VectorSlot where
  | va | vb
  deriving DecidableEq, Repr

def ScalarSlot.slot : ScalarSlot → Slot
  | .sa => .sa
  | .sb => .sb

def VectorSlot.slot : VectorSlot → Slot
  | .va => .va
  | .vb => .vb

/-- The slot's number in the bundle (R52). -/
def Slot.index : Slot → Nat
  | .ct => 0 | .sa => 1 | .sb => 2 | .va => 3 | .vb => 4 | .mx => 5 | .ls => 6 | .sf => 7

/-- A slice operand field: first slice and width minus one (R56). -/
structure SliceOp where
  start : BitVec 12
  wm1   : BitVec 4
  deriving DecidableEq, Repr

/-- Where an uncorrectable error of R305 was found. -/
inductive ErrSite where
  /-- Read at issue by the named slots of the bundle at the core's pc. -/
  | atIssue (slots : BitVec 8)
  /-- Carried by a recorded result that would land. -/
  | onResult (id : Nat)
  /-- Carried by the returning data of a long-pending access. -/
  | onLoad (id : Nat)
  /-- Met by a sector of a job of the die. -/
  | onJob (id : Nat)
  /-- Met by step `s` of an expansion, `s` at least 1 (R185). -/
  | inExpansion (s : Nat)
  deriving DecidableEq, Repr

/-- A data error: SOURCE and UNIT of R305, the address read where the source has one, and the slice line (start div 32)
of a slice-file error, which R323 judges. -/
structure DataErr where
  source : BitVec 8
  unit   : BitVec 16
  addr   : Word
  line   : Nat
  deriving DecidableEq, Repr

/-- A hallmark unit (R305, R347): the die, the core's number n of R257 (0 for a unit of the die), SOURCE and UNIT. -/
structure UnitId where
  die    : Nat
  core   : Nat
  source : Nat
  unit   : Nat
  deriving DecidableEq, Repr

/-- How a remeasurement test ends (R347); `slower` names the bit of LATCLS whose class it measured as 1. -/
inductive TestResult where
  | pass | slower (cls : Nat) | fail
  deriving DecidableEq, Repr

/-- A page of a virtual function's address space (R311): its size is 4 KiB, 64 KiB or 2 MiB. -/
structure Page where
  vf    : Nat
  vbase : Nat
  size  : Nat
  pbase : Nat
  r     : Bool
  w     : Bool
  x     : Bool
  /-- 0 for memory, 1 for the notify page of R388, the one device-register page of the manual. -/
  dev   : Nat
  deriving DecidableEq, Repr

/-- A node of a command graph (R292): its 64-byte packet and its predecessors. -/
structure GraphNode where
  packet : Line
  preds  : List Nat
  deriving DecidableEq, Repr

/-- A location that the debug path reads and writes (R337), in the layouts of R16, R126, R187 and R233; `line` is only read. For the last
four of the table of R14 the manual gives no layout (log 48). -/
inductive DbgLoc where
  | pc | depth
  | loopEntry (i : Nat)
  | slice (cl n : Nat)
  | scalar (r : Nat)
  | steerCond (j : Nat) | steerTarget (j : Nat)
  | mask (k cl : Nat)
  | csr (index : Nat)
  | scale
  | buffer (b off : Nat)
  | commons (off : Nat)
  | clasp (c : Nat)
  | template (t : Nat)
  /-- A line of the instruction store: its 64 bytes, the pool bit above them. -/
  | line (p : Nat)
  /-- The number of entries that the colour queues hold, in program order. -/
  | queueCount
  /-- The colour of the i-th held entry. -/
  | queueColour (i : Nat)
  /-- A byte of the i-th held entry at a virtual address: its value, and above it the mask of its bits that are written, 0 for a byte that
  the entry does not write. -/
  | queueByte (i addr : Nat)
  /-- The k-th job of a copy channel (or 16 + stack), in queue order: template in bits 7 to 0, parameter in bits 71 to 8, held in bit 72,
  its state in bits 74 and 73 (0 waiting, 1 running, 2 stopped, 3 complete), and from bit 75 on the sectors that it has written. -/
  | channelJob (q k : Nat)
  /-- An entry of the bank reservation table of buffer b: 0 free, 1 issue, 2 matrix, 3 + channel, 19 + stack. -/
  | reservation (b bank : Nat)
  /-- The captured bodies of the loop buffer, 64 bits each: first bundle, last bundle in bits 47 to 24, held in bit 48. -/
  | loopBuffer
  deriving DecidableEq, Repr

/-- A register outside the cores that a write reaches (R332 to R334, R386, R390). -/
inductive RegTarget where
  /-- The host writes offset `off` of the register page of virtual function `vf` (R383, R386). -/
  | host (vf off : Nat)
  /-- The plug-in of `vf` writes its field of the register at offset `off` (R390). -/
  | plugin (vf off : Nat)
  | trcctl (die : Nat) | trcsize (die : Nat)
  | trg (die n : Nat) | trgr (die n : Nat)
  | dbgctl (core : Nat) | dbgbrk (core n : Nat)
  deriving DecidableEq, Repr

/-- A signed image of a boot layer or controller (R391, R396): its SHA-256 digest, its version, whether each of its two
signatures verifies, and WDT. -/
structure FwImage where
  digest  : BitVec 256
  version : Nat
  edOk    : Bool
  mldsaOk : Bool
  wdt     : Nat
  deriving DecidableEq, Repr

/-- One constructor per row of spec/opcode_table.json. -/
inductive Instr where
  -- every slot (R55)
  | nop (sl : Slot)
  -- control slot (R62)
  | prep (j : BitVec 4) (target : BitVec 24)
  | br (j : BitVec 4)
  | brn (j : BitVec 4)
  | jmp (target : BitVec 24)
  | call (target : BitVec 24)
  | calli (x : BitVec 6) (cls : BitVec 8)
  | loop (x : BitVec 6) (last : BitVec 24)
  | loopi (trip : BitVec 24) (last : BitVec 24)
  | step (g : BitVec 4)
  | bari (c : BitVec 7) (x : BitVec 6)
  | bara (c : BitVec 7) (mask : BitVec 8)
  | baraw (c : BitVec 7) (mask : BitVec 8)
  | barw (c : BitVec 7)
  | fence (mask : BitVec 8)
  | txwait (x : BitVec 6) (phase : BitVec 4)
  | trap (code : BitVec 16)
  | csrr (d : BitVec 6) (csr : BitVec 12)
  | csrw (csr : BitVec 12) (x : BitVec 6)
  | pool (count : BitVec 13)
  -- scalar slots (R63, R68)
  | add (u : ScalarSlot) (d x y : BitVec 6)
  | sub (u : ScalarSlot) (d x y : BitVec 6)
  | addi (u : ScalarSlot) (d x : BitVec 6) (imm : BitVec 32)
  | mul (u : ScalarSlot) (d x y : BitVec 6)
  | mulh (u : ScalarSlot) (d x y : BitVec 6)
  | mulhu (u : ScalarSlot) (d x y : BitVec 6)
  | div (u : ScalarSlot) (d x y : BitVec 6)
  | divu (u : ScalarSlot) (d x y : BitVec 6)
  | rem (u : ScalarSlot) (d x y : BitVec 6)
  | remu (u : ScalarSlot) (d x y : BitVec 6)
  | min (u : ScalarSlot) (d x y : BitVec 6)
  | max (u : ScalarSlot) (d x y : BitVec 6)
  | minu (u : ScalarSlot) (d x y : BitVec 6)
  | maxu (u : ScalarSlot) (d x y : BitVec 6)
  | and (u : ScalarSlot) (d x y : BitVec 6)
  | or (u : ScalarSlot) (d x y : BitVec 6)
  | xor (u : ScalarSlot) (d x y : BitVec 6)
  | andi (u : ScalarSlot) (d x : BitVec 6) (imm : BitVec 32)
  | ori (u : ScalarSlot) (d x : BitVec 6) (imm : BitVec 32)
  | xori (u : ScalarSlot) (d x : BitVec 6) (imm : BitVec 32)
  | shl (u : ScalarSlot) (d x y : BitVec 6)
  | shr (u : ScalarSlot) (d x y : BitVec 6)
  | sra (u : ScalarSlot) (d x y : BitVec 6)
  | shli (u : ScalarSlot) (d x : BitVec 6) (amt : BitVec 6)
  | shri (u : ScalarSlot) (d x : BitVec 6) (amt : BitVec 6)
  | srai (u : ScalarSlot) (d x : BitVec 6) (amt : BitVec 6)
  | ceq (u : ScalarSlot) (d x y : BitVec 6)
  | cne (u : ScalarSlot) (d x y : BitVec 6)
  | clt (u : ScalarSlot) (d x y : BitVec 6)
  | cltu (u : ScalarSlot) (d x y : BitVec 6)
  | ceqi (u : ScalarSlot) (d x : BitVec 6) (imm : BitVec 32)
  | clti (u : ScalarSlot) (d x : BitVec 6) (imm : BitVec 32)
  | sel (u : ScalarSlot) (d x y z : BitVec 6)
  | movi (u : ScalarSlot) (d : BitVec 6) (imm : BitVec 48)
  | movih (u : ScalarSlot) (d : BitVec 6) (imm : BitVec 48)
  | clz (u : ScalarSlot) (d x : BitVec 6)
  | ctz (u : ScalarSlot) (d x : BitVec 6)
  | popc (u : ScalarSlot) (d x : BitVec 6)
  | agen (u : ScalarSlot) (d x y z : BitVec 6)
  | rdli (u : ScalarSlot) (d x : BitVec 6)
  | rdjt (u : ScalarSlot) (d x : BitVec 6)
  | rdxy (u : ScalarSlot) (d : BitVec 6)
  -- vector slots (R64, R69)
  | vadd (u : VectorSlot) (ty k : BitVec 4) (sat : Bool) (d x y : SliceOp)
  | vsub (u : VectorSlot) (ty k : BitVec 4) (sat : Bool) (d x y : SliceOp)
  | vmul (u : VectorSlot) (ty k : BitVec 4) (sat : Bool) (d x y : SliceOp)
  | vfma (u : VectorSlot) (ty k : BitVec 4) (sat : Bool) (d x y : SliceOp)
  | vfms (u : VectorSlot) (ty k : BitVec 4) (sat : Bool) (d x y : SliceOp)
  | vmin (u : VectorSlot) (ty k : BitVec 4) (d x y : SliceOp)
  | vmax (u : VectorSlot) (ty k : BitVec 4) (d x y : SliceOp)
  | vabs (u : VectorSlot) (ty k : BitVec 4) (sat : Bool) (d x : SliceOp)
  | vneg (u : VectorSlot) (ty k : BitVec 4) (sat : Bool) (d x : SliceOp)
  | vaddi (u : VectorSlot) (ty k : BitVec 4) (sat : Bool) (d x : SliceOp) (imm : BitVec 16)
  | vmuli (u : VectorSlot) (ty k : BitVec 4) (sat : Bool) (d x : SliceOp) (imm : BitVec 16)
  | vand (u : VectorSlot) (ty k : BitVec 4) (d x y : SliceOp)
  | vor (u : VectorSlot) (ty k : BitVec 4) (d x y : SliceOp)
  | vxor (u : VectorSlot) (ty k : BitVec 4) (d x y : SliceOp)
  | vnot (u : VectorSlot) (ty k : BitVec 4) (d x : SliceOp)
  | vshl (u : VectorSlot) (ty k : BitVec 4) (d x y : SliceOp)
  | vshr (u : VectorSlot) (ty k : BitVec 4) (d x y : SliceOp)
  | vsra (u : VectorSlot) (ty k : BitVec 4) (d x y : SliceOp)
  | vshli (u : VectorSlot) (ty k : BitVec 4) (d x : SliceOp) (amt : BitVec 6)
  | vshri (u : VectorSlot) (ty k : BitVec 4) (d x : SliceOp) (amt : BitVec 6)
  | vsrai (u : VectorSlot) (ty k : BitVec 4) (d x : SliceOp) (amt : BitVec 6)
  | vclz (u : VectorSlot) (ty k : BitVec 4) (d x : SliceOp)
  | vpop (u : VectorSlot) (ty k : BitVec 4) (d x : SliceOp)
  | vcvt (u : VectorSlot) (ty k : BitVec 4) (sat : Bool) (d x : SliceOp) (ts : BitVec 4)
  | vmov (u : VectorSlot) (ty k : BitVec 4) (sat : Bool) (d x : SliceOp)
  | vbri (u : VectorSlot) (ty k : BitVec 4) (d : SliceOp) (imm : BitVec 16)
  | vsplat (u : VectorSlot) (ty k : BitVec 4) (d : SliceOp) (y : BitVec 6)
  | vsel (u : VectorSlot) (ty k : BitVec 4) (d x y : SliceOp)
  | vceq (u : VectorSlot) (ty k : BitVec 4) (m : BitVec 6) (x y : SliceOp)
  | vcne (u : VectorSlot) (ty k : BitVec 4) (m : BitVec 6) (x y : SliceOp)
  | vclt (u : VectorSlot) (ty k : BitVec 4) (m : BitVec 6) (x y : SliceOp)
  | vcle (u : VectorSlot) (ty k : BitVec 4) (m : BitVec 6) (x y : SliceOp)
  | vcmpu (u : VectorSlot) (k : BitVec 4) (j m : BitVec 6)
  | kand (u : VectorSlot) (d x y : BitVec 6)
  | kor (u : VectorSlot) (d x y : BitVec 6)
  | kxor (u : VectorSlot) (d x y : BitVec 6)
  | kandn (u : VectorSlot) (d x y : BitVec 6)
  | knot (u : VectorSlot) (d x : BitVec 6)
  | vredadd (u : VectorSlot) (ty k : BitVec 4) (sat : Bool) (d x : SliceOp)
  | vredmax (u : VectorSlot) (ty k : BitVec 4) (d x : SliceOp)
  | vredmin (u : VectorSlot) (ty k : BitVec 4) (d x : SliceOp)
  | vperm (u : VectorSlot) (ty k : BitVec 4) (d x y : SliceOp)
  | vrot (u : VectorSlot) (ty k : BitVec 4) (d x : SliceOp) (dist : BitVec 8)
  | vlane (u : VectorSlot) (ty k : BitVec 4) (d : SliceOp)
  | xmov (u : VectorSlot) (k : BitVec 4) (d x : SliceOp)
  | vpack (u : VectorSlot) (ty k : BitVec 4) (sat : Bool) (d x : SliceOp) (fmt : BitVec 5)
  | vunpk (u : VectorSlot) (ty k : BitVec 4) (d x : SliceOp) (fmt : BitVec 5)
  | vdiv (ty k : BitVec 4) (d x y : SliceOp)
  | vsqrt (ty k : BitVec 4) (d x : SliceOp)
  | vrcp (ty k : BitVec 4) (d x : SliceOp)
  | vrsq (ty k : BitVec 4) (d x : SliceOp)
  | vexp2 (ty k : BitVec 4) (d x : SliceOp)
  | vlog2 (ty k : BitVec 4) (d x : SliceOp)
  | vrcpl (ty k : BitVec 4) (d x : SliceOp)
  | vsumx (u : VectorSlot) (ty k : BitVec 4) (d x : SliceOp)
  -- matrix slot (R65, R70)
  | mma (af bf : BitVec 5) (t : BitVec 4) (aoff : BitVec 11) (woff : BitVec 12)
  | mmz (af bf : BitVec 5) (t : BitVec 4) (aoff : BitVec 11) (woff : BitVec 12)
  | mmat (af bf : BitVec 5) (t : BitVec 4) (aoff : BitVec 11) (woff : BitVec 12)
  | mmzt (af bf : BitVec 5) (t : BitVec 4) (aoff : BitVec 11) (woff : BitVec 12)
  | mclr (t : BitVec 4)
  | maddc (t u : BitVec 4)
  | mcvt (af : BitVec 5) (t : BitVec 4) (cl : Bool) (d : SliceOp)
  | mldc (af : BitVec 5) (t : BitVec 4) (cl : Bool) (s : SliceOp)
  | mbias (af : BitVec 5) (t : BitVec 4) (cl : Bool) (s : SliceOp)
  | mstc (af : BitVec 5) (t : BitVec 4) (aoff : BitVec 11)
  -- scale loads (R67, R205)
  | slda (sel : BitVec 4) (aoff : BitVec 15)
  | sldb (sel : BitVec 4) (aoff : BitVec 15)
  -- load/store slot (R66, R71)
  | lds (b d : BitVec 6) (sz : BitVec 2) (sgn : Bool) (off : BitVec 32)
  | sts (col : BitVec 3) (b d : BitVec 6) (sz : BitVec 2) (off : BitVec 32)
  | ldv (b : BitVec 6) (k : BitVec 4) (off : BitVec 21) (cl : Bool) (d : SliceOp)
  | stv (col : BitVec 3) (b : BitVec 6) (k : BitVec 4) (off : BitVec 21) (cl : Bool) (s : SliceOp)
  | ldvs (b g : BitVec 6) (k : BitVec 4) (off : BitVec 21) (cl : Bool) (d : SliceOp)
  | stvs (col : BitVec 3) (b g : BitVec 6) (k : BitVec 4) (off : BitVec 21) (cl : Bool) (s : SliceOp)
  | ldvb (b : BitVec 6) (k : BitVec 4) (off : BitVec 21) (cl : Bool) (d : SliceOp)
  | ldvx (b : BitVec 6) (k : BitVec 4) (idx : SliceOp) (cl : Bool) (d : SliceOp)
  | stvx (col : BitVec 3) (b : BitVec 6) (k : BitVec 4) (idx : SliceOp) (cl : Bool) (s : SliceOp)
  | ldk (b : BitVec 6) (k : BitVec 4) (off : BitVec 21) (cl : Bool) (m : BitVec 6)
  | stk (col : BitVec 3) (b : BitVec 6) (k : BitVec 4) (off : BitVec 21) (cl : Bool) (m : BitVec 6)
  | atadd (col : BitVec 3) (b d : BitVec 6) (sz : BitVec 2) (off : BitVec 32)
  | atmin (col : BitVec 3) (b d : BitVec 6) (sz : BitVec 2) (off : BitVec 32)
  | atmax (col : BitVec 3) (b d : BitVec 6) (sz : BitVec 2) (off : BitVec 32)
  | atminu (col : BitVec 3) (b d : BitVec 6) (sz : BitVec 2) (off : BitVec 32)
  | atmaxu (col : BitVec 3) (b d : BitVec 6) (sz : BitVec 2) (off : BitVec 32)
  | atand (col : BitVec 3) (b d : BitVec 6) (sz : BitVec 2) (off : BitVec 32)
  | ator (col : BitVec 3) (b d : BitVec 6) (sz : BitVec 2) (off : BitVec 32)
  | atxch (col : BitVec 3) (b d : BitVec 6) (sz : BitVec 2) (off : BitVec 32)
  | atcas (col : BitVec 3) (b d c : BitVec 6) (sz : BitVec 2) (off : BitVec 32)
  | pref (b : BitVec 6) (off : BitVec 32)
  | txinit (b d : BitVec 6) (off : BitVec 32)
  | txarv (b d : BitVec 6) (off : BitVec 32)
  -- fill and park (R67)
  | fill (x : BitVec 6) (n : BitVec 11) (aoff : BitVec 15)
  | park (coff : BitVec 12) (cl : Bool) (s : SliceOp)
  | unpk (coff : BitVec 12) (cl : Bool) (d : SliceOp)
  -- landings and moves inside a core
  | resultLanding (core id : Nat)
  | longPendingLanding (core id : Nat)
  | globalLoadRead (core id part back : Nat)
  | tileLanding (core id : Nat)
  | mstcLanding (core id : Nat)
  | scaleLanding (core id : Nat)
  | fillComplete (core id : Nat)
  | parkWrite (core id : Nat)
  | markOverdue (core : Nat)
  | drainComplete (core : Nat)
  | pageWalk (die id : Nat)
  | translate (core : Nat)
  | dataError (core : Nat) (e : DataErr) (site : ErrSite)
  | correctedEvent (core source unit : Nat)
  -- engines
  | jobBegin (die id : Nat)
  | copySector (die id : Nat)
  | bankProductSector (die id : Nat)
  | jobFault (core : Nat)
  -- synchronisation
  | wake (core : Nat)
  | txwake (core : Nat)
  | release (launch g : Nat)
  -- command processor
  | doorbell (vf die q : Nat) (prod : BitVec 32)
  | queueEnable (vf die q : Nat)
  | queueDisable (vf die q : Nat)
  | queueErrorClear (vf die q : Nat) (cons : BitVec 32)
  | queueCreate (vf die q prio : Nat)
  | waitWordPoll (die q : Nat)
  | nopPacket (die q : Nat)
  | unassignedPacket (die q : Nat)
  | launchPacket (die q : Nat)
  | launchStart (launch : Nat)
  | launchRetire (launch : Nat)
  | graphPacket (die q : Nat)
  | conditionalNode (inst node : Nat)
  | graphRegister (die id version : Nat) (nodes : List GraphNode)
  | copySubmission (die q : Nat)
  | copySubmissionRetire (id : Nat)
  | forwardedPacket (die q : Nat) (seq : BitVec 32) (packet : Line)
  | slotInstall (die slot epoch period : Nat) (entry : BitVec 576)
  | slotOpen (die slot : Nat)
  | slotOverrun (die slot : Nat)
  | segmentLineArrival (core : Nat)
  | saveRecord (core : Nat)
  | resume (core : Nat)
  | serviceResume (core : Nat)
  | skip (core : Nat)
  | rollback (core : Nat)
  | abort (launch : Nat)
  | policyDeadline (core : Nat)
  | shootdown (vf base len : Nat) (pages : List Page)
  | shootdownComplete (vf : Nat)
  | imageLoad (vf handle base len : Nat) (container : Nat)
  -- remeasurement and map changes
  | claim (u : UnitId)
  | testStart (u : UnitId)
  | testEnd (u : UnitId) (r : TestResult)
  | evacuationTimeout (launch : Nat)
  | mapChange (die : Nat)
  -- the image that it replaces, as `imageKey` of its virtual function and handle
  | recompileDone (image base len : Nat) (container : Nat)
  -- debug path
  | debugStopRequest (core : Nat)
  | debugStop (core : Nat)
  | debugResume (core : Nat)
  | debugStateWrite (core : Nat) (loc : DbgLoc) (v : Nat)
  | registerWrite (target : RegTarget) (v : Word)
  | vecctlWrite (vf v : Nat) (x : Word)
  | vectorAgeExpiry (vf v : Nat)
  -- firmware
  | firmwareStaged (ctrl : Nat) (img : FwImage)
  | handover (ctrl : Nat)
  | alive (ctrl : Nat)
  | probationDeadline (ctrl : Nat)
  | firmwareRollback (ctrl reason : Nat)
  | partitionChange (vf : Nat) (dies : List Nat)
  | pageAllocation (vf stack : Nat) (whole : Bool) (pages : List Page)
  | evidenceRequest (vf : Nat) (nonce : BitVec 256)
  -- worlds and protected traffic
  | frameTableWrite (core epoch period : Nat) (entries : List (BitVec 128)) (args : List (Nat × Nat))
  | frameOpen (core entry : Nat)
  | frameClose (core entry : Nat)
  | clear (core : Nat)
  | keySlotWrite (core slot : Nat) (bits : BitVec 512)
  | flitGroupSeal (stream : Nat)
  | keyExhaustedTimeout (stream : Nat)
  | pendingKeyProgram (stream : Nat) (secret : Option Nat)
  | flitReceive (stream src secret epoch pn : Nat)
  | portRetrain (port : Nat)
  | timeSync (gm18 gm19 : Bool) (ppm : Int)
  | pkgstatUpdate (power tin tjmax : Nat)
  | boot (layers : List FwImage) (secondRoot : Bool)
  | fabricKeyHandover (stream secret : Nat)
  | worldKeyInstall (vf world : Nat)
  | instructionLineRefetch (core line : Nat)
  -- without operands; they stand last because the compiler numbers only so many constructors with fields
  | ret
  | lexit
  | halt
  | grandmasterLoss
  deriving DecidableEq, Repr

end Sys2Proof
end

