-- ==== Sys2Proof/Machine/Legality.lean ====
section
/-! DEFINITION. The decode reasons of R72 that a single instruction can meet: TYPE, OPERAND, CSR and the RESERVED reason of
SAT (R155, R157, R189, R191). Fields that must be zero are judged on the word, in Sys2Proof/Decode.lean. -/

namespace Sys2Proof.Machine

/-- The decode reasons of R72, in the bit order of TRAPINFO from bit 32 up (R77); CSR is bit 41. -/
structure Reasons where
  opcode   : Bool := false
  type     : Bool := false
  operand  : Bool := false
  reserved : Bool := false
  csr      : Bool := false
  deriving DecidableEq, Repr

def Reasons.none : Reasons := {}

def Reasons.any (r : Reasons) : Bool := r.opcode || r.type || r.operand || r.reserved || r.csr

/-- Union of two sets of reasons. -/
def Reasons.or (a b : Reasons) : Reasons :=
  ⟨a.opcode || b.opcode, a.type || b.type, a.operand || b.operand, a.reserved || b.reserved, a.csr || b.csr⟩

/-- TYPE and OPERAND reasons from two conditions that must hold. -/
def need (typeOk operandOk : Bool) : Reasons := { type := !typeOk, operand := !operandOk }

/-- TYPE, OPERAND and RESERVED (SAT, R157) reasons. -/
def need3 (typeOk operandOk satOk : Bool) : Reasons := { type := !typeOk, operand := !operandOk, reserved := !satOk }

/-- Legal slice operand (R20, R56). -/
def sliceOk (o : SliceOp) : Bool := decide (o.start.toNat + o.wm1.toNat + 1 ≤ 3072)

/-- Legal steer number (R57). -/
def steerOk {n : Nat} (j : BitVec n) : Bool := decide (j.toNat < 12)

/-- Legal mask number (R57). -/
def maskOk (m : BitVec 6) : Bool := decide (m.toNat < 16)

/-- Types of classes I and F. -/
def isIF (ty : BitVec 4) : Bool := decide (ty.toNat < 13)

/-- Any type but the reserved code 0xF. -/
def isIFE (ty : BitVec 4) : Bool := decide (ty.toNat < 15)

/-- `.f32`, `.bf16` or `.f16` (R183, R184). -/
def isShortF (ty : BitVec 4) : Bool := decide (9 ≤ ty.toNat ∧ ty.toNat ≤ 11)

/-- SAT is accepted with a type of class I only (R157). -/
def satI (ty : BitVec 4) (sat : Bool) : Bool := !sat || isClassI ty

/-- The pairs of VPACK and VUNPK (R181). -/
def packOk (ty : BitVec 4) (fmt : BitVec 5) : Bool :=
  (isShortF ty && decide (5 ≤ fmt.toNat ∧ fmt.toNat ≤ 9)) ||
  ((decide (ty.toNat ≤ 2) || decide (4 ≤ ty.toNat ∧ ty.toNat ≤ 6)) && decide (0x13 ≤ fmt.toNat ∧ fmt.toNat ≤ 0x17))

/-- The registers that R27 lists. -/
def csrListed (c : BitVec 12) : Bool := decide (c.toNat ≤ 6) || decide (8 ≤ c.toNat ∧ c.toNat ≤ 11)

/-- CORESTAT, the one register that programs may write (R27). -/
def csrWritable (c : BitVec 12) : Bool := c == 1#12

/-- The shape of an AF and BF pair (R189). -/
def shapeCode (af bf : BitVec 5) : Option Shape :=
  match mfmt af.toNat, mfmt bf.toNat with
  | some a, some b => shapeOf a b
  | _, _ => none

/-- Reasons of MMA, MMZ, MMAT and MMZT (R189, R191). -/
def mmReasons (af bf : BitVec 5) (aoff : BitVec 11) (woff : BitVec 12) : Reasons :=
  match mfmt af.toNat, mfmt bf.toNat with
  | some a, some b =>
    match shapeOf a b with
    | some s => need true
        (decide (256 * aoff.toNat + s.aBytes a ≤ 524288) && decide (256 * woff.toNat + s.bBytes b ≤ 1048576))
    | none => need false true
  | _, _ => need false true

/-- The element format of MCVT, MLDC, MBIAS and MSTC; E8M10 only for MSTC (R203, R204). -/
def tileFmt (af : BitVec 5) (e8m10 : Bool) : Option NumFmt :=
  match mfmt af.toNat with
  | some (.num (.flt .e8m10)) => if e8m10 then some (.flt .e8m10) else none
  | some (.num f) => some f
  | _ => none

/-- Elements of one lane in a slice operand of MCVT, MLDC and MBIAS: g of R203. -/
def tileG (f : NumFmt) (o : SliceOp) : Nat := 4 * (o.wm1.toNat + 1) / f.width

/-- Reasons of MCVT, MLDC and MBIAS (R203). -/
def tileReasons (af : BitVec 5) (o : SliceOp) : Reasons :=
  match tileFmt af false with
  | some f => need true (sliceOk o && decide (0 < tileG f o))
  | none => need false (sliceOk o)

/-- L of R204. -/
def mstcBytes (f : NumFmt) : Nat :=
  match f with
  | .flt .f64 => 32768
  | .flt .e8m10 => 32768
  | g => 8192 * g.width / 8

/-- Reasons of MSTC (R204). -/
def mstcReasons (af : BitVec 5) (aoff : BitVec 11) : Reasons :=
  match tileFmt af true with
  | some f => need true (decide (256 * aoff.toNat + mstcBytes f ≤ 524288))
  | none => need false true

/-- Reasons of a PARK or UNPK (R67). -/
def parkReasons (coff : BitVec 12) (o : SliceOp) : Reasons :=
  need true (sliceOk o && decide (coff.toNat + o.wm1.toNat + 1 ≤ 4096))

/-- Reasons of a scale load (R205). -/
def sldReasons (sel : BitVec 4) (aoff : BitVec 15) : Reasons :=
  need true (decide (16 * aoff.toNat + 16 * (sel.toNat + 1) ≤ 524288))

/-- Reasons of an atomic: sizes 1 and 2 are OPERAND violations. -/
def atReasons (sz : BitVec 2) : Reasons := need true (decide (2 ≤ sz.toNat))

/-- The decode reasons of one instruction; an event has none. -/
def instrReasons (i : Instr) : Reasons :=
  match i with
  | .prep j _ | .br j | .brn j => need true (steerOk j)
  | .calli _ cls => need true (decide (cls.toNat ≠ 0))
  | .csrr _ c => { csr := !csrListed c }
  | .csrw c _ => { csr := !csrWritable c }
  | .pool n => need true (decide (n.toNat ≠ 0))
  | .ceq _ d _ _ | .cne _ d _ _ | .clt _ d _ _ | .cltu _ d _ _ | .ceqi _ d _ _ | .clti _ d _ _ => need true (steerOk d)
  | .sel _ _ _ _ z => need true (steerOk z)
  | .agen _ _ _ _ z => need true (decide (z.toNat < 7))
  | .rdli _ _ x => need true (decide (x.toNat < 6))
  | .rdjt _ _ x => need true (steerOk x)
  | .vadd _ ty _ sat d x y | .vsub _ ty _ sat d x y | .vmul _ ty _ sat d x y | .vfma _ ty _ sat d x y
  | .vfms _ ty _ sat d x y => need3 (isIF ty) (sliceOk d && sliceOk x && sliceOk y) (satI ty sat)
  | .vmin _ ty _ d x y | .vmax _ ty _ d x y => need (isIF ty) (sliceOk d && sliceOk x && sliceOk y)
  | .vabs _ ty _ sat d x | .vneg _ ty _ sat d x | .vredadd _ ty _ sat d x =>
    need3 (isIF ty) (sliceOk d && sliceOk x) (satI ty sat)
  | .vaddi _ ty _ sat d x _ | .vmuli _ ty _ sat d x _ | .vmov _ ty _ sat d x =>
    need3 (isClassI ty) (sliceOk d && sliceOk x) (satI ty sat)
  | .vand _ ty _ d x y | .vor _ ty _ d x y | .vxor _ ty _ d x y | .vshl _ ty _ d x y | .vshr _ ty _ d x y
  | .vsra _ ty _ d x y => need (isClassI ty) (sliceOk d && sliceOk x && sliceOk y)
  | .vnot _ ty _ d x | .vshli _ ty _ d x _ | .vshri _ ty _ d x _ | .vsrai _ ty _ d x _ | .vclz _ ty _ d x
  | .vpop _ ty _ d x => need (isClassI ty) (sliceOk d && sliceOk x)
  | .vcvt _ ty _ sat d x ts => need3 (isIFE ty && isIFE ts) (sliceOk d && sliceOk x) (!sat || (isIFE ty && isIFE ts))
  | .vbri _ ty _ d _ | .vsplat _ ty _ d _ => need (isIFE ty) (sliceOk d)
  | .vsel _ ty _ d x y | .vperm _ ty _ d x y => need (isIFE ty) (sliceOk d && sliceOk x && sliceOk y)
  | .vceq _ ty _ m x y | .vcne _ ty _ m x y | .vclt _ ty _ m x y | .vcle _ ty _ m x y =>
    need (isIF ty) (maskOk m && sliceOk x && sliceOk y)
  | .vcmpu _ _ j m => need true (steerOk j && maskOk m)
  | .kand _ d x y | .kor _ d x y | .kxor _ d x y | .kandn _ d x y => need true (maskOk d && maskOk x && maskOk y)
  | .knot _ d x => need true (maskOk d && maskOk x)
  | .vredmax _ ty _ d x | .vredmin _ ty _ d x => need (isIF ty) (sliceOk d && sliceOk x)
  | .vrot _ ty _ d x _ => need (isIFE ty) (sliceOk d && sliceOk x)
  | .vlane _ ty _ d => need (isClassI ty) (sliceOk d)
  | .xmov _ _ d x => need true (sliceOk d && sliceOk x)
  | .vpack _ ty _ sat d x fmt => need3 (packOk ty fmt) (sliceOk d && sliceOk x) (!sat || packOk ty fmt)
  | .vunpk _ ty _ d x fmt => need (packOk ty fmt) (sliceOk d && sliceOk x)
  | .vdiv ty _ d x y => need (isClassF ty) (sliceOk d && sliceOk x && sliceOk y)
  | .vsqrt ty _ d x => need (isClassF ty) (sliceOk d && sliceOk x)
  | .vrcp ty _ d x | .vrsq ty _ d x | .vexp2 ty _ d x | .vlog2 ty _ d x | .vsumx _ ty _ d x =>
    need (isShortF ty) (sliceOk d && sliceOk x)
  | .vrcpl ty _ d x => need (ty == 8#4 || ty == 9#4) (sliceOk d && sliceOk x)
  | .mma af bf _ a w | .mmz af bf _ a w | .mmat af bf _ a w | .mmzt af bf _ a w => mmReasons af bf a w
  | .mcvt af _ _ o | .mldc af _ _ o | .mbias af _ _ o => tileReasons af o
  | .mstc af _ a => mstcReasons af a
  | .slda sel a | .sldb sel a => sldReasons sel a
  | .ldv _ _ _ _ d | .ldvs _ _ _ _ _ d | .ldvb _ _ _ _ d => need true (sliceOk d)
  | .stv _ _ _ _ _ d | .stvs _ _ _ _ _ _ d => need true (sliceOk d)
  | .ldvx _ _ x _ d | .stvx _ _ _ x _ d => need true (sliceOk x && sliceOk d)
  | .ldk _ _ _ _ m | .stk _ _ _ _ _ m => need true (maskOk m)
  | .atadd _ _ _ sz _ | .atmin _ _ _ sz _ | .atmax _ _ _ sz _ | .atminu _ _ _ sz _ | .atmaxu _ _ _ sz _
  | .atand _ _ _ sz _ | .ator _ _ _ sz _ | .atxch _ _ _ sz _ | .atcas _ _ _ _ sz _ => atReasons sz
  | .fill _ n a => need true (decide (a.toNat + n.toNat + 1 ≤ 32768))
  | .park c _ o | .unpk c _ o => parkReasons c o
  | _ => Reasons.none

end Sys2Proof.Machine
end

