-- ==== Sys2Proof/WellFormed.lean ====
section
/-! DEFINITION. Well-formed instructions: those that meet no decode reason of R72. -/

namespace Sys2Proof

/-- The slot an instruction stands in; an event stands in none (R53, R62, R68 to R71). -/
def slotOf (i : Instr) : Option Slot :=
  match i with
  | .nop sl => some sl
  | .prep .. | .br .. | .brn .. | .jmp .. | .call .. | .calli .. | .ret | .loop .. | .loopi .. | .lexit | .step ..
  | .bari .. | .bara .. | .baraw .. | .barw .. | .fence .. | .txwait .. | .trap .. | .halt | .csrr .. | .csrw ..
  | .pool .. => some .ct
  | .add u .. | .sub u .. | .addi u .. | .mul u .. | .mulh u .. | .mulhu u .. | .div u .. | .divu u .. | .rem u ..
  | .remu u .. | .min u .. | .max u .. | .minu u .. | .maxu u .. | .and u .. | .or u .. | .xor u .. | .andi u ..
  | .ori u .. | .xori u .. | .shl u .. | .shr u .. | .sra u .. | .shli u .. | .shri u .. | .srai u .. | .ceq u ..
  | .cne u .. | .clt u .. | .cltu u .. | .ceqi u .. | .clti u .. | .sel u .. | .movi u .. | .movih u .. | .clz u ..
  | .ctz u .. | .popc u .. | .agen u .. | .rdli u .. | .rdjt u .. | .rdxy u .. => some u.slot
  | .vadd u .. | .vsub u .. | .vmul u .. | .vfma u .. | .vfms u .. | .vmin u .. | .vmax u .. | .vabs u .. | .vneg u ..
  | .vaddi u .. | .vmuli u .. | .vand u .. | .vor u .. | .vxor u .. | .vnot u .. | .vshl u .. | .vshr u .. | .vsra u ..
  | .vshli u .. | .vshri u .. | .vsrai u .. | .vclz u .. | .vpop u .. | .vcvt u .. | .vmov u .. | .vbri u ..
  | .vsplat u .. | .vsel u .. | .vceq u .. | .vcne u .. | .vclt u .. | .vcle u .. | .vcmpu u .. | .kand u .. | .kor u ..
  | .kxor u .. | .kandn u .. | .knot u .. | .vredadd u .. | .vredmax u .. | .vredmin u .. | .vperm u .. | .vrot u ..
  | .vlane u .. | .xmov u .. | .vpack u .. | .vunpk u .. | .vsumx u .. => some u.slot
  | .vdiv .. | .vsqrt .. | .vrcp .. | .vrsq .. | .vexp2 .. | .vlog2 .. | .vrcpl .. => some .vb
  | .mma .. | .mmz .. | .mmat .. | .mmzt .. | .mclr .. | .maddc .. | .mcvt .. | .mldc .. | .mbias .. | .mstc .. => some .mx
  | .lds .. | .sts .. | .ldv .. | .stv .. | .ldvs .. | .stvs .. | .ldvb .. | .ldvx .. | .stvx .. | .ldk .. | .stk ..
  | .atadd .. | .atmin .. | .atmax .. | .atminu .. | .atmaxu .. | .atand .. | .ator .. | .atxch .. | .atcas .. | .pref ..
  | .txinit .. | .txarv .. => some .ls
  | .slda .. | .sldb .. | .fill .. | .park .. | .unpk .. => some .sf
  | _ => none

/-- An instruction that a bundle may hold without a decode reason (R72). Events are well-formed. -/
def WellFormed (i : Instr) : Prop := Machine.instrReasons i = Machine.Reasons.none

/-- The decision for `WellFormed`. -/
def wellFormed (i : Instr) : Bool := decide (Machine.instrReasons i = Machine.Reasons.none)

end Sys2Proof
end

