-- ==== Sys2Proof/Decode.lean ====
section
/-! DEFINITION. Slot words and bundles: the opcode maps of R62 and R68 to R71 over the formats of R62 to R67, the decode
reasons of R72 on a word, and the encoder from the same tables. -/

namespace Sys2Proof

open Machine (Reasons instrReasons)

/-- Joins fields, lowest first, each cut to its width. -/
def pack : List (Nat × Nat) → Nat
  | [] => 0
  | (w, v) :: r => v % 2 ^ w + 2 ^ w * pack r

/-- A slice operand field (R56). -/
def sliceField (x : Nat) : SliceOp := ⟨BitVec.ofNat 12 (x / 16), BitVec.ofNat 4 x⟩

/-- The 16 bits of a slice operand field. -/
def SliceOp.word (o : SliceOp) : Nat := o.wm1.toNat + 16 * o.start.toNat

/-- A control-slot word, its attribute bits ignored (R62). -/
def decodeCt (w : Nat) : Option Instr :=
  let j := BitVec.ofNat 4 (w / 2 ^ 51)
  let x := BitVec.ofNat 6 (w / 2 ^ 49)
  let t := BitVec.ofNat 24 w
  let c := BitVec.ofNat 7 (w / 2 ^ 48)
  match w / 2 ^ 57 % 128 with
  | 0x00 => some (.nop .ct)
  | 0x01 => some (.prep j t)
  | 0x02 => some (.br j)
  | 0x03 => some (.brn j)
  | 0x04 => some (.jmp t)
  | 0x05 => some (.call t)
  | 0x06 => some (.calli x (BitVec.ofNat 8 w))
  | 0x07 => some .ret
  | 0x08 => some (.loop x t)
  | 0x09 => some (.loopi (BitVec.ofNat 24 (w / 2 ^ 31)) t)
  | 0x0A => some .lexit
  | 0x0B => some (.step j)
  | 0x0C => some (.bari c (BitVec.ofNat 6 (w / 2 ^ 34)))
  | 0x0D => some (.bara c (BitVec.ofNat 8 (w / 2 ^ 40)))
  | 0x0E => some (.barw c)
  | 0x0F => some (.baraw c (BitVec.ofNat 8 (w / 2 ^ 40)))
  | 0x10 => some (.fence (BitVec.ofNat 8 (w / 2 ^ 47)))
  | 0x11 => some (.txwait x (BitVec.ofNat 4 (w / 2 ^ 45)))
  | 0x12 => some (.trap (BitVec.ofNat 16 w))
  | 0x13 => some .halt
  | 0x14 => some (.csrr x (BitVec.ofNat 12 w))
  | 0x15 => some (.csrw (BitVec.ofNat 12 w) x)
  | 0x16 => some (.pool (BitVec.ofNat 13 w))
  | _ => none

/-- A scalar-slot word (R63, R68). -/
def decodeScalar (u : ScalarSlot) (w : Nat) : Option Instr :=
  let d := BitVec.ofNat 6 (w / 2 ^ 51)
  let x := BitVec.ofNat 6 (w / 2 ^ 45)
  let y := BitVec.ofNat 6 (w / 2 ^ 39)
  let z := BitVec.ofNat 6 (w / 2 ^ 33)
  let i := BitVec.ofNat 32 w
  let a := BitVec.ofNat 6 w
  match w / 2 ^ 57 % 128 with
  | 0x00 => some (.nop u.slot)
  | 0x01 => some (.add u d x y)
  | 0x02 => some (.sub u d x y)
  | 0x03 => some (.addi u d x i)
  | 0x04 => some (.mul u d x y)
  | 0x05 => some (.mulh u d x y)
  | 0x06 => some (.mulhu u d x y)
  | 0x07 => some (.div u d x y)
  | 0x08 => some (.divu u d x y)
  | 0x09 => some (.rem u d x y)
  | 0x0A => some (.remu u d x y)
  | 0x0B => some (.and u d x y)
  | 0x0C => some (.or u d x y)
  | 0x0D => some (.xor u d x y)
  | 0x0E => some (.andi u d x i)
  | 0x0F => some (.ori u d x i)
  | 0x10 => some (.xori u d x i)
  | 0x11 => some (.shl u d x y)
  | 0x12 => some (.shr u d x y)
  | 0x13 => some (.sra u d x y)
  | 0x14 => some (.shli u d x a)
  | 0x15 => some (.shri u d x a)
  | 0x16 => some (.srai u d x a)
  | 0x17 => some (.min u d x y)
  | 0x18 => some (.max u d x y)
  | 0x19 => some (.minu u d x y)
  | 0x1A => some (.maxu u d x y)
  | 0x1B => some (.ceq u d x y)
  | 0x1C => some (.cne u d x y)
  | 0x1D => some (.clt u d x y)
  | 0x1E => some (.cltu u d x y)
  | 0x1F => some (.ceqi u d x i)
  | 0x20 => some (.clti u d x i)
  | 0x21 => some (.movi u d (BitVec.ofNat 48 w))
  | 0x22 => some (.movih u d (BitVec.ofNat 48 w))
  | 0x23 => some (.sel u d x y z)
  | 0x24 => some (.clz u d x)
  | 0x25 => some (.ctz u d x)
  | 0x26 => some (.popc u d x)
  | 0x27 => some (.agen u d x y z)
  | 0x28 => some (.rdli u d x)
  | 0x29 => some (.rdjt u d x)
  | 0x2A => some (.rdxy u d)
  | _ => none

/-- A vector-slot word (R64, R69); the long operations stand in `vb` only. -/
def decodeVector (u : VectorSlot) (w : Nat) : Option Instr :=
  let ty := BitVec.ofNat 4 (w / 2 ^ 53)
  let k := BitVec.ofNat 4 (w / 2 ^ 49)
  let sat := w / 2 ^ 48 % 2 == 1
  let df := w / 2 ^ 32 % 2 ^ 16
  let xf := w / 2 ^ 16 % 2 ^ 16
  let yf := w % 2 ^ 16
  let d := sliceField df
  let x := sliceField xf
  let y := sliceField yf
  let im := BitVec.ofNat 16 yf
  let a := BitVec.ofNat 6 yf
  let md := BitVec.ofNat 6 df
  let mx := BitVec.ofNat 6 xf
  let vbOnly (i : Instr) : Option Instr := match u with | .va => none | .vb => some i
  match w / 2 ^ 57 % 128 with
  | 0x00 => some (.nop u.slot)
  | 0x01 => some (.vadd u ty k sat d x y)
  | 0x02 => some (.vsub u ty k sat d x y)
  | 0x03 => some (.vmul u ty k sat d x y)
  | 0x04 => some (.vfma u ty k sat d x y)
  | 0x05 => some (.vfms u ty k sat d x y)
  | 0x06 => some (.vmin u ty k d x y)
  | 0x07 => some (.vmax u ty k d x y)
  | 0x08 => some (.vabs u ty k sat d x)
  | 0x09 => some (.vneg u ty k sat d x)
  | 0x0A => some (.vaddi u ty k sat d x im)
  | 0x0B => some (.vmuli u ty k sat d x im)
  | 0x0C => some (.vand u ty k d x y)
  | 0x0D => some (.vor u ty k d x y)
  | 0x0E => some (.vxor u ty k d x y)
  | 0x0F => some (.vnot u ty k d x)
  | 0x10 => some (.vshl u ty k d x y)
  | 0x11 => some (.vshr u ty k d x y)
  | 0x12 => some (.vsra u ty k d x y)
  | 0x13 => some (.vshli u ty k d x a)
  | 0x14 => some (.vshri u ty k d x a)
  | 0x15 => some (.vsrai u ty k d x a)
  | 0x16 => some (.vcvt u ty k sat d x (BitVec.ofNat 4 yf))
  | 0x17 => some (.vmov u ty k sat d x)
  | 0x18 => some (.vbri u ty k d im)
  | 0x19 => some (.vsplat u ty k d a)
  | 0x1A => some (.vsel u ty k d x y)
  | 0x1B => some (.vceq u ty k md x y)
  | 0x1C => some (.vcne u ty k md x y)
  | 0x1D => some (.vclt u ty k md x y)
  | 0x1E => some (.vcle u ty k md x y)
  | 0x1F => some (.vcmpu u k md mx)
  | 0x20 => some (.kand u md mx a)
  | 0x21 => some (.kor u md mx a)
  | 0x22 => some (.kxor u md mx a)
  | 0x23 => some (.kandn u md mx a)
  | 0x24 => some (.knot u md mx)
  | 0x25 => some (.vredadd u ty k sat d x)
  | 0x26 => some (.vredmax u ty k d x)
  | 0x27 => some (.vredmin u ty k d x)
  | 0x28 => some (.vperm u ty k d x y)
  | 0x29 => some (.vrot u ty k d x (BitVec.ofNat 8 yf))
  | 0x2A => some (.vlane u ty k d)
  | 0x2B => some (.xmov u k d x)
  | 0x2C => some (.vpack u ty k sat d x (BitVec.ofNat 5 yf))
  | 0x2D => some (.vunpk u ty k d x (BitVec.ofNat 5 yf))
  | 0x2E => some (.vclz u ty k d x)
  | 0x2F => some (.vpop u ty k d x)
  | 0x30 => vbOnly (.vdiv ty k d x y)
  | 0x31 => vbOnly (.vsqrt ty k d x)
  | 0x32 => vbOnly (.vrcp ty k d x)
  | 0x33 => vbOnly (.vrsq ty k d x)
  | 0x34 => vbOnly (.vexp2 ty k d x)
  | 0x35 => vbOnly (.vlog2 ty k d x)
  | 0x36 => vbOnly (.vrcpl ty k d x)
  | 0x37 => some (.vsumx u ty k d x)
  | _ => none

/-- A matrix-slot word (R65, R70). -/
def decodeMatrix (w : Nat) : Option Instr :=
  let af := BitVec.ofNat 5 (w / 2 ^ 52)
  let bf := BitVec.ofNat 5 (w / 2 ^ 47)
  let t := BitVec.ofNat 4 (w / 2 ^ 43)
  let ao := BitVec.ofNat 11 (w / 2 ^ 32)
  let wo := BitVec.ofNat 12 (w / 2 ^ 20)
  let cl := w / 2 ^ 16 % 2 == 1
  let o := sliceField (w % 2 ^ 16)
  match w / 2 ^ 57 % 128 with
  | 0x00 => some (.nop .mx)
  | 0x01 => some (.mma af bf t ao wo)
  | 0x02 => some (.mmz af bf t ao wo)
  | 0x03 => some (.mmat af bf t ao wo)
  | 0x04 => some (.mmzt af bf t ao wo)
  | 0x05 => some (.mclr t)
  | 0x06 => some (.maddc t (BitVec.ofNat 4 (w / 2 ^ 39)))
  | 0x07 => some (.mcvt af t cl o)
  | 0x08 => some (.mldc af t cl o)
  | 0x09 => some (.mbias af t cl o)
  | 0x0A => some (.mstc af t ao)
  | _ => none

/-- A load/store-slot word (R66, R71). -/
def decodeLs (w : Nat) : Option Instr :=
  let col := BitVec.ofNat 3 (w / 2 ^ 54)
  let b := BitVec.ofNat 6 (w / 2 ^ 48)
  let d := BitVec.ofNat 6 (w / 2 ^ 42)
  let c := BitVec.ofNat 6 (w / 2 ^ 36)
  let sz := BitVec.ofNat 2 (w / 2 ^ 34)
  let sgn := w / 2 ^ 33 % 2 == 1
  let off := BitVec.ofNat 32 w
  let k := BitVec.ofNat 4 (w / 2 ^ 38)
  let off21 := BitVec.ofNat 21 (w / 2 ^ 17)
  let cl := w / 2 ^ 16 % 2 == 1
  let o := sliceField (w % 2 ^ 16)
  let m := BitVec.ofNat 6 w
  let idx := sliceField (w / 2 ^ 22 % 2 ^ 16)
  match w / 2 ^ 57 % 128 with
  | 0x00 => some (.nop .ls)
  | 0x01 => some (.lds b d sz sgn off)
  | 0x02 => some (.sts col b d sz off)
  | 0x03 => some (.ldv b k off21 cl o)
  | 0x04 => some (.stv col b k off21 cl o)
  | 0x05 => some (.ldvs b d k off21 cl o)
  | 0x06 => some (.stvs col b d k off21 cl o)
  | 0x07 => some (.ldvx b k idx cl o)
  | 0x08 => some (.stvx col b k idx cl o)
  | 0x09 => some (.ldvb b k off21 cl o)
  | 0x0A => some (.atadd col b d sz off)
  | 0x0B => some (.atmin col b d sz off)
  | 0x0C => some (.atmax col b d sz off)
  | 0x0D => some (.atminu col b d sz off)
  | 0x0E => some (.atmaxu col b d sz off)
  | 0x0F => some (.atand col b d sz off)
  | 0x10 => some (.ator col b d sz off)
  | 0x11 => some (.atxch col b d sz off)
  | 0x12 => some (.atcas col b d c sz off)
  | 0x13 => some (.pref b off)
  | 0x14 => some (.txinit b d off)
  | 0x15 => some (.txarv b d off)
  | 0x16 => some (.ldk b k off21 cl m)
  | 0x17 => some (.stk col b k off21 cl m)
  | _ => none

/-- A word of the scale, fill and park slot (R67, R71). -/
def decodeSf (w : Nat) : Option Instr :=
  let cl := w / 2 ^ 16 % 2 == 1
  let o := sliceField (w % 2 ^ 16)
  let co := BitVec.ofNat 12 (w / 2 ^ 20)
  let sel := BitVec.ofNat 4 (w / 2 ^ 53)
  let ao := BitVec.ofNat 15 (w / 2 ^ 17)
  match w / 2 ^ 57 % 128 with
  | 0x00 => some (.nop .sf)
  | 0x01 => some (.fill (BitVec.ofNat 6 (w / 2 ^ 51)) (BitVec.ofNat 11 (w / 2 ^ 40)) (BitVec.ofNat 15 w))
  | 0x02 => some (.park co cl o)
  | 0x03 => some (.unpk co cl o)
  | 0x04 => some (.slda sel ao)
  | 0x05 => some (.sldb sel ao)
  | _ => none

/-- The instruction that a slot word names, its zero fields not judged; `none` for an unassigned opcode (R53). -/
def decodeRaw (sl : Slot) (w : Nat) : Option Instr :=
  match sl with
  | .ct => decodeCt w
  | .sa => decodeScalar .sa w
  | .sb => decodeScalar .sb w
  | .va => decodeVector .va w
  | .vb => decodeVector .vb w
  | .mx => decodeMatrix w
  | .ls => decodeLs w
  | .sf => decodeSf w

/-- Format SR of R63. -/
def encSR (op : Nat) (d x y z : BitVec 6) : Nat :=
  pack [(33, 0), (6, z.toNat), (6, y.toNat), (6, x.toNat), (6, d.toNat), (7, op)]

/-- Format SI of R63. -/
def encSI (op : Nat) (d x : BitVec 6) (imm : Nat) : Nat :=
  pack [(32, imm), (13, 0), (6, x.toNat), (6, d.toNat), (7, op)]

/-- Format SL of R63. -/
def encSL (op : Nat) (d : BitVec 6) (imm : BitVec 48) : Nat :=
  pack [(48, imm.toNat), (3, 0), (6, d.toNat), (7, op)]

/-- Formats VR and VI of R64; d, x and y are the 16-bit fields. -/
def encV (op : Nat) (ty k : BitVec 4) (sat : Bool) (d x y : Nat) : Nat :=
  pack [(16, y), (16, x), (16, d), (1, Machine.b2n sat), (4, k.toNat), (4, ty.toNat), (7, op)]

/-- The format of R65; `low` holds bits [42:0]. -/
def encMx (op : Nat) (af bf : BitVec 5) (t : BitVec 4) (low : Nat) : Nat :=
  pack [(43, low), (4, t.toNat), (5, bf.toNat), (5, af.toNat), (7, op)]

/-- Bits [42:0] of an array instruction. -/
def mmLow (ao : BitVec 11) (wo : BitVec 12) : Nat := pack [(20, 0), (12, wo.toNat), (11, ao.toNat)]

/-- Bits [42:0] of MCVT, MLDC and MBIAS. -/
def sopLow (cl : Bool) (o : SliceOp) : Nat := pack [(16, o.word), (1, Machine.b2n cl), (26, 0)]

/-- Format LM of R66. -/
def encLM (op : Nat) (col : BitVec 3) (b d c : BitVec 6) (sz : BitVec 2) (sgn : Bool) (off : BitVec 32) : Nat :=
  pack [(32, off.toNat), (1, 0), (1, Machine.b2n sgn), (2, sz.toNat), (6, c.toNat), (6, d.toNat), (6, b.toNat),
    (3, col.toNat), (7, op)]

/-- Format LV of R66; `sop` is the 16-bit field. -/
def encLV (op : Nat) (col : BitVec 3) (b g : BitVec 6) (k : BitVec 4) (off : BitVec 21) (cl : Bool) (sop : Nat) : Nat :=
  pack [(16, sop), (1, Machine.b2n cl), (21, off.toNat), (4, k.toNat), (6, g.toNat), (6, b.toNat), (3, col.toNat), (7, op)]

/-- Format LX of R66. -/
def encLX (op : Nat) (col : BitVec 3) (b : BitVec 6) (k : BitVec 4) (idx : SliceOp) (cl : Bool) (o : SliceOp) : Nat :=
  pack [(16, o.word), (1, Machine.b2n cl), (5, 0), (16, idx.word), (4, k.toNat), (6, 0), (6, b.toNat), (3, col.toNat),
    (7, op)]

/-- Format PARK of R67. -/
def encPark (op : Nat) (co : BitVec 12) (cl : Bool) (o : SliceOp) : Nat :=
  pack [(16, o.word), (1, Machine.b2n cl), (3, 0), (12, co.toNat), (25, 0), (7, op)]

/-- Format SLD of R67. -/
def encSld (op : Nat) (sel : BitVec 4) (ao : BitVec 15) : Nat :=
  pack [(17, 0), (15, ao.toNat), (21, 0), (4, sel.toNat), (7, op)]

/-- A control word: fields are laid out by their lowest bits (R62). -/
def encCt (op low : Nat) : Nat := pack [(55, low), (2, 0), (7, op)]

/-- The 64-bit word of a slot instruction, from R62 to R71; 0 for an event. -/
def encodeWord (i : Instr) : Nat :=
  match i with
  | .prep j t => encCt 0x01 (pack [(24, t.toNat), (27, 0), (4, j.toNat)])
  | .br j => encCt 0x02 (pack [(51, 0), (4, j.toNat)])
  | .brn j => encCt 0x03 (pack [(51, 0), (4, j.toNat)])
  | .jmp t => encCt 0x04 t.toNat
  | .call t => encCt 0x05 t.toNat
  | .calli x c => encCt 0x06 (pack [(8, c.toNat), (41, 0), (6, x.toNat)])
  | .ret => encCt 0x07 0
  | .loop x e => encCt 0x08 (pack [(24, e.toNat), (25, 0), (6, x.toNat)])
  | .loopi t e => encCt 0x09 (pack [(24, e.toNat), (7, 0), (24, t.toNat)])
  | .lexit => encCt 0x0A 0
  | .step g => encCt 0x0B (pack [(51, 0), (4, g.toNat)])
  | .bari c x => encCt 0x0C (pack [(34, 0), (6, x.toNat), (8, 0), (7, c.toNat)])
  | .bara c m => encCt 0x0D (pack [(40, 0), (8, m.toNat), (7, c.toNat)])
  | .barw c => encCt 0x0E (pack [(48, 0), (7, c.toNat)])
  | .baraw c m => encCt 0x0F (pack [(40, 0), (8, m.toNat), (7, c.toNat)])
  | .fence m => encCt 0x10 (pack [(47, 0), (8, m.toNat)])
  | .txwait x p => encCt 0x11 (pack [(45, 0), (4, p.toNat), (6, x.toNat)])
  | .trap c => encCt 0x12 c.toNat
  | .halt => encCt 0x13 0
  | .csrr d c => encCt 0x14 (pack [(12, c.toNat), (37, 0), (6, d.toNat)])
  | .csrw c x => encCt 0x15 (pack [(12, c.toNat), (37, 0), (6, x.toNat)])
  | .pool n => encCt 0x16 n.toNat
  | .add _ d x y => encSR 0x01 d x y 0
  | .sub _ d x y => encSR 0x02 d x y 0
  | .addi _ d x i => encSI 0x03 d x i.toNat
  | .mul _ d x y => encSR 0x04 d x y 0
  | .mulh _ d x y => encSR 0x05 d x y 0
  | .mulhu _ d x y => encSR 0x06 d x y 0
  | .div _ d x y => encSR 0x07 d x y 0
  | .divu _ d x y => encSR 0x08 d x y 0
  | .rem _ d x y => encSR 0x09 d x y 0
  | .remu _ d x y => encSR 0x0A d x y 0
  | .and _ d x y => encSR 0x0B d x y 0
  | .or _ d x y => encSR 0x0C d x y 0
  | .xor _ d x y => encSR 0x0D d x y 0
  | .andi _ d x i => encSI 0x0E d x i.toNat
  | .ori _ d x i => encSI 0x0F d x i.toNat
  | .xori _ d x i => encSI 0x10 d x i.toNat
  | .shl _ d x y => encSR 0x11 d x y 0
  | .shr _ d x y => encSR 0x12 d x y 0
  | .sra _ d x y => encSR 0x13 d x y 0
  | .shli _ d x a => encSI 0x14 d x a.toNat
  | .shri _ d x a => encSI 0x15 d x a.toNat
  | .srai _ d x a => encSI 0x16 d x a.toNat
  | .min _ d x y => encSR 0x17 d x y 0
  | .max _ d x y => encSR 0x18 d x y 0
  | .minu _ d x y => encSR 0x19 d x y 0
  | .maxu _ d x y => encSR 0x1A d x y 0
  | .ceq _ d x y => encSR 0x1B d x y 0
  | .cne _ d x y => encSR 0x1C d x y 0
  | .clt _ d x y => encSR 0x1D d x y 0
  | .cltu _ d x y => encSR 0x1E d x y 0
  | .ceqi _ d x i => encSI 0x1F d x i.toNat
  | .clti _ d x i => encSI 0x20 d x i.toNat
  | .movi _ d i => encSL 0x21 d i
  | .movih _ d i => encSL 0x22 d i
  | .sel _ d x y z => encSR 0x23 d x y z
  | .clz _ d x => encSR 0x24 d x 0 0
  | .ctz _ d x => encSR 0x25 d x 0 0
  | .popc _ d x => encSR 0x26 d x 0 0
  | .agen _ d x y z => encSR 0x27 d x y z
  | .rdli _ d x => encSR 0x28 d x 0 0
  | .rdjt _ d x => encSR 0x29 d x 0 0
  | .rdxy _ d => encSR 0x2A d 0 0 0
  | .vadd _ ty k s d x y => encV 0x01 ty k s d.word x.word y.word
  | .vsub _ ty k s d x y => encV 0x02 ty k s d.word x.word y.word
  | .vmul _ ty k s d x y => encV 0x03 ty k s d.word x.word y.word
  | .vfma _ ty k s d x y => encV 0x04 ty k s d.word x.word y.word
  | .vfms _ ty k s d x y => encV 0x05 ty k s d.word x.word y.word
  | .vmin _ ty k d x y => encV 0x06 ty k false d.word x.word y.word
  | .vmax _ ty k d x y => encV 0x07 ty k false d.word x.word y.word
  | .vabs _ ty k s d x => encV 0x08 ty k s d.word x.word 0
  | .vneg _ ty k s d x => encV 0x09 ty k s d.word x.word 0
  | .vaddi _ ty k s d x i => encV 0x0A ty k s d.word x.word i.toNat
  | .vmuli _ ty k s d x i => encV 0x0B ty k s d.word x.word i.toNat
  | .vand _ ty k d x y => encV 0x0C ty k false d.word x.word y.word
  | .vor _ ty k d x y => encV 0x0D ty k false d.word x.word y.word
  | .vxor _ ty k d x y => encV 0x0E ty k false d.word x.word y.word
  | .vnot _ ty k d x => encV 0x0F ty k false d.word x.word 0
  | .vshl _ ty k d x y => encV 0x10 ty k false d.word x.word y.word
  | .vshr _ ty k d x y => encV 0x11 ty k false d.word x.word y.word
  | .vsra _ ty k d x y => encV 0x12 ty k false d.word x.word y.word
  | .vshli _ ty k d x a => encV 0x13 ty k false d.word x.word a.toNat
  | .vshri _ ty k d x a => encV 0x14 ty k false d.word x.word a.toNat
  | .vsrai _ ty k d x a => encV 0x15 ty k false d.word x.word a.toNat
  | .vcvt _ ty k s d x ts => encV 0x16 ty k s d.word x.word ts.toNat
  | .vmov _ ty k s d x => encV 0x17 ty k s d.word x.word 0
  | .vbri _ ty k d i => encV 0x18 ty k false d.word 0 i.toNat
  | .vsplat _ ty k d y => encV 0x19 ty k false d.word 0 y.toNat
  | .vsel _ ty k d x y => encV 0x1A ty k false d.word x.word y.word
  | .vceq _ ty k m x y => encV 0x1B ty k false m.toNat x.word y.word
  | .vcne _ ty k m x y => encV 0x1C ty k false m.toNat x.word y.word
  | .vclt _ ty k m x y => encV 0x1D ty k false m.toNat x.word y.word
  | .vcle _ ty k m x y => encV 0x1E ty k false m.toNat x.word y.word
  | .vcmpu _ k j m => encV 0x1F 0 k false j.toNat m.toNat 0
  | .kand _ d x y => encV 0x20 0 0 false d.toNat x.toNat y.toNat
  | .kor _ d x y => encV 0x21 0 0 false d.toNat x.toNat y.toNat
  | .kxor _ d x y => encV 0x22 0 0 false d.toNat x.toNat y.toNat
  | .kandn _ d x y => encV 0x23 0 0 false d.toNat x.toNat y.toNat
  | .knot _ d x => encV 0x24 0 0 false d.toNat x.toNat 0
  | .vredadd _ ty k s d x => encV 0x25 ty k s d.word x.word 0
  | .vredmax _ ty k d x => encV 0x26 ty k false d.word x.word 0
  | .vredmin _ ty k d x => encV 0x27 ty k false d.word x.word 0
  | .vperm _ ty k d x y => encV 0x28 ty k false d.word x.word y.word
  | .vrot _ ty k d x n => encV 0x29 ty k false d.word x.word n.toNat
  | .vlane _ ty k d => encV 0x2A ty k false d.word 0 0
  | .xmov _ k d x => encV 0x2B 0 k false d.word x.word 0
  | .vpack _ ty k s d x f => encV 0x2C ty k s d.word x.word f.toNat
  | .vunpk _ ty k d x f => encV 0x2D ty k false d.word x.word f.toNat
  | .vclz _ ty k d x => encV 0x2E ty k false d.word x.word 0
  | .vpop _ ty k d x => encV 0x2F ty k false d.word x.word 0
  | .vdiv ty k d x y => encV 0x30 ty k false d.word x.word y.word
  | .vsqrt ty k d x => encV 0x31 ty k false d.word x.word 0
  | .vrcp ty k d x => encV 0x32 ty k false d.word x.word 0
  | .vrsq ty k d x => encV 0x33 ty k false d.word x.word 0
  | .vexp2 ty k d x => encV 0x34 ty k false d.word x.word 0
  | .vlog2 ty k d x => encV 0x35 ty k false d.word x.word 0
  | .vrcpl ty k d x => encV 0x36 ty k false d.word x.word 0
  | .vsumx _ ty k d x => encV 0x37 ty k false d.word x.word 0
  | .mma a b t ao wo => encMx 0x01 a b t (mmLow ao wo)
  | .mmz a b t ao wo => encMx 0x02 a b t (mmLow ao wo)
  | .mmat a b t ao wo => encMx 0x03 a b t (mmLow ao wo)
  | .mmzt a b t ao wo => encMx 0x04 a b t (mmLow ao wo)
  | .mclr t => encMx 0x05 0 0 t 0
  | .maddc t u => encMx 0x06 0 0 t (pack [(39, 0), (4, u.toNat)])
  | .mcvt a t cl o => encMx 0x07 a 0 t (sopLow cl o)
  | .mldc a t cl o => encMx 0x08 a 0 t (sopLow cl o)
  | .mbias a t cl o => encMx 0x09 a 0 t (sopLow cl o)
  | .mstc a t ao => encMx 0x0A a 0 t (mmLow ao 0)
  | .lds b d sz sgn off => encLM 0x01 0 b d 0 sz sgn off
  | .sts col b d sz off => encLM 0x02 col b d 0 sz false off
  | .ldv b k off cl o => encLV 0x03 0 b 0 k off cl o.word
  | .stv col b k off cl o => encLV 0x04 col b 0 k off cl o.word
  | .ldvs b g k off cl o => encLV 0x05 0 b g k off cl o.word
  | .stvs col b g k off cl o => encLV 0x06 col b g k off cl o.word
  | .ldvx b k x cl o => encLX 0x07 0 b k x cl o
  | .stvx col b k x cl o => encLX 0x08 col b k x cl o
  | .ldvb b k off cl o => encLV 0x09 0 b 0 k off cl o.word
  | .atadd col b d sz off => encLM 0x0A col b d 0 sz false off
  | .atmin col b d sz off => encLM 0x0B col b d 0 sz false off
  | .atmax col b d sz off => encLM 0x0C col b d 0 sz false off
  | .atminu col b d sz off => encLM 0x0D col b d 0 sz false off
  | .atmaxu col b d sz off => encLM 0x0E col b d 0 sz false off
  | .atand col b d sz off => encLM 0x0F col b d 0 sz false off
  | .ator col b d sz off => encLM 0x10 col b d 0 sz false off
  | .atxch col b d sz off => encLM 0x11 col b d 0 sz false off
  | .atcas col b d c sz off => encLM 0x12 col b d c sz false off
  | .pref b off => encLM 0x13 0 b 0 0 0 false off
  | .txinit b d off => encLM 0x14 0 b d 0 0 false off
  | .txarv b d off => encLM 0x15 0 b d 0 0 false off
  | .ldk b k off cl m => encLV 0x16 0 b 0 k off cl m.toNat
  | .stk col b k off cl m => encLV 0x17 col b 0 k off cl m.toNat
  | .fill x n ao => pack [(15, ao.toNat), (25, 0), (11, n.toNat), (6, x.toNat), (7, 0x01)]
  | .park co cl o => encPark 0x02 co cl o
  | .unpk co cl o => encPark 0x03 co cl o
  | .slda sel ao => encSld 0x04 sel ao
  | .sldb sel ao => encSld 0x05 sel ao
  | _ => 0

/-- Instructions of the vector slots that take no type and require TY = 0 (R155). -/
def takesNoType (i : Instr) : Bool :=
  match i with
  | .kand .. | .kor .. | .kxor .. | .kandn .. | .knot .. | .vcmpu .. | .xmov .. => true
  | _ => false

/-- The word without the attribute bits of R54 in the control slot. -/
def slotBody (sl : Slot) (w : Nat) : Nat :=
  match sl with
  | .ct => w % 2 ^ 55 + w / 2 ^ 57 * 2 ^ 57
  | _ => w

/-- The decode reasons of one slot word (R72). A TY field that must be zero is a TYPE reason, every other nonzero bit that
the instruction does not use a RESERVED reason. -/
def slotReasons (sl : Slot) (w : Nat) : Reasons :=
  let b := slotBody sl w
  match decodeRaw sl b with
  | none => { opcode := true }
  | some i =>
    let ty := if takesNoType i then b / 2 ^ 53 % 16 else 0
    (instrReasons i).or { type := ty != 0, reserved := encodeWord i != b - ty * 2 ^ 53 }

/-- The instruction of a slot word without a decode reason. -/
def decodeSlot (sl : Slot) (w : Nat) : Option Instr :=
  if (slotReasons sl w).any then none else decodeRaw sl (slotBody sl w)

/-- The slots in ascending order (R52). -/
def allSlots : List Slot := [.ct, .sa, .sb, .va, .vb, .mx, .ls, .sf]

/-- Slot word n of a line (R52). -/
def lineWord (l : Line) (sl : Slot) : Nat := l.toNat / 2 ^ (64 * sl.index) % 2 ^ 64

/-- A bundle read from a line: per slot its instruction, or the reasons why it has none, and the attributes of R54. -/
structure Bundle where
  slots : List (Slot × Option Instr)
  bad   : List (Slot × Reasons)
  mark  : Bool
  segb  : Bool
  deriving DecidableEq, Repr

/-- Reads a line as a bundle. -/
def decodeLine (l : Line) : Bundle :=
  let w0 := lineWord l .ct
  { slots := allSlots.map (fun sl => (sl, decodeSlot sl (lineWord l sl)))
    bad := (allSlots.map (fun sl => (sl, slotReasons sl (lineWord l sl)))).filter (fun e => e.2.any)
    mark := Machine.bit w0 56
    segb := Machine.bit w0 55 }

/-- Why bytes give no single instruction. -/
inductive DecodeError where
  /-- Fewer than 64 bytes. -/
  | short
  /-- A slot meets the decode reasons given (R72). -/
  | illegal (slot : Slot) (reasons : Reasons)
  /-- More than one slot holds an instruction other than NOP. -/
  | several
  deriving DecidableEq, Repr

/-- The line that 64 bytes hold, first byte lowest (R52). -/
def lineOfBytes (bs : List Byte) : Option Line :=
  if bs.length < 64 then none else some (BitVec.ofNat 512 (Machine.packBits 8 ((bs.take 64).map BitVec.toNat)))

/-- Decodes bytes that hold a bundle: total, and refusing by name. -/
def decodeBytes (bs : List Byte) : Except DecodeError Bundle :=
  match lineOfBytes bs with
  | none => .error .short
  | some l =>
    let b := decodeLine l
    match b.bad with
    | (sl, r) :: _ => .error (.illegal sl r)
    | [] => .ok b

/-- The instructions of a bundle other than NOP. -/
def Bundle.work (b : Bundle) : List Instr :=
  b.slots.filterMap (fun e => match e.2 with
    | some (.nop _) => none
    | x => x)

/-- The instruction of a bundle that holds one at most; a bundle of NOPs is NOP. -/
def Bundle.single (b : Bundle) : Except DecodeError Instr :=
  match b.work with
  | [] => .ok (.nop .ct)
  | [i] => .ok i
  | _ => .error .several

/-- The line of a bundle that holds the instruction alone. -/
def encode (i : Instr) : Line :=
  match slotOf i with
  | some sl => BitVec.ofNat 512 (encodeWord i * 2 ^ (64 * sl.index))
  | none => 0

/-- The line of a bundle with the given slot instructions and attributes. -/
def encodeBundle (is : List Instr) (mark segb : Bool) : Line :=
  is.foldl (fun l i => l ||| encode i) (BitVec.ofNat 512 (Machine.b2n mark * 2 ^ 56 + Machine.b2n segb * 2 ^ 55))

/-- The 64 bytes of the bundle whose low nbits bits are w, the others zero. -/
def tableBytes (nbits w : Nat) : List Byte :=
  (List.range 64).map (fun n => BitVec.ofNat 8 ((w % 2 ^ nbits) / 2 ^ (8 * n)))

/-- The instruction read from the bundle whose low nbits bits are w. -/
def decodeTableWord (nbits w : Nat) : Option Instr :=
  match decodeBytes (tableBytes nbits w) with
  | .error _ => none
  | .ok b =>
    match b.single with
    | .ok i => some i
    | .error _ => none

end Sys2Proof
end

