-- ==== Sys2Proof/Machine/Float.lean ====
section
/-! DEFINITION. Exact values and the one rounding of R95, with the arithmetic and conversions of R82 to R107 and R183. -/

namespace Sys2Proof.Machine

/-- The value of a floating pattern (R83): a finite value is (-1)^neg * m * 2^e. -/
inductive FVal where
  | nan
  | inf (neg : Bool)
  | fin (neg : Bool) (m : Nat) (e : Int)
  deriving DecidableEq, Repr

/-- Value of a pattern (R82, R83); bits above the width are ignored. -/
def FFmt.value (f : FFmt) (x : Nat) : FVal :=
  let q := f.params
  let neg := bit x (q.eb + q.p)
  let e := bits x (q.eb + q.p - 1) q.p
  let fr := x % 2 ^ q.p
  let special := match q.nan with
    | .ieee => e == 2 ^ q.eb - 1
    | .e4m3 => e == 15 && fr == 7
    | .none => false
  if special then
    if q.nan == .ieee && fr == 0 then .inf neg else .nan
  else if e = 0 then .fin neg fr (1 - (q.bias : Int) - q.p)
  else .fin neg (2 ^ q.p + fr) ((e : Int) - q.bias - q.p)

/-- Pattern of a sign and a magnitude pattern. -/
def FFmt.signed (f : FFmt) (neg : Bool) (mag : Nat) : Nat := mag + (b2n neg) <<< (f.width - 1)

/-- Half-even rounding of num / den (R95). -/
def roundHalfEven (num den : Nat) : Nat :=
  let r := num / den
  let t := 2 * (num % den)
  if t < den then r else if den < t then r + 1 else r + r % 2

/-- Half-even rounding of (num / den) * 2^e. -/
def roundScaled (num den : Nat) (e : Int) : Nat :=
  if 0 ≤ e then roundHalfEven (num <<< e.toNat) den else roundHalfEven num (den <<< (-e).toNat)

/-- floor(log2 (num / den)) for positive num and den. -/
def floorLog2Q (num den : Nat) : Int :=
  let g : Int := (num.log2 : Int) - den.log2
  let le := if 0 ≤ g then decide (den <<< g.toNat ≤ num) else decide (den ≤ num <<< (-g).toNat)
  if le then g else g - 1

/-- Magnitude pattern nearest to (num / den) * 2^e, ties to even, over normals and subnormals, with the overflow rules
of R95. -/
def FFmt.roundMag (f : FFmt) (num den : Nat) (e : Int) : Nat :=
  let q := f.params
  if num = 0 then 0 else
  let emin : Int := 1 - (q.bias : Int)
  let ex := max (floorLog2Q num den + e) emin
  let r := roundScaled num den (e - (ex - q.p))
  let pat := (ex - emin).toNat * 2 ^ q.p + r
  if pat ≤ f.maxFinite then pat else if f.hasInf then f.infPattern else f.maxFinite

/-- rne(x, T) of R95; NaN gives the canonical NaN (R85). -/
def FFmt.round (f : FFmt) : FVal → Nat
  | .nan => f.canonicalNaN
  | .inf neg => f.signed neg (if f.hasInf then f.infPattern else f.maxFinite)
  | .fin neg m e => f.signed neg (f.roundMag m 1 e)

/-- x negated. -/
def FVal.neg : FVal → FVal
  | .nan => .nan
  | .inf n => .inf (!n)
  | .fin n m e => .fin (!n) m e

def FVal.isNaN : FVal → Bool
  | .nan => true
  | _ => false

/-- The exact product (R98, R106): 0 times infinity is NaN, the sign is the exclusive OR (R96). -/
def FVal.mul : FVal → FVal → FVal
  | .nan, _ | _, .nan => .nan
  | .inf a, .inf b => .inf (a != b)
  | .inf a, .fin b m _ => if m = 0 then .nan else .inf (a != b)
  | .fin a m _, .inf b => if m = 0 then .nan else .inf (a != b)
  | .fin a m e, .fin b n g => .fin (a != b) (m * n) (e + g)

/-- x times 2^k. -/
def FVal.scale (k : Int) : FVal → FVal
  | .fin n m e => .fin n m (e + k)
  | x => x

/-- m * 2^e as a signed number of units of 2^base, base ≤ e. -/
def alignTo (base : Int) (neg : Bool) (m : Nat) (e : Int) : Int :=
  let x : Nat := m <<< (e - base).toNat
  if neg then -(x : Int) else (x : Int)

/-- A running exact sum: NaN or infinities seen, the finite part in units of 2^e, and whether every term was -0. -/
structure Acc where
  nan    : Bool
  pinf   : Bool
  ninf   : Bool
  m      : Int
  e      : Int
  negz   : Bool
  deriving DecidableEq, Repr

/-- The empty sum; its zero counts as -0, so that it is the identity of R96. -/
def Acc.empty : Acc := ⟨false, false, false, 0, 0, true⟩

/-- Adds one term exactly. -/
def Acc.add (a : Acc) : FVal → Acc
  | .nan => { a with nan := true }
  | .inf neg => if neg then { a with ninf := true, negz := false } else { a with pinf := true, negz := false }
  | .fin neg m e =>
    if m = 0 then { a with negz := a.negz && neg }
    else
      let b := min a.e e
      { a with m := a.m <<< (a.e - b).toNat + alignTo b neg m e, e := b, negz := false }

/-- The value of a sum (R96, R106): +∞ with -∞ is NaN, an exact zero is +0 unless every term was -0. -/
def Acc.val (a : Acc) : FVal :=
  if a.nan || (a.pinf && a.ninf) then .nan
  else if a.pinf then .inf false
  else if a.ninf then .inf true
  else .fin (if a.m = 0 then a.negz else decide (a.m < 0)) a.m.natAbs a.e

/-- The exact sum of a list of values. -/
def exactSum (l : List FVal) : FVal := (l.foldl Acc.add Acc.empty).val

/-- The exact sum of two values. -/
def FVal.add (x y : FVal) : FVal := exactSum [x, y]

/-- rne of a quotient (R98). -/
def FFmt.div (f : FFmt) : FVal → FVal → Nat
  | .nan, _ | _, .nan => f.canonicalNaN
  | .inf _, .inf _ => f.canonicalNaN
  | .inf a, .fin b _ _ => f.round (.inf (a != b))
  | .fin a _ _, .inf b => f.signed (a != b) 0
  | .fin a m e, .fin b n g =>
    if n = 0 then if m = 0 then f.canonicalNaN else f.round (.inf (a != b))
    else f.signed (a != b) (f.roundMag m n (e - g))

/-- rne of a square root (R98); an inexact root is rounded from a value strictly between two neighbours of a much finer
grid, so the rounding is that of the exact root. -/
def FFmt.sqrt (f : FFmt) : FVal → Nat
  | .nan => f.canonicalNaN
  | .inf neg => if neg then f.canonicalNaN else f.round (.inf false)
  | .fin neg m e =>
    if m = 0 then f.signed neg 0
    else if neg then f.canonicalNaN
    else
      let (m', e') := if e % 2 = 0 then (m, e) else (2 * m, e - 1)
      let r := isqrt (m' <<< 160)
      let x := if r * r = m' <<< 160 then 2 * r else 2 * r + 1
      f.roundMag x 1 (e' / 2 - 81)

/-- rne(1/x, F) (R183). -/
def FFmt.recip (f : FFmt) (x : FVal) : Nat := f.div (.fin false 1 0) x

/-- rne(1/√x, F) with the special values of R183. -/
def FFmt.rsqrt (f : FFmt) : FVal → Nat
  | .nan => f.canonicalNaN
  | .inf neg => if neg then f.canonicalNaN else 0
  | .fin neg m e =>
    if m = 0 then f.round (.inf neg)
    else if neg then f.canonicalNaN
    else
      let (m', e') := if e % 2 = 0 then (m, e) else (2 * m, e - 1)
      let r := isqrt ((1 <<< 400) / m')
      let x := if r * r * m' = 1 <<< 400 then 2 * r else 2 * r + 1
      f.roundMag x 1 (-(e' / 2) - 201)

/-- Product of the roots 2^(2^-j) for the set bits of a fraction of n bits, highest first, in units of 2^-256. -/
def exp2Frac : Nat → Nat → Nat → Nat → Nat
  | 0, _, _, acc => acc
  | n + 1, fr, root, acc =>
    let root' := isqrt (root <<< 256)
    exp2Frac n fr root' (if bit fr n then (acc * root') >>> 256 else acc)

/-- rne(2^x, F) (R183). The power is formed to more than 200 bits, so that its rounding to the 11 fraction bits of P12 is
that of the exact power. -/
def FFmt.exp2 (f : FFmt) : FVal → Nat
  | .nan => f.canonicalNaN
  | .inf neg => if neg then 0 else f.round (.inf false)
  | .fin neg m e =>
    if m = 0 then f.round (.fin false 1 0)
    else if 0 ≤ e then
      if 12 < e ∨ 2 ^ 12 ≤ m <<< e.toNat then (if neg then 0 else f.round (.inf false))
      else f.roundMag 1 1 (alignTo 0 neg m e)
    else
      let n := (-e).toNat
      if 2 ^ 12 ≤ m >>> n then (if neg then 0 else f.round (.inf false))
      else
        let x : Int := if neg then -(m : Int) else m
        let i : Int := x / (2 ^ n : Nat)
        let fr := (x % ((2 ^ n : Nat) : Int)).toNat
        if fr = 0 then f.roundMag 1 1 i
        else
          let acc := exp2Frac n fr (2 <<< 256) (1 <<< 256)
          f.roundMag (2 * acc + 1) 1 (i - 257)

/-- The first n fraction bits of log2 of a number of [1, 2) held in units of 2^-256. -/
def log2Frac : Nat → Nat → Nat → Nat
  | 0, _, acc => acc
  | n + 1, z, acc =>
    let z2 := (z * z) >>> 256
    if 2 <<< 256 ≤ z2 then log2Frac n (z2 / 2) (2 * acc + 1) else log2Frac n z2 (2 * acc)

/-- rne(log2 x, F) (R183), formed to 100 fraction bits; a logarithm that is not an integer is irrational, so it never
stands on the grid. -/
def FFmt.log2 (f : FFmt) : FVal → Nat
  | .nan => f.canonicalNaN
  | .inf neg => if neg then f.canonicalNaN else f.round (.inf false)
  | .fin neg m e =>
    if m = 0 then f.round (.inf true)
    else if neg then f.canonicalNaN
    else
      let k := m.log2
      let i : Int := e + k
      if m = 2 ^ k then f.round (.fin (decide (i < 0)) i.natAbs 0)
      else
        let fr := log2Frac 100 (m <<< (256 - k)) 0
        let t : Int := 2 * (i * (2 ^ 100 : Nat) + fr) + 1
        f.round (.fin (decide (t < 0)) t.natAbs (-101))

/-- Order key of a finite value in units of 2^base. -/
def FVal.key (base : Int) : FVal → Int
  | .fin n m e => alignTo base n m e
  | _ => 0

/-- x < y for values that are not NaN; -0 equals +0 (R173). -/
def FVal.lt : FVal → FVal → Bool
  | .nan, _ | _, .nan => false
  | .inf a, .inf b => a && !b
  | .inf a, .fin _ _ _ => a
  | .fin _ _ _, .inf b => !b
  | .fin a m e, .fin b n g => decide (alignTo (min e g) a m e < alignTo (min e g) b n g)

/-- x = y for values that are not NaN (R173). -/
def FVal.eq (x y : FVal) : Bool := !x.isNaN && !y.isNaN && !x.lt y && !y.lt x

def FVal.negSign : FVal → Bool
  | .nan => false
  | .inf n => n
  | .fin n _ _ => n

/-- x before y in the order of VMIN and VMAX, where -0 is less than +0 (R162). -/
def FVal.before (x y : FVal) : Bool := x.lt y || (x.eq y && x.negSign && !y.negSign)

/-- Rounds a finite value to an integer, ties to even (R100). -/
def FVal.toInt : FVal → Int
  | .fin n m e => let r : Nat := roundScaled m 1 e; if n then -(r : Int) else r
  | _ => 0

/-- Least value of an integer format (R87). -/
def intMin (signed : Bool) (n : Nat) : Int := if signed then -((2 ^ (n - 1) : Nat) : Int) else 0

/-- Greatest value of an integer format (R87). -/
def intMax (signed : Bool) (n : Nat) : Int :=
  if signed then ((2 ^ (n - 1) : Nat) : Int) - 1 else ((2 ^ n : Nat) : Int) - 1

/-- sat(x, T) for an integer T (R97). -/
def satInt (signed : Bool) (n : Nat) (x : Int) : Int := max (intMin signed n) (min (intMax signed n) x)

/-- x mod 2^n in T's signedness (R94). -/
def wrapInt (signed : Bool) (n : Nat) (x : Int) : Int :=
  if signed then toSigned n (toPattern n x) else (toPattern n x : Int)

/-- Whether a pattern of f is infinite. -/
def FFmt.isInfPattern (f : FFmt) (x : Nat) : Bool := f.hasInf && x % 2 ^ (f.width - 1) == f.infPattern

/-- sat(x, T) for a pattern of a floating T (R97). -/
def FFmt.satPattern (f : FFmt) (x : Nat) : Nat :=
  if f.isInfPattern x then f.signed (bit x (f.width - 1)) f.maxFinite else x

/-- Conversion of a floating value to a floating format (R99). -/
def convFF (v : FVal) (f : FFmt) (sat : Bool) : Nat :=
  let y := f.round v
  if sat then f.satPattern y else y

/-- Conversion of a floating value to an integer format: rounds half-even, saturates, NaN gives 0 (R100). -/
def convFI (v : FVal) (signed : Bool) (n : Nat) : Int :=
  match v with
  | .nan => 0
  | .inf neg => if neg then intMin signed n else intMax signed n
  | x => satInt signed n x.toInt

/-- The value of an integer as an exact floating value. -/
def FVal.ofInt (x : Int) : FVal := .fin (decide (x < 0)) x.natAbs 0

/-- An element's value: an integer or a floating value. -/
inductive Val where
  | int (x : Int)
  | flt (v : FVal)
  deriving DecidableEq, Repr

/-- The value of a pattern of the format. -/
def NumFmt.value (t : NumFmt) (x : Nat) : Val :=
  match t with
  | .int s n => .int (if s then toSigned n x else ((x % 2 ^ n : Nat) : Int))
  | .flt f => .flt (f.value x)

/-- A value as an exact real, for the matrix unit. -/
def Val.toF : Val → FVal
  | .int x => FVal.ofInt x
  | .flt v => v

def Val.toI : Val → Int
  | .int x => x
  | .flt _ => 0

/-- A value in a format: an exact integer, or a pattern of a floating format. -/
inductive Conv where
  | int (x : Int)
  | pat (x : Nat)
  deriving DecidableEq, Repr

/-- convert(v, T) of R168: R99, R100, R101; an integer to an integer keeps its value, which placement wraps or clamps
(R102). -/
def convert (v : Val) (t : NumFmt) (sat : Bool) : Conv :=
  match v, t with
  | .flt x, .flt f => .pat (convFF x f sat)
  | .flt x, .int s n => .int (convFI x s n)
  | .int x, .flt f => .pat (convFF (FVal.ofInt x) f sat)
  | .int x, .int _ _ => .int x

/-- convert(v, T) into a pattern of T: an integer wraps, or saturates when asked (R102). -/
def convertPattern (v : Val) (t : NumFmt) (sat : Bool) : Nat :=
  match convert v t sat, t with
  | .int x, .int s n => toPattern n (if sat then satInt s n x else x)
  | .pat p, _ => p
  | .int x, .flt _ => x.toNat

end Sys2Proof.Machine
end

