-- ==== Sys2Proof/Machine/State.lean ====
section
/-! DEFINITION. The state of the TQ4 as plain data: the cores (R14), the dies, the ordering machine (R240), the command
processors, the management complex, the ports and the host's side of the package, and `State.reset`. -/

namespace Sys2Proof.Machine

/-- A byte memory: the listed bytes, addresses strictly rising, no entry equal to 0, which every unlisted byte reads as
(log 3). -/
abbrev Memory := List Host.Cell

/-! ## Pieces of a core -/

/-- A loop-stack entry (R16); `last` is END and `first` is START. -/
structure LoopEntry where
  trip  : BitVec 32
  iter  : BitVec 32
  last  : BitVec 24
  first : BitVec 24
  deriving DecidableEq, Repr

/-- The kinds of location of R42 and R303, in the order of LOC. -/
inductive LocKind where
  | sliceA | sliceB | scalar | cond | target | maskA | maskB | tile
  deriving DecidableEq, Repr

/-- A run of n locations of one kind. -/
structure LocRange where
  kind : LocKind
  lo   : Nat
  n    : Nat
  deriving DecidableEq, Repr

/-- What a result writes when it lands. `cl` is true for cluster B; `en` holds the lanes written (R23). -/
inductive ResVal where
  | scalar (d : Nat) (v : Word)
  | cond (j : Nat) (v : Bool)
  | target (j : Nat) (v : BitVec 24)
  | mask (cl : Bool) (k : Nat) (v en : LaneMask)
  | slices (cl : Bool) (start : Nat) (en : LaneMask) (lines : List SliceLine)
  /-- Lands nothing: an empty result, or one that carries an error (R305). -/
  | nothing
  deriving DecidableEq, Repr

/-- A result recorded on the scoreboard (R42): its bundle, its slot's number, its locations, its landing cycle. -/
structure Result where
  id     : Nat
  bundle : Nat
  slot   : Nat
  locs   : List LocRange
  land   : Nat
  val    : ResVal
  deriving DecidableEq, Repr

/-- A pending tile landing (R195): `array` is true for MMA, MMZ, MMAT and MMZT, whose accumulators are forwarded. -/
structure TileLanding where
  id    : Nat
  tile  : Nat
  land  : Nat
  array : Bool
  off   : Nat
  len   : Nat
  val   : Nat
  bundle : Nat
  sch   : Nat
  deriving DecidableEq, Repr

/-- A write of `len` bytes at offset `off` of a buffer that takes effect in a later cycle (MSTC, FILL, PARK). -/
structure LateWrite where
  id   : Nat
  due  : Nat
  off  : Nat
  len  : Nat
  val  : Nat
  /-- Its bundle and that bundle's schedule cycle, for the journal-full record (R331). -/
  bundle : Nat
  sch  : Nat
  deriving DecidableEq, Repr

/-- A scale load in flight (R205); `b` is true for SB. -/
structure ScaleLoad where
  id  : Nat
  due : Nat
  b   : Bool
  n   : Nat
  val : Nat
  deriving DecidableEq, Repr

/-- The users of the reservation table (R252). -/
inductive User where
  | issue | matrix | copy (ch : Nat) | bank (s : Nat)
  deriving DecidableEq, Repr

/-- The typed buffers. -/
inductive Buf where
  | a | c | w
  deriving DecidableEq, Repr

/-- An entry of the reservation table that is held, up to and including cycle `last` (R252). -/
structure Reservation where
  buf  : Buf
  bank : Nat
  user : User
  last : Nat
  deriving DecidableEq, Repr

/-- A view of the global store (R241): the position of a byte is its last write at or before the later of `floor` and the
byte's own point, both counted in performed writes. -/
structure View where
  floor : Nat
  pts   : Map Nat
  deriving DecidableEq, Repr

/-- Translation of an access: its issue cycle, the 4 KiB pages it still waits for, those it has (virtual, physical), and
the failures (address, reason 1 ABSENT or 2 PERM) (R312, R313). -/
structure Trans where
  issued : Nat
  waits : List Nat
  pages : List (Nat × Nat)
  fails : List (Nat × Nat)
  deriving DecidableEq, Repr

/-- A colour-queue entry (R213): bytes are (virtual address, value, mask of the bits written). -/
structure Entry where
  seq    : Nat
  col    : Nat
  bundle : Nat
  bytes  : List (Nat × Byte × Byte)
  trans  : Trans
  deriving DecidableEq, Repr

/-- Where and how a load's bytes go (R218 to R223). -/
inductive LoadDest where
  | scalar (d size : Nat) (sgn : Bool) (addr : Nat)
  | contiguous (cl : Bool) (start w : Nat) (en : LaneMask) (addr : Nat)
  | lanes (cl : Bool) (start w : Nat) (en : LaneMask) (addrs : List Nat)
  | broadcast (cl : Bool) (start w : Nat) (en : LaneMask) (addr : Nat)
  | maskHalf (cl : Bool) (k : Nat) (en : LaneMask) (addr : Nat)
  deriving DecidableEq, Repr

/-- One 32-byte sector of a global load (R243): its number, the bytes wanted, the cycle in which it is read at the
earliest, and whether it has been read. -/
structure LoadPart where
  sector : Nat
  want   : BitVec 32
  due    : Nat
  got    : Bool
  deriving DecidableEq, Repr

/-- The operations of R224. -/
inductive AtomicOp where
  | add | min | max | minu | maxu | and | or | xchg | cas
  deriving DecidableEq, Repr

/-- Kinds of long-pending access (R304). -/
inductive AccessKind where
  | load | store | atomic | pref
  deriving DecidableEq, Repr

/-- A long-pending access (R41): a global load, an atomic or a PREF. -/
structure Load where
  id     : Nat
  kind   : AccessKind
  bundle : Nat
  slot   : Nat
  locs   : List LocRange
  dest   : LoadDest
  parts  : List LoadPart
  got    : Memory
  trans  : Trans
  land   : Option Nat
  /-- An uncorrectable error in the data: nothing lands (R305). -/
  err    : Bool
  /-- The point of the history and the view of the core at which the Read move of a load has been made; parts that are read later stand
  between them (R242, R243). -/
  begun  : Option (Nat × View)
  deriving DecidableEq, Repr

/-- A job as its start names it (R226), before it enters the die's queue. -/
structure JobStart where
  queue    : Nat
  template : Nat
  param    : Word
  bundle   : Nat
  cycle    : Nat
  pos      : Nat
  deriving DecidableEq, Repr

/-- Items of a perform in order (R244, R312): an entry, or what waits behind the entries before it. -/
inductive PerformItem where
  | entry (seq : Nat)
  | arrive (c : Nat)
  | atomic (id : Nat) (op : AtomicOp) (size addr : Nat) (x y : Word)
  | start (j : JobStart)
  deriving DecidableEq, Repr

/-- What a core waits for. -/
inductive Wait where
  | step (g : Nat)
  | clasp (c : Nat)
  | tx (addr : Nat) (phase : Nat)
  deriving DecidableEq, Repr

/-- A trap record before it is written to TRAPPC, TRAPINFO and TRAPADDR (R35): `detail` stands in bits [63:32]. -/
structure TrapRec where
  cause  : Nat
  slots  : Nat
  detail : Nat
  addr   : Word
  index  : Nat
  deriving DecidableEq, Repr

/-- Why a core honours a request at a mark (R122). -/
inductive MarkReq where
  | preempt | evacuate | claim
  deriving DecidableEq, Repr

/-- Why a core stops (R47). -/
inductive StopWhy where
  | trap (t : TrapRec)
  /-- A debug stop with W2 of its record (R331). -/
  | debug (w2 : Nat)
  | mark (q : MarkReq)
  | seal
  | halt
  /-- `trapped` when the core had stopped by a trap before (R310). -/
  | abort (trapped : Bool)
  | rollback
  deriving DecidableEq, Repr

/-- Run state of a core; `resuming` walks the fault list again before any bundle issues (R314). -/
inductive Run where
  | idle | starting (cycle : Nat) | running | draining | stopped | resuming | halted
  deriving DecidableEq, Repr

/-- Hold causes in the order of R46, with the deviation codes of R329. -/
inductive HoldCause where
  | bank | segment | prepare | shadow | walk
  deriving DecidableEq, Repr

/-- The cycles for which the bundle at the pc has been held so far, by cause in the order of R46, and the ADDR of the
page-walk and segment records (R329). -/
structure Held where
  bank    : Nat
  segment : Nat
  prepare : Nat
  shadow  : Nat
  walk    : Nat
  segAddr : Nat
  walkAddr : Nat
  deriving DecidableEq, Repr

def Held.zero : Held := ⟨0, 0, 0, 0, 0, 0, 0⟩

/-- Causes that wait for the next bundle boundary (R125, R307). A failed translation is not among them: it stands in its
access (R313). -/
inductive PendCause where
  | frame (t : TrapRec)
  | collision (t : TrapRec)
  | data (t : TrapRec)
  | job (t : TrapRec)
  deriving DecidableEq, Repr

/-- CORESTAT's stored bits (R31). -/
structure CoreStat where
  replay   : Bool
  window   : Bool
  deviated : Bool
  noreplay : Bool
  race     : Bool
  deriving DecidableEq, Repr

def CoreStat.zero : CoreStat := ⟨false, false, false, false, false⟩

/-- A core's own part of a clasp (R126), and the phase view that its next wake joins (R242). -/
structure ClaspOwn where
  adone : Bool
  aval  : Bool
  aph   : Bool
  view  : View
  deriving DecidableEq, Repr

/-- The register state of a core that R14 names and a locket takes whole (R320). -/
structure Regs where
  pc     : BitVec 24
  /-- The active loops, innermost first; the depth is the length (R16). -/
  loops  : List LoopEntry
  s      : Vector Word 64
  jc     : Vector Bool 12
  jt     : Vector (BitVec 24) 12
  kA     : Vector LaneMask 16
  kB     : Vector LaneMask 16
  scaleA : BitVec 2048
  scaleB : BitVec 2048
  stat   : CoreStat
  clasps : Map ClaspOwn
  /-- CYCLE (R37). -/
  cycle  : Nat
  /-- DEVC1 to DEVC7 (R338). -/
  devc   : Vector Nat 7
  deriving DecidableEq, Repr

/-- The zero registers of R50. -/
def Regs.zero : Regs where
  pc := 0
  loops := []
  s := Vector.replicate 64 0
  jc := Vector.replicate 12 false
  jt := Vector.replicate 12 0
  kA := Vector.replicate 16 0
  kB := Vector.replicate 16 0
  scaleA := 0
  scaleB := 0
  stat := CoreStat.zero
  clasps := []
  cycle := 0
  devc := Vector.replicate 7 0

/-- The locket (R320) with its journal: prior contents of lines of 32 slices (key 96·cluster + line) and of buffer sectors
(key 65,536·buffer + sector), and the barriers that jobs started before the release have decremented since (R323). -/
structure Locket where
  regs      : Regs
  before    : List LoopEntry
  stepPc    : Nat
  stepMark  : Bool
  group     : Nat
  release   : Nat
  /-- Results with a smaller id were issued before the release: they land in the locket too. -/
  firstId   : Nat
  slices    : Map (List SliceLine)
  sectors   : Map (BitVec 256)
  decs      : List Nat
  /-- The data errors that a rollback to this locket has served: the repetition of one in the replay allows only Abort (R323). Every member
  of the group remembers them. -/
  lastErrs  : List DataErr
  /-- No bundle has issued since the release: CYCLE and the counters are those of the first that does (R320). -/
  awaits    : Bool
  deriving DecidableEq, Repr

/-- A copy of an overlay segment into a frame (R301): lines arrived so far. -/
structure SegCopy where
  seg     : Nat
  frame   : Nat
  arrived : Nat
  deriving DecidableEq, Repr

/-- The instruction store of a core (R14, R300, R301, R369). -/
structure IStore where
  /-- The frame of the current segment (R301). -/
  current : Nat
  /-- Segments in the two frames. -/
  frame0  : Option Nat
  frame1  : Option Nat
  /-- The copies in flight, at most one into each frame. -/
  copying : List SegCopy
  /-- Pages (4 KiB numbers) whose walk the arriving lines wait for, with the cycle of the want, and pages whose walk found no translation
  (R311, R370). -/
  waits   : List (Nat × Nat)
  noPage  : List Nat
  /-- Lines invalidated and not refetched, and lines that cannot be fetched: (line, SUB of R304). -/
  invalid : List Nat
  broken  : List (Nat × Nat)
  /-- Refetched lines, which stand in place of the image's. -/
  lines   : Map Line
  /-- The captured loop bodies (first and last bundle) of the loop buffer, the newest first (R118). -/
  captured : List (Nat × Nat)
  deriving DecidableEq, Repr

def IStore.empty : IStore := ⟨0, none, none, [], [], [], [], [], [], []⟩

/-- Debug registers of a core (R334). -/
structure Debug where
  bhit    : BitVec 4
  ben     : BitVec 4
  sstep   : Bool
  brk     : Vector (BitVec 24) 4
  /-- A pending stop request: W2 bits of R331 (bit 5 request, bit 6 trigger). -/
  req     : Nat
  /-- The index whose breakpoint match has been served: its bundle issues next without a match (R335). -/
  pass    : Option (BitVec 24)
  stepping : Bool
  deriving DecidableEq, Repr

def Debug.zero : Debug :=
  ⟨0, 0, false, Vector.replicate 4 0, 0, none, false⟩

/-- A save record (R318). -/
structure Saved where
  rpid   : Nat
  depth  : Nat
  stat   : CoreStat
  cycle  : Nat
  /-- TRIP and ITER of L0 upward (R318). -/
  levels : List (BitVec 32 × BitVec 32)
  devc   : Vector Nat 7
  /-- The clasp file: words of R126. -/
  clasps : List (Nat × BitVec 64)
  /-- Data items in ascending VID: kind, VID, payload length in bits, payload. -/
  items  : List (Nat × Nat × Nat × Nat)
  /-- The record was formed by a rollback (R378): group and release of its locket, and the errors that R323 remembers. -/
  replay : Option (Nat × Nat × List DataErr)
  deriving DecidableEq, Repr

/-- A TXINIT or TXARV that the barrier monitor applies at the end of the cycle (R229, R231): the barrier's A-buffer offset, the
value, and the bundle with its schedule cycle. -/
structure TxOp where
  off    : Nat
  val    : Word
  init   : Bool
  bundle : Nat
  sch    : Nat
  deriving DecidableEq, Repr

/-- A job's decrement in this cycle (R230); `release` is the number of releases before the job's start. -/
structure TxDec where
  off     : Nat
  release : Nat
  bundle  : Nat
  sch     : Nat
  deriving DecidableEq, Repr

/-- The jobs that have decremented a barrier and still run, and the join of the views of those that have completed (R242). -/
structure TxJobs where
  jobs : List Nat
  view : View
  deriving DecidableEq, Repr

def TxJobs.none : TxJobs := ⟨[], ⟨0, []⟩⟩

/-- The frame table of a core (R400). -/
structure FrameTable where
  epoch   : Nat
  period  : Nat
  entries : List (BitVec 128)
  /-- Argument blocks by entry: length in bytes and value (R403). -/
  args    : List (Nat × Nat)
  deriving DecidableEq, Repr

/-- A sealed record (R401): world, the generation of its key, its IV counter, the record. -/
structure Sealed where
  vf      : Nat
  world   : Nat
  keyGen  : Nat
  counter : Nat
  record  : Saved
  /-- The IV, the ciphertext with its length in bytes, and the tag. -/
  iv      : BitVec 96
  len     : Nat
  ct      : Nat
  tag     : BitVec 128
  deriving DecidableEq, Repr

/-- One core. The register file stands in `regs`; the rest is what R14, R240 and the chapters give a core beside it. -/
structure Core where
  regs    : Regs
  sliceA  : Map SliceLine
  sliceB  : Map SliceLine
  bufA    : Memory
  bufC    : Memory
  bufW    : Memory
  /-- MODE.IMODE, PREBOUND.BOUND, PARKMAP.FREE, TRAPPC, TRAPINFO, TRAPADDR, HMVER.VERSION, LATCLS (R27). -/
  imode    : Bool
  bound    : BitVec 32
  parkmap  : BitVec 16
  trappc   : Word
  trapinfo : Word
  trapaddr : Word
  hmver    : BitVec 32
  latcls   : BitVec 4
  /-- In-flight work (R42, R195, R193, R205, R216, R232, R233). -/
  results  : List Result
  tiles    : List TileLanding
  arrayFree : Nat
  mstcs    : List LateWrite
  fills    : List LateWrite
  parks    : List LateWrite
  scales   : List ScaleLoad
  rsv      : List Reservation
  csrw     : List (Nat × Word)
  /-- Landing cycles of the scalars and ready cycles of the steer targets (R113, R116); `none` is stamped in the cycle in
  which the next bundle issues. -/
  sLand    : Vector (Option Nat) 64
  jReady   : Vector (Option Nat) 12
  /-- Global memory: the view, the colour queues in program order, the performs under way, the loads (R240). -/
  view     : View
  queue    : List Entry
  performs : List PerformItem
  loads    : List Load
  tlb      : List Page
  nextId   : Nat
  /-- Transaction barriers in use (A-buffer offsets), those with an update in this cycle, the pending TXINIT or TXARV of this cycle
  (barrier, value, is TXINIT), the job decrements of this cycle, and per barrier its jobs with their views. -/
  txKnown  : List Nat
  /-- The A buffer as it stood before the `ls` store of this cycle, which the barrier monitor still reads (R229). -/
  oldA     : Option Memory
  txTouch  : List Nat
  txOp     : Option TxOp
  txDecs   : List TxDec
  txViews  : Map TxJobs
  /-- The jobs that had decremented it at the barrier's last completion (R242). -/
  txDone   : Map TxJobs
  /-- Templates (R267) and decryption keys (R404). -/
  templates : Map (BitVec 1024)
  keys     : Map (BitVec 512)
  istore   : IStore
  run      : Run
  wait     : Option Wait
  /-- The waiting bundle's index and its schedule cycle (R125, R329). -/
  waitPc   : Nat
  waitSch  : Nat
  /-- The cycles that the schedule gives it: 1, or the length of its expansion (R125, R184). -/
  waitLen  : Nat
  /-- The cycle in which the end of the wait reaches the core, once it is fixed (R124, R129). -/
  wakeAt   : Option Nat
  /-- The wait's bundle carries MARK and the stop it asks for takes effect when the wait ends (R122). -/
  waitMark : Bool
  held     : Held
  /-- The mark distance of R33. -/
  markDist : Nat
  stop     : Option StopWhy
  pend     : List PendCause
  markReq  : Option MarkReq
  /-- The loop stack and the index of the last MARK bundle or waiting bundle as they stood at its issue (R318, R320). -/
  markLoops : List LoopEntry
  markPc   : Nat
  locket   : Option Locket
  dbg      : Debug
  launch   : Option Nat
  /-- Offsets in the launch's rectangle (R154). -/
  rcol     : Nat
  rrow     : Nat
  frames   : FrameTable
  /-- The entry of the open frame, which stays open to its closing edge, also once its core has finished or is sealed (R401). -/
  frameOpen : Option Nat
  /-- Program-order number of the next store or start (R263). -/
  pos      : Nat
  /-- The DEPTH of an expansion under way: issue is free from this cycle on (R184), with the id of its result. -/
  expand   : Option (Nat × Nat)
  /-- The data errors that no rollback has served, each with the core that met it; the SOURCE and UNIT of a record name one (R323). -/
  errs     : List (Nat × DataErr)
  /-- Lanes whose stream in ERROR has just lost an access of the core: it takes DATAERR (R305, R407). -/
  lost     : List Nat
  /-- A stop that waits for the bundle boundary after an expansion (R184). -/
  stopNext : Option StopWhy
  /-- The time of the last trap stop in ns (R390). -/
  stopAt   : Nat
  /-- A bundle of the launch has issued on the core since it started (R251). -/
  begun    : Bool
  /-- CORESTAT as it stood at the issue of the bundle whose slots act now (R11, R134). -/
  issued   : Option CoreStat
  /-- The image (virtual function, handle) whose first segment stands in the store since the core's last launch retired (R298). -/
  kept     : Option (Nat × Nat)
  deriving DecidableEq, Repr

/-- A core with the values of R50 and no launch. -/
def Core.fresh : Core where
  regs := Regs.zero
  sliceA := []
  sliceB := []
  bufA := []
  bufC := []
  bufW := []
  imode := false
  bound := 0
  parkmap := 0
  trappc := 0
  trapinfo := 0
  trapaddr := 0
  hmver := 1
  latcls := 0
  results := []
  tiles := []
  arrayFree := 0
  mstcs := []
  fills := []
  parks := []
  scales := []
  rsv := []
  csrw := []
  sLand := Vector.replicate 64 none
  jReady := Vector.replicate 12 none
  view := ⟨0, []⟩
  queue := []
  performs := []
  loads := []
  tlb := []
  nextId := 0
  txKnown := []
  oldA := none
  txTouch := []
  txOp := none
  txDecs := []
  txViews := []
  txDone := []
  templates := []
  keys := []
  istore := IStore.empty
  run := .idle
  wait := none
  waitPc := 0
  waitSch := 0
  waitLen := 1
  wakeAt := none
  waitMark := false
  held := Held.zero
  markDist := 0
  stop := none
  pend := []
  markReq := none
  markLoops := []
  markPc := 0
  locket := none
  dbg := Debug.zero
  launch := none
  rcol := 0
  rrow := 0
  frames := ⟨0, 65536, [], []⟩
  frameOpen := none
  pos := 0
  expand := none
  errs := []
  lost := []
  stopNext := none
  stopAt := 0
  begun := false
  issued := none
  kept := none

/-! ## Pieces of a die -/

/-- State of an engine job (R240, R275). -/
inductive JobState where
  | waiting | running | stopped | complete
  deriving DecidableEq, Repr

/-- An engine job (R226, R247, R266). `queue` is the channel, or 16 + stack. `src` holds the buffer source sectors read so
far for the destination sector in hand, keyed by their window address div 32. -/
structure Job where
  id       : Nat
  core     : Nat
  launch   : Nat
  queue    : Nat
  template : Nat
  tpl      : BitVec 1024
  param    : Word
  bundle   : Nat
  sch      : Nat
  started  : Nat
  release  : Nat
  pos      : Nat
  view     : View
  state    : JobState
  /-- The destination sectors in the order of R269 with the bytes written, and how many have been written (R270). -/
  todo     : List (Nat × Nat)
  done     : Nat
  first    : Bool
  src      : Map (BitVec 256)
  /-- The lines of a protected source read and authenticated so far, by address div 256 (R405). -/
  lines    : Map (BitVec 2048)
  key      : BitVec 512
  /-- The earliest cycle of the next move. -/
  due      : Nat
  /-- The page whose walk the job waits for. -/
  wvpn     : Option Nat
  /-- The page whose walk for this job ended last. -/
  walked   : Option Nat
  fault    : Option TrapRec
  deriving DecidableEq, Repr

/-- A performed write of the global store (R240): its number, its physical bytes and what they held before. -/
structure WriteRec where
  t    : Nat
  old  : List (Nat × Byte)
  deriving DecidableEq, Repr

/-- A region descriptor in use (R259). -/
structure Region where
  launch : Nat
  group  : Nat
  rule   : Nat
  fmt    : Nat
  count  : Nat
  base   : Nat
  deriving DecidableEq, Repr

/-- A commons store of the current superstep (R250, R261): bytes are (offset, value, mask). -/
structure CStore where
  launch : Nat
  group  : Nat
  core   : Nat
  pos    : Nat
  sub    : Nat
  bytes  : List (Nat × Byte × Byte)
  deriving DecidableEq, Repr

/-- A core record of the hallmark (R342). -/
structure CoreRec where
  chan    : BitVec 16
  cbank   : BitVec 16
  wbank   : BitVec 32
  abank   : BitVec 32
  lat     : BitVec 4
  mx      : Bool
  clb     : Bool
  cla     : Bool
  present : Bool
  deriving DecidableEq, Repr

/-- A core with every unit in service at class 0. -/
def CoreRec.full : CoreRec := ⟨BitVec.allOnes 16, BitVec.allOnes 16, BitVec.allOnes 32, BitVec.allOnes 32, 0, true, true,
  true, true⟩

/-- A hallmark body with its signatures (R340 to R344). Core records not listed are `CoreRec.full`. -/
structure Hallmark where
  prevHash : BitVec 256
  time     : BitVec 64
  serial   : BitVec 64
  prevVer  : BitVec 32
  version  : BitVec 32
  cause    : BitVec 8
  die      : BitVec 2
  cores    : Map CoreRec
  /-- Retired HBM channels, bit 32·i + c (R343). -/
  hbm      : BitVec 64
  dlh      : BitVec 128
  dlv      : BitVec 128
  ual      : BitVec 16
  pcie     : BitVec 16
  uet      : BitVec 8
  ed       : BitVec 512
  mldsa    : BitVec 26472
  deriving DecidableEq, Repr

/-- A page walk under way (R311). -/
structure Walk where
  id   : Nat
  vf   : Nat
  vpn  : Nat
  core : Nat
  due  : Nat
  deriving DecidableEq, Repr

/-- The trace ring and triggers of a die (R332, R333). -/
structure Trace where
  tmask  : BitVec 32
  wrap   : Bool
  en     : Bool
  log2   : BitVec 5
  wp     : Nat
  drop   : Nat
  /-- The records held with the cycles in which they were written, newest first. -/
  ring   : List (Nat × Line)
  trg    : Vector Word 4
  trgr   : Vector Word 4
  deriving DecidableEq, Repr

def Trace.zero : Trace := ⟨0, false, false, 16, 0, 0, [], Vector.replicate 4 0, Vector.replicate 4 0⟩

/-- A slot of the time-triggered table (R295 to R297): `entry` is the 576-bit slot; `occ` the number of the occurrence that was
opened last plus one; `open` the launch of the open occurrence and its opening time; `saved` the launch to be resumed. -/
structure TSlot where
  entry  : BitVec 576
  next   : Nat
  opened : Option (Nat × Nat)
  saved  : Option Nat
  deriving DecidableEq, Repr

/-- The time-triggered table of a die; `shift` is the opening time the next occurrence of the period takes in place of its own. -/
structure TTable where
  epoch  : Nat
  period : Nat
  slots  : Map TSlot
  shift  : Option Nat
  deriving DecidableEq, Repr

/-- Steps 1 to 9 of a map change (R353); 0 when none is under way. `body` is the hallmark that step 1 formed and `units` the units it
takes in. -/
structure MapChange where
  step     : Nat
  body     : Option Hallmark
  units    : List UnitId
  /-- Affected images: (virtual function, handle). -/
  affected : List (Nat × Nat)
  /-- IMST of every image before the publication: (virtual function, handle, IMST) (R299). -/
  imsts    : List (Nat × Nat × Nat)
  /-- Only LAT fields change (R354). -/
  latOnly  : Bool
  began    : Nat
  deriving DecidableEq, Repr

def MapChange.none : MapChange := ⟨0, .none, [], [], [], false, 0⟩

/-- One die. -/
structure Die where
  hallmark : Hallmark
  /-- Present plane of the commons, by window offset, and the store lists (R240). -/
  commons  : Memory
  stores   : List CStore
  regions  : List Region
  jobs     : List Job
  tlb      : List Page
  walks    : List Walk
  trace    : Trace
  table    : TTable
  change   : MapChange
  /-- Queue whose launch was last started at each priority (R289). -/
  robin    : Vector Nat 4
  deriving DecidableEq, Repr

/-! ## Command processors and launches -/

/-- STATE of a queue, PAUSED apart (R383). -/
inductive QState where
  | idle | run | error
  deriving DecidableEq, Repr

/-- What the packet in hand of a queue has become. -/
inductive InHand where
  | none
  | launch (id : Nat)
  | graph (id : Nat)
  | copy (id : Nat)
  deriving DecidableEq, Repr

/-- A queue of a command processor instance (R276, R383), keyed 32·die + q. -/
structure Queue where
  vf     : Nat
  prio   : Nat
  base   : Word
  log2n  : BitVec 4
  vec    : BitVec 4
  en     : Bool
  prod   : BitVec 32
  cons   : BitVec 32
  err    : BitVec 8
  state  : QState
  hand   : InHand
  /-- The packet at CONS, once it has been read (R384), and whether its wait condition has been found to hold (R280). -/
  packet : Option Line
  ready  : Bool
  /-- The index of the packet in hand (R384). -/
  idx    : BitVec 32
  /-- The cycle from which the packet at CONS is eligible as far as is known (R298). -/
  since  : Nat
  /-- The time in ns of the last read of the wait word, and whether a retirement on the die calls for another (R280). -/
  polled : Nat
  due    : Bool
  /-- Packets forwarded by the rack scheduler: index in the ring and SEQ (R299). -/
  fwd    : List (BitVec 32 × BitVec 32 × Line)
  deriving DecidableEq, Repr

/-- Life of a launch (R280 to R290). -/
inductive LState where
  | ready | running | stopping | saved | retired
  deriving DecidableEq, Repr

/-- Shared state of a clasp (R126) with its gathering view (R240). -/
structure Clasp where
  init    : Bool
  phase   : Bool
  arrived : Nat
  count   : Nat
  gather  : View
  deriving DecidableEq, Repr

/-- Where a launch came from. -/
inductive Origin where
  | queue (die q : Nat)
  | node (inst node : Nat)
  | slot (die n : Nat)
  | world (core entry : Nat)
  deriving DecidableEq, Repr

/-- A launch. `cores` lists the mapped cores with their offsets (n, column, row). -/
structure Launch where
  vf      : Nat
  origin  : Origin
  prio    : Nat
  packet  : Line
  image   : Nat
  col0    : Nat
  row0    : Nat
  wm1     : Nat
  hm1     : Nat
  cores   : List (Nat × Nat × Nat)
  imode   : Bool
  state   : LState
  /-- Start cycle in package cycles, once started. -/
  start   : Option Nat
  began   : Nat
  /-- The cycle from which t_first counts, cycles of waiting for cores left out (R298). -/
  since   : Nat
  /-- Bound colours: (clasp, colour) (R288). -/
  binds   : List (Nat × Nat)
  clasps  : Map Clasp
  /-- Members that have arrived at the pending STEP: (group, core). -/
  arrived : List (Nat × Nat)
  /-- Releases that are due: (group, cycle) (R124). -/
  relAt   : List (Nat × Nat)
  /-- Cause code of an abort (R310). -/
  code    : Nat
  aborted : Bool
  /-- Saved records by offset 32·row + column (R318). -/
  saves   : Map Saved
  /-- The launch waits to resume, after a map change under a recompiled image (R353). -/
  evac    : Bool
  /-- The argument block read at the start: length and value (R287). -/
  args    : Nat × Nat
  deriving DecidableEq, Repr

/-- A registered graph (R292), keyed by id and version. -/
structure Graph where
  id      : Nat
  version : Nat
  vf      : Nat
  nodes   : List GraphNode
  deriving DecidableEq, Repr

/-- State of a node of an instance (R294). -/
inductive NodeState where
  | inactive | active | running (launch : Nat) | retired
  deriving DecidableEq, Repr

/-- A running graph packet (R294). -/
structure GraphRun where
  die     : Nat
  q       : Nat
  id      : Nat
  version : Nat
  packet  : Line
  nodes   : List NodeState
  rearms  : Nat
  again   : Bool
  began   : Nat
  deriving DecidableEq, Repr

/-- A copy submission under way (R279). -/
structure CopySub where
  die    : Nat
  q      : Nat
  node   : Option (Nat × Nat)
  vf     : Nat
  packet : Line
  /-- The cycle in which it ends at the earliest. -/
  due    : Nat
  deriving DecidableEq, Repr

/-! ## Images -/

/-- An item of a mark-table entry (R317). -/
structure MarkItem where
  kind : Nat
  vid  : Nat
  loc  : BitVec 64
  deriving DecidableEq, Repr

/-- A mark-table entry (R317). -/
structure MarkEntry where
  rpid   : Nat
  bundle : Nat
  depth  : Nat
  items  : List MarkItem
  deriving DecidableEq, Repr

/-- A segment-table entry (R300). -/
structure Segment where
  addr  : Word
  next  : Nat
  len   : Nat
  first : Nat
  deriving DecidableEq, Repr

/-- A loaded image (R367). -/
structure Image where
  serial  : BitVec 64
  version : BitVec 32
  entry   : Nat
  nlines  : Nat
  rectw   : Nat
  recth   : Nat
  rectc   : Nat
  rectr   : Nat
  parkmap : BitVec 16
  flen    : Nat
  code    : List Line
  pools   : List (Nat × Nat)
  bound   : BitVec 32
  marks   : List MarkEntry
  templates : Map (BitVec 1024)
  /-- Data ranges: window address, length, bytes. -/
  data    : List (Nat × Nat × Nat)
  regions : List (BitVec 64)
  /-- Step groups: g, column, row, width, height. -/
  groups  : List (Nat × Nat × Nat × Nat × Nat)
  segments : List Segment
  /-- Entry classes: (bundle, class) (R377). -/
  classes : List (Nat × Nat)
  /-- Latency assumptions by offset, row-major (R345). -/
  latency : List (BitVec 4)
  resume  : List (Nat × Nat)
  chesol  : Bool
  /-- Global address of line 0. -/
  base    : Word
  /-- The image is valid on the die: false once a map change has invalidated it (R353). -/
  valid   : Bool
  /-- Only latency classes changed since it was valid (R354). -/
  latOnly : Bool
  /-- Versions to which the image was re-stamped, as (die, version) (R345). -/
  stamps  : List (Nat × Nat)
  /-- Lines whose page has changed by a shootdown since they were loaded (R369). -/
  stale   : List Nat
  deriving DecidableEq, Repr

/-! ## Virtual functions and the host -/

/-- A host ring (R385, R386). -/
structure Ring where
  base  : Word
  log2n : BitVec 5
  vec   : BitVec 4
  en    : Bool
  prod  : BitVec 32
  cons  : BitVec 32
  drop  : Nat
  deriving DecidableEq, Repr

def Ring.zero : Ring := ⟨0, 0, 0, false, 0, 0, 0⟩

/-- An interrupt vector (R387): `oldest` is the time in ns of the oldest pending event. -/
structure Vec where
  time   : BitVec 32
  mask   : Bool
  count  : BitVec 16
  pend   : Nat
  oldest : Nat
  deriving DecidableEq, Repr

/-- A vector the plug-in has not written (R387). -/
def Vec.zero : Vec := ⟨0, true, 1, 0, 0⟩

/-- A shootdown under way (R315): range and the loads and atomics it waits for (core, id). A sector access of a job translates, reads or
writes in one move, so no job sector is in flight between two moves. -/
structure Shoot where
  base  : Nat
  len   : Nat
  loads : List (Nat × Nat)
  deriving DecidableEq, Repr

/-- A virtual function (R381). -/
structure VF where
  exists_ : Bool
  dies   : List Nat
  /-- The partition table assigns it to the second root (R409). -/
  root   : Bool
  pages  : List Page
  shoot  : Option Shoot
  images : Map Image
  fault  : Ring
  event  : Ring
  vecs   : Vector Vec 16
  notctl : Vector Word 16
  deriving DecidableEq, Repr

def VF.empty : VF :=
  ⟨false, [], false, [], none, [], Ring.zero, Ring.zero, Vector.replicate 16 Vec.zero, Vector.replicate 16 0⟩

/-! ## Management complex, streams, ports, package -/

/-- Remeasurement states (R347). -/
inductive UnitState where
  | serving | scheduled | testing | raised | failed | retired
  deriving DecidableEq, Repr

/-- What the management complex holds of a hallmark unit (R325, R347): event times in ns, newest first. -/
structure UnitRec where
  state : UnitState
  corr  : List Nat
  unc   : List Nat
  /-- The LATCLS bit that a RAISED unit raises. -/
  cls   : Nat
  since : Nat
  /-- The core claimed for the test, and the launches that stand saved for the unit (R348, R378). -/
  claimed : Bool
  evac  : List Nat
  deriving DecidableEq, Repr

def UnitRec.zero : UnitRec := ⟨.serving, [], [], 0, 0, false, []⟩

/-- States of a firmware replacement (R391). -/
inductive FwState where
  | committed | quiesce | probation
  deriving DecidableEq, Repr

/-- STATE of a stream (R407). -/
inductive StreamState where
  | active | exhausted | error
  deriving DecidableEq, Repr

/-- What a hand-over record holds of a stream (R392): key handle, whether a pending key is programmed and its handle, nonce counter, epoch,
state. -/
structure StreamHandle where
  secret     : Nat
  pend       : Bool
  pendSecret : Option Nat
  pn         : Nat
  epoch      : Nat
  state      : StreamState
  deriving DecidableEq, Repr

/-- A hand-over record (R392): the 16-byte heads of its sections in order, and what the sections 0x01 to 0x08 hold. Keys stand in it by
their handles only. -/
structure Handover where
  heads    : List (BitVec 128)
  queues   : Map Queue
  launches : Map Launch
  /-- The save-area address of each running or pre-empted launch. -/
  areas    : Map Word
  graphs   : List Graph
  runs     : Map GraphRun
  tables   : List TTable
  units    : List (UnitId × UnitRec)
  /-- The step of R353 in progress on each die. -/
  steps    : List Nat
  fabric   : Map StreamHandle
  /-- Per virtual function: fault ring, event ring, vectors, notify controls. -/
  rings    : List (Ring × Ring × Vector Vec 16 × Vector Word 16)
  deriving DecidableEq, Repr

/-- A controller's firmware (R391): 0 to 3 the command processors, 4 the scheduler, 8 + v the plug-ins. -/
structure Firmware where
  state    : FwState
  version  : Nat
  digest   : BitVec 256
  staged   : Option FwImage
  deadline : Nat
  /-- Versions refused after a roll-back. -/
  refused  : List Nat
  /-- The record from which the new image, or after a roll-back the old one, starts. -/
  record   : Option Handover
  deriving DecidableEq, Repr

/-- A controller whose first image runs. -/
def Firmware.first : Firmware := ⟨.committed, 0, 0, none, 0, [], none⟩

/-- A transmit stream (R406, R407). -/
structure Stream where
  secret : Nat
  pn     : Nat
  epoch  : Nat
  pend   : Bool
  /-- The pending key's domain secret when it is a new one (needed at EPOCH 255). -/
  pendSecret : Option Nat
  state  : StreamState
  since  : Nat
  /-- Receive side: per source, secret and epoch the highest packet number accepted and those accepted behind it. -/
  recv   : List ((Nat × Nat × Nat) × Nat × List Nat)
  deriving DecidableEq, Repr

def Stream.zero : Stream := ⟨0, 0, 0, false, none, .active, 0, []⟩

/-- PORTSTAT fields (R408). -/
structure Port where
  state : BitVec 2
  width : Nat
  insvc : Nat
  rate  : Nat
  deriving DecidableEq, Repr

/-- A certificate of a layer's two public keys with its measurement, signed in both schemes by the layer below (R397). -/
structure Cert where
  layer   : Nat
  measure : BitVec 256
  ed      : BitVec 256
  mldsa   : BitVec 15616
  sigEd   : BitVec 512
  sigMl   : BitVec 26472
  deriving DecidableEq, Repr

/-- Boot state (R396): recovery, the second root, the measurements, the secrets CDI1, CDI2 and CDI3,v, and the certificates: of layers 1
and 2, of the plug-in sets (3 + v) and of the hallmark keys (16 + die). -/
structure Boot where
  recovery   : Bool
  secondRoot : Bool
  m1   : BitVec 256
  m2   : BitVec 256
  m3   : Map (BitVec 256)
  cdi1 : BitVec 256
  cdi2 : BitVec 256
  cdi3 : Map (BitVec 256)
  certs : List Cert
  deriving DecidableEq, Repr

/-- The package time base (R295, R412): `units` counts 1/11,000,000 ns, `ppm` is the slew; whether a grandmaster is present. -/
structure TimeBase where
  units : Nat
  ppm   : Int
  gm    : Option Nat
  deriving DecidableEq, Repr

/-- PKGSTAT (R415): POWER, TIN, TJMAX, THERM. -/
structure PkgStat where
  power : BitVec 16
  tin   : BitVec 8
  tjmax : BitVec 8
  therm : BitVec 2
  deriving DecidableEq, Repr

/-- World keys and seal counters (R401): keyed 16·vf + world. -/
structure WorldKey where
  gen      : Nat
  counters : Map Nat
  deriving DecidableEq, Repr

/-- What has left the package. -/
structure Outbox where
  /-- MSI-X messages sent: (virtual function, vector, ns), newest first (R387). -/
  msix     : List (Nat × Nat × Nat)
  /-- Residency reports sent to the rack scheduler, newest first (R299). -/
  reports  : List Line
  /-- Evidence records with their two signatures, newest first (R398). -/
  evidence : List (BitVec 1024 × BitVec 512 × BitVec 26472)
  /-- Flit groups accepted: (source, packet number), newest first (R406). -/
  flits    : List (Nat × Nat)
  /-- Flit groups sealed: (stream, key, nonce), newest first (R406). -/
  sealed   : List (Nat × BitVec 256 × BitVec 96)
  /-- Streams whose exhaustion the monitor has been told of, newest first (R407). -/
  spent    : List Nat
  /-- Answers of firmware to requests it may refuse: true for done (loader, table, allocator, partition, graph), newest
  first. -/
  answers  : List Bool
  deriving DecidableEq, Repr

/-- An event that arrives from outside the cores, not before package cycle `cycle`. -/
structure Input where
  cycle : Nat
  event : Instr
  deriving DecidableEq, Repr

/-- What leaves over a host link, bytes written to host memory or an MSI-X message on a vector of a virtual function (R385, R387, R388), or
over the rack link, a residency report (R299). -/
inductive HostMsg where
  | write (addr bytes value : Nat)
  | msix (vf vec : Nat)
  | report (r : Line)
  deriving DecidableEq, Repr

/-- The whole package. -/
structure State where
  /-- The package cycle: the number of 1.1 GHz cycles since power-on (R6). -/
  now      : Nat
  time     : TimeBase
  /-- Events to be taken, in order (the model's own: what the outside world and the firmware do). -/
  inputs   : List Input
  /-- Choices that the manual leaves open, laid down for the next draws; with none left, draws are the free values of
  `Config.choice` (the model's own, log 2). -/
  delays   : List Nat
  /-- How many free values have been drawn (the model's own). -/
  drawn    : Nat
  /-- The core whose slot instruction `exec` runs (the model's own). -/
  cur      : Nat
  /-- Cores by n = 160·die + 16·(row mod 10) + column mod 16 (R7, R257); an absent key holds `Core.fresh`. -/
  cores    : Map Core
  dies     : Vector Die 4
  queues   : Map Queue
  launches : Map Launch
  graphs   : List Graph
  runs     : Map GraphRun
  copies   : Map CopySub
  nextId   : Nat
  vfs      : Vector VF 4
  /-- The global store: physical bytes (stack·2^36 + offset), the number of performed writes and their records, newest
  first (R240). -/
  mem      : Memory
  writes   : Nat
  log      : List WriteRec
  /-- Host memory. -/
  host     : Memory
  /-- Releases of step groups so far (R322). -/
  releases : Nat
  units    : List (UnitId × UnitRec)
  firmware : Map Firmware
  streams  : Map Stream
  ports    : Map Port
  /-- Traffic that waits for a port to train, in order, with its port: what comes in, and what leaves for the host or, at 24, the rack
  (R410). -/
  portIn   : List (Nat × Instr)
  portOut  : List (Nat × HostMsg)
  boot     : Boot
  pkg      : PkgStat
  worlds   : Map WorldKey
  seals    : List (Nat × Sealed)
  out      : Outbox
  deriving DecidableEq, Repr

/-- Why a step stops with a fault. No rule of this manual leaves a bundle or an event without an effect, so `exec` raises
none; the names are kept for a reader of the interface. -/
inductive Fault where
  /-- Raised by nobody. Safe: a step that stopped here would prove nothing about the part. -/
  | stuck
  deriving DecidableEq, Repr

/-- Why a step has no meaning. -/
inductive Refusal where
  /-- An instruction without a meaning in this model, by its mnemonic; raised by exec alone. Safe: the run stops. -/
  | notModelled (mnemonic : String)
  deriving DecidableEq, Repr

/-! ## Reset -/

/-- The hallmark of die d at power-on: version 1, every unit in service at class 0 (log 5). -/
def Hallmark.first (d : Nat) : Hallmark where
  prevHash := 0
  time := 0
  serial := BitVec.ofNat 64 (d + 1)
  prevVer := 0
  version := 1
  cause := 1
  die := BitVec.ofNat 2 d
  cores := []
  hbm := 0
  dlh := BitVec.allOnes 128
  dlv := BitVec.allOnes 128
  ual := BitVec.allOnes 16
  pcie := if d = 0 ∨ d = 3 then BitVec.allOnes 16 else 0
  uet := if d = 1 ∨ d = 2 then BitVec.allOnes 8 else 0
  ed := 0
  mldsa := 0

/-- A die at power-on. -/
def Die.first (d : Nat) : Die where
  hallmark := Hallmark.first d
  commons := []
  stores := []
  regions := []
  jobs := []
  tlb := []
  walks := []
  trace := Trace.zero
  table := ⟨0, 1000, [], none⟩
  change := MapChange.none
  robin := Vector.replicate 4 0

/-- The package at power-on (R51): every core idle with the values of R50 and an empty image, no queue, no launch, no
virtual function, the boot of R396 not yet made. -/
def State.reset : State where
  now := 0
  time := ⟨0, 0, none⟩
  inputs := []
  delays := []
  drawn := 0
  cur := 0
  cores := []
  dies := #v[Die.first 0, Die.first 1, Die.first 2, Die.first 3]
  queues := []
  launches := []
  graphs := []
  runs := []
  copies := []
  nextId := 1
  vfs := Vector.replicate 4 VF.empty
  mem := []
  writes := 0
  log := []
  host := []
  releases := 0
  units := []
  firmware := []
  streams := []
  ports := []
  portIn := []
  portOut := []
  boot := ⟨true, false, 0, 0, [], 0, 0, [], []⟩
  pkg := ⟨0, 0, 0, 0⟩
  worlds := []
  seals := []
  out := ⟨[], [], [], [], [], [], []⟩

end Sys2Proof.Machine
end

