-- ==== Sys2Proof/Machine/Mem.lean ====
section
/-! DEFINITION. Byte memories: reads and writes of one byte and of little-endian byte strings (R5, R92). -/

namespace Sys2Proof.Machine

/-- One byte; an unlisted byte reads as 0. -/
def Memory.read (m : Memory) (a : Nat) : Byte := getD 0 m a

/-- The n bytes from a on, as a little-endian number. -/
def Memory.readN (m : Memory) (a n : Nat) : Nat :=
  (m.filter (fun c => decide (a ≤ c.1) && decide (c.1 < a + n))).foldl
    (fun acc c => acc + c.2.toNat * 2 ^ (8 * (c.1 - a))) 0

/-- The cells of the n low bytes of v placed from a on, zero bytes left out. -/
def cellsOf : Nat → Nat → Nat → Memory
  | _, 0, _ => []
  | a, n + 1, v =>
    if v % 256 = 0 then cellsOf (a + 1) n (v / 256)
    else (a, BitVec.ofNat 8 v) :: cellsOf (a + 1) n (v / 256)

/-- Writes the n low bytes of v from a on; every other byte keeps its value. -/
def Memory.writeN (m : Memory) (a n v : Nat) : Memory :=
  m.filter (fun c => decide (c.1 < a)) ++ cellsOf a n v ++ m.filter (fun c => decide (a + n ≤ c.1))

/-- Writes one byte. -/
def Memory.write (m : Memory) (a : Nat) (b : Byte) : Memory := m.writeN a 1 b.toNat

/-- Merges the bits of v selected by the mask into old. -/
def mergeBits (old v msk : Nat) : Nat := old ^^^ ((old ^^^ v) &&& msk)

/-- Writes the bits of v selected by the mask in the n bytes from a on (R220). -/
def Memory.writeBits (m : Memory) (a n v msk : Nat) : Memory := m.writeN a n (mergeBits (m.readN a n) v msk)

/-- Writes scattered bytes (address, value, mask) in order. -/
def Memory.writeCells (m : Memory) (l : List (Nat × Byte × Byte)) : Memory :=
  l.foldl (fun m e => m.write e.1 (BitVec.ofNat 8 (mergeBits (m.read e.1).toNat e.2.1.toNat e.2.2.toNat))) m

/-- The canonical form: addresses strictly rising, no listed zero. -/
def Memory.wf : Memory → Bool
  | [] => true
  | [c] => c.2 != 0
  | c :: d :: r => c.2 != 0 && decide (c.1 < d.1) && Memory.wf (d :: r)

/-- A strided run of slices: the four bits of lane l in each of the lines, the first line lowest (R9, R19). -/
def laneOf (lines : List SliceLine) (l : Nat) : Nat :=
  packBits 4 (lines.map (fun x => x.toNat / 2 ^ (4 * l) % 16))

/-- The w lines that hold the given lane values, lane 0 first. -/
def linesOf (w : Nat) (vals : List Nat) : List SliceLine :=
  (List.range w).map (fun i => BitVec.ofNat 1024 (packBits 4 (vals.map (fun v => v / 2 ^ (4 * i) % 16))))

/-- Fills the four bits of each lane set in a half (R23). -/
def laneMask4 (en : LaneMask) : Nat :=
  packBits 4 ((List.range 256).map (fun l => if en.getLsbD l then 15 else 0))

/-- A line of the slice file with the enabled lanes replaced (R23). -/
def mergeLine (old new : SliceLine) (en : LaneMask) : SliceLine :=
  BitVec.ofNat 1024 (mergeBits old.toNat new.toNat (laneMask4 en))

/-- Lanes 0 to 255. -/
def allLanes : List Nat := List.range 256

end Sys2Proof.Machine
end

