-- ==== Sys2Proof/Machine/Operands.lean ====
section
/-! DEFINITION. Operand forms: the locations an instruction reads and writes (R42, R73), its reads of the slice file (R75),
the placement rules widen and fit (R93, R94), the address map (R206) and the pieces of an `ls` access (R207, R219). -/

namespace Sys2Proof.Machine

/-! ## Locations -/

/-- The cluster of a vector slot: true for B (R21). -/
def clusterOf : VectorSlot → Bool
  | .va => false
  | .vb => true

/-- The slices of an operand (R22). -/
def sliceLoc (cl : Bool) (o : SliceOp) : LocRange :=
  ⟨if cl then .sliceB else .sliceA, o.start.toNat, o.wm1.toNat + 1⟩

/-- A scalar; s0 is no location (R24). -/
def scalarLoc (r : BitVec 6) : List LocRange := if r = 0 then [] else [⟨.scalar, r.toNat, 1⟩]

/-- A mask half; k0 is no location (R26). -/
def maskLoc (cl : Bool) (k : Nat) : List LocRange := if k = 0 then [] else [⟨if cl then .maskB else .maskA, k, 1⟩]

def condLoc (j : Nat) : LocRange := ⟨.cond, j, 1⟩

def targetLoc (j : Nat) : LocRange := ⟨.target, j, 1⟩

/-- Two runs share a location. -/
def LocRange.meets (a b : LocRange) : Bool :=
  a.kind == b.kind && decide (a.lo < b.lo + b.n) && decide (b.lo < a.lo + a.n)

/-- Two lists of runs share a location. -/
def locsMeet (a b : List LocRange) : Bool := a.any (fun x => b.any (fun y => x.meets y))

/-- The locations of a result's value. -/
def ResVal.locs : ResVal → List LocRange
  | .scalar d _ => if d = 0 then [] else [⟨.scalar, d, 1⟩]
  | .cond j _ => [condLoc j]
  | .target j _ => [targetLoc j]
  | .mask cl k _ _ => maskLoc cl k
  | .slices cl start _ lines => [⟨if cl then .sliceB else .sliceA, start, lines.length⟩]
  | .nothing => []

/-- The source locations of an instruction (R42, condition 1). -/
def sourcesOf (i : Instr) : List LocRange :=
  match i with
  | .br j | .brn j => [condLoc j.toNat, targetLoc j.toNat]
  | .calli x _ | .loop x _ | .bari _ x | .txwait x _ | .csrw _ x => scalarLoc x
  | .ret => scalarLoc 63
  | .add _ _ x y | .sub _ _ x y | .mul _ _ x y | .mulh _ _ x y | .mulhu _ _ x y | .div _ _ x y | .divu _ _ x y
  | .rem _ _ x y | .remu _ _ x y | .min _ _ x y | .max _ _ x y | .minu _ _ x y | .maxu _ _ x y | .and _ _ x y
  | .or _ _ x y | .xor _ _ x y | .shl _ _ x y | .shr _ _ x y | .sra _ _ x y | .ceq _ _ x y | .cne _ _ x y
  | .clt _ _ x y | .cltu _ _ x y | .agen _ _ x y _ => scalarLoc x ++ scalarLoc y
  | .addi _ _ x _ | .andi _ _ x _ | .ori _ _ x _ | .xori _ _ x _ | .ceqi _ _ x _ | .clti _ _ x _ => scalarLoc x
  | .shli _ _ x _ | .shri _ _ x _ | .srai _ _ x _ => scalarLoc x
  | .clz _ _ x | .ctz _ _ x | .popc _ _ x => scalarLoc x
  | .sel _ _ x y z => scalarLoc x ++ scalarLoc y ++ [condLoc z.toNat]
  | .rdjt _ _ x => [targetLoc x.toNat]
  | .vfma u _ k _ d x y | .vfms u _ k _ d x y =>
    [sliceLoc (clusterOf u) d, sliceLoc (clusterOf u) x, sliceLoc (clusterOf u) y] ++ maskLoc (clusterOf u) k.toNat
  | .vadd u _ k _ _ x y | .vsub u _ k _ _ x y | .vmul u _ k _ _ x y =>
    [sliceLoc (clusterOf u) x, sliceLoc (clusterOf u) y] ++ maskLoc (clusterOf u) k.toNat
  | .vmin u _ k _ x y | .vmax u _ k _ x y | .vand u _ k _ x y | .vor u _ k _ x y | .vxor u _ k _ x y
  | .vshl u _ k _ x y | .vshr u _ k _ x y | .vsra u _ k _ x y | .vsel u _ k _ x y | .vperm u _ k _ x y =>
    [sliceLoc (clusterOf u) x, sliceLoc (clusterOf u) y] ++ maskLoc (clusterOf u) k.toNat
  | .vceq u _ k _ x y | .vcne u _ k _ x y | .vclt u _ k _ x y | .vcle u _ k _ x y =>
    [sliceLoc (clusterOf u) x, sliceLoc (clusterOf u) y] ++ maskLoc (clusterOf u) k.toNat
  | .vabs u _ k _ _ x | .vneg u _ k _ _ x | .vmov u _ k _ _ x | .vredadd u _ k _ _ x =>
    sliceLoc (clusterOf u) x :: maskLoc (clusterOf u) k.toNat
  | .vaddi u _ k _ _ x _ | .vmuli u _ k _ _ x _ => sliceLoc (clusterOf u) x :: maskLoc (clusterOf u) k.toNat
  | .vnot u _ k _ x | .vclz u _ k _ x | .vpop u _ k _ x | .vredmax u _ k _ x | .vredmin u _ k _ x
  | .vsumx u _ k _ x => sliceLoc (clusterOf u) x :: maskLoc (clusterOf u) k.toNat
  | .vshli u _ k _ x _ | .vshri u _ k _ x _ | .vsrai u _ k _ x _ => sliceLoc (clusterOf u) x :: maskLoc (clusterOf u) k.toNat
  | .vrot u _ k _ x _ => sliceLoc (clusterOf u) x :: maskLoc (clusterOf u) k.toNat
  | .vcvt u _ k _ _ x _ => sliceLoc (clusterOf u) x :: maskLoc (clusterOf u) k.toNat
  | .vpack u _ k _ _ x _ => sliceLoc (clusterOf u) x :: maskLoc (clusterOf u) k.toNat
  | .vunpk u _ k _ x _ => sliceLoc (clusterOf u) x :: maskLoc (clusterOf u) k.toNat
  | .vbri u _ k _ _ | .vlane u _ k _ => maskLoc (clusterOf u) k.toNat
  | .vsplat u _ k _ y => scalarLoc y ++ maskLoc (clusterOf u) k.toNat
  | .vcmpu u k _ m => maskLoc (clusterOf u) m.toNat ++ maskLoc (clusterOf u) k.toNat
  | .kand u _ x y | .kor u _ x y | .kxor u _ x y | .kandn u _ x y =>
    maskLoc (clusterOf u) x.toNat ++ maskLoc (clusterOf u) y.toNat
  | .knot u _ x => maskLoc (clusterOf u) x.toNat
  | .xmov u k _ x => sliceLoc (clusterOf u) x :: maskLoc (!clusterOf u) k.toNat
  | .vdiv _ k _ x y => [sliceLoc true x, sliceLoc true y] ++ maskLoc true k.toNat
  | .vsqrt _ k _ x | .vrcp _ k _ x | .vrsq _ k _ x | .vexp2 _ k _ x | .vlog2 _ k _ x | .vrcpl _ k _ x =>
    sliceLoc true x :: maskLoc true k.toNat
  | .mldc _ _ cl o | .mbias _ _ cl o => [sliceLoc cl o]
  | .lds b _ _ _ _ => scalarLoc b
  | .sts _ b d _ _ => scalarLoc b ++ scalarLoc d
  | .ldv b k _ cl _ | .ldvb b k _ cl _ => scalarLoc b ++ maskLoc cl k.toNat
  | .stv _ b k _ cl o => sliceLoc cl o :: (scalarLoc b ++ maskLoc cl k.toNat)
  | .ldvs b g k _ cl _ => scalarLoc b ++ scalarLoc g ++ maskLoc cl k.toNat
  | .stvs _ b g k _ cl o => sliceLoc cl o :: (scalarLoc b ++ scalarLoc g ++ maskLoc cl k.toNat)
  | .ldvx b k x cl _ => sliceLoc cl x :: (scalarLoc b ++ maskLoc cl k.toNat)
  | .stvx _ b k x cl o => sliceLoc cl o :: sliceLoc cl x :: (scalarLoc b ++ maskLoc cl k.toNat)
  | .ldk b k _ cl _ => scalarLoc b ++ maskLoc cl k.toNat
  | .stk _ b k _ cl m => scalarLoc b ++ maskLoc cl k.toNat ++ maskLoc cl m.toNat
  | .atadd _ b d _ _ | .atmin _ b d _ _ | .atmax _ b d _ _ | .atminu _ b d _ _ | .atmaxu _ b d _ _ | .atand _ b d _ _
  | .ator _ b d _ _ | .atxch _ b d _ _ => scalarLoc b ++ scalarLoc d
  | .atcas _ b d c _ _ => scalarLoc b ++ scalarLoc d ++ scalarLoc c
  | .pref b _ => scalarLoc b
  | .txinit b d _ | .txarv b d _ => scalarLoc b ++ scalarLoc d
  | .fill x _ _ => scalarLoc x
  | .park _ cl o => [sliceLoc cl o]
  | _ => []

/-- The write set of an instruction (R73). -/
def destsOf (i : Instr) : List LocRange :=
  match i with
  | .prep j _ => [targetLoc j.toNat]
  | .call _ | .calli _ _ => scalarLoc 63
  | .csrr d _ => scalarLoc d
  | .add _ d _ _ | .sub _ d _ _ | .mul _ d _ _ | .mulh _ d _ _ | .mulhu _ d _ _ | .div _ d _ _ | .divu _ d _ _
  | .rem _ d _ _ | .remu _ d _ _ | .min _ d _ _ | .max _ d _ _ | .minu _ d _ _ | .maxu _ d _ _ | .and _ d _ _
  | .or _ d _ _ | .xor _ d _ _ | .shl _ d _ _ | .shr _ d _ _ | .sra _ d _ _ | .agen _ d _ _ _ | .sel _ d _ _ _ =>
    scalarLoc d
  | .addi _ d _ _ | .andi _ d _ _ | .ori _ d _ _ | .xori _ d _ _ => scalarLoc d
  | .shli _ d _ _ | .shri _ d _ _ | .srai _ d _ _ => scalarLoc d
  | .movi _ d _ | .movih _ d _ => scalarLoc d
  | .clz _ d _ | .ctz _ d _ | .popc _ d _ | .rdli _ d _ => scalarLoc d
  | .rdjt _ d _ | .rdxy _ d => scalarLoc d
  | .ceq _ d _ _ | .cne _ d _ _ | .clt _ d _ _ | .cltu _ d _ _ | .ceqi _ d _ _ | .clti _ d _ _ => [condLoc d.toNat]
  | .vadd u _ _ _ d _ _ | .vsub u _ _ _ d _ _ | .vmul u _ _ _ d _ _ | .vfma u _ _ _ d _ _ | .vfms u _ _ _ d _ _ =>
    [sliceLoc (clusterOf u) d]
  | .vmin u _ _ d _ _ | .vmax u _ _ d _ _ | .vand u _ _ d _ _ | .vor u _ _ d _ _ | .vxor u _ _ d _ _
  | .vshl u _ _ d _ _ | .vshr u _ _ d _ _ | .vsra u _ _ d _ _ | .vsel u _ _ d _ _ | .vperm u _ _ d _ _ =>
    [sliceLoc (clusterOf u) d]
  | .vabs u _ _ _ d _ | .vneg u _ _ _ d _ | .vmov u _ _ _ d _ | .vredadd u _ _ _ d _ => [sliceLoc (clusterOf u) d]
  | .vaddi u _ _ _ d _ _ | .vmuli u _ _ _ d _ _ => [sliceLoc (clusterOf u) d]
  | .vnot u _ _ d _ | .vclz u _ _ d _ | .vpop u _ _ d _ | .vredmax u _ _ d _ | .vredmin u _ _ d _
  | .vsumx u _ _ d _ => [sliceLoc (clusterOf u) d]
  | .vshli u _ _ d _ _ | .vshri u _ _ d _ _ | .vsrai u _ _ d _ _ => [sliceLoc (clusterOf u) d]
  | .vrot u _ _ d _ _ => [sliceLoc (clusterOf u) d]
  | .vcvt u _ _ _ d _ _ => [sliceLoc (clusterOf u) d]
  | .vpack u _ _ _ d _ _ => [sliceLoc (clusterOf u) d]
  | .vunpk u _ _ d _ _ => [sliceLoc (clusterOf u) d]
  | .vbri u _ _ d _ => [sliceLoc (clusterOf u) d]
  | .vsplat u _ _ d _ => [sliceLoc (clusterOf u) d]
  | .vlane u _ _ d => [sliceLoc (clusterOf u) d]
  | .vceq u _ _ m _ _ | .vcne u _ _ m _ _ | .vclt u _ _ m _ _ | .vcle u _ _ m _ _ => maskLoc (clusterOf u) m.toNat
  | .vcmpu _ _ j _ => [condLoc j.toNat]
  | .kand u d _ _ | .kor u d _ _ | .kxor u d _ _ | .kandn u d _ _ => maskLoc (clusterOf u) d.toNat
  | .knot u d _ => maskLoc (clusterOf u) d.toNat
  | .xmov u _ d _ => [sliceLoc (!clusterOf u) d]
  | .vdiv _ _ d _ _ => [sliceLoc true d]
  | .vsqrt _ _ d _ | .vrcp _ _ d _ | .vrsq _ _ d _ | .vexp2 _ _ d _ | .vlog2 _ _ d _ | .vrcpl _ _ d _ =>
    [sliceLoc true d]
  | .mcvt _ _ cl o => [sliceLoc cl o]
  | .lds _ d _ _ _ => scalarLoc d
  | .ldv _ _ _ cl d | .ldvb _ _ _ cl d => [sliceLoc cl d]
  | .ldvs _ _ _ _ cl d => [sliceLoc cl d]
  | .ldvx _ _ _ cl d => [sliceLoc cl d]
  | .ldk _ _ _ cl m => maskLoc cl m.toNat
  | .atadd _ _ d _ _ | .atmin _ _ d _ _ | .atmax _ _ d _ _ | .atminu _ _ d _ _ | .atmaxu _ _ d _ _ | .atand _ _ d _ _
  | .ator _ _ d _ _ | .atxch _ _ d _ _ => scalarLoc d
  | .atcas _ _ d _ _ _ => scalarLoc d
  | .unpk _ cl d => [sliceLoc cl d]
  | _ => []

/-- The slice-operand reads that count under R75, by cluster. -/
def cReads (i : Instr) : List Bool :=
  match i with
  | .vfma u .. | .vfms u .. => [clusterOf u, clusterOf u, clusterOf u]
  | .vadd u .. | .vsub u .. | .vmul u .. | .vmin u .. | .vmax u .. | .vand u .. | .vor u .. | .vxor u .. | .vshl u ..
  | .vshr u .. | .vsra u .. | .vsel u .. | .vperm u .. | .vceq u .. | .vcne u .. | .vclt u .. | .vcle u .. =>
    [clusterOf u, clusterOf u]
  | .vabs u .. | .vneg u .. | .vmov u .. | .vredadd u .. | .vaddi u .. | .vmuli u .. | .vnot u .. | .vclz u .. | .vpop u ..
  | .vredmax u .. | .vredmin u .. | .vsumx u .. | .vshli u .. | .vshri u .. | .vsrai u .. | .vrot u .. | .vcvt u ..
  | .vpack u .. | .vunpk u .. | .xmov u .. => [clusterOf u]
  | .vdiv .. => [true, true]
  | .vsqrt .. | .vrcp .. | .vrsq .. | .vexp2 .. | .vlog2 .. | .vrcpl .. => [true]
  | .mldc _ _ cl _ | .mbias _ _ cl _ => [cl]
  | .stv _ _ _ _ cl _ => [cl]
  | .stvs _ _ _ _ _ cl _ => [cl]
  | .ldvx _ _ _ cl _ => [cl]
  | .stvx _ _ _ _ cl _ => [cl, cl]
  | .park _ cl _ => [cl]
  | _ => []

/-! ## Placement -/

/-- widen(v, T) of R93, as the pattern of T's n bits. -/
def widen (t : NumFmt) (w v : Nat) : Nat :=
  match t with
  | .int true n => if 4 * w < n then toPattern n (toSigned (4 * w) v) else v % 2 ^ n
  | .int false n => v % 2 ^ n
  | .flt f => v % 2 ^ f.width

/-- The value of a source operand of T (R156). -/
def widenVal (t : NumFmt) (w v : Nat) : Val := t.value (widen t w v)

/-- fit of an exact integer into w slices (R94). -/
def fitInt (signed : Bool) (n w : Nat) (sat : Bool) (x : Int) : Nat :=
  if sat then
    if n ≤ 4 * w then toPattern (4 * w) (satInt signed n x) else toPattern (4 * w) (satInt signed (4 * w) x)
  else
    if n ≤ 4 * w then toPattern (4 * w) (wrapInt signed n x) else toPattern (4 * w) x

/-- fit(x, T, w, S) (R94). -/
def fit (t : NumFmt) (w : Nat) (sat : Bool) (x : Conv) : Nat :=
  match x, t with
  | .int v, .int s n => fitInt s n w sat v
  | .int v, .flt _ => toPattern (4 * w) v
  | .pat p, _ => p % 2 ^ (4 * w)

/-- A pattern of T as a value to place. -/
def patConv (t : NumFmt) (p : Nat) : Conv :=
  match t with
  | .int s n => .int (if s then toSigned n p else ((p % 2 ^ n : Nat) : Int))
  | .flt f => .pat (p % 2 ^ f.width)

/-! ## The address map -/

/-- The windows of R206. -/
inductive Win where
  | global | a | c | w | commons | copyAp | bankAp | csr
  deriving DecidableEq, Repr

def aBase : Nat := 0x7F00000000000000
def cBase : Nat := 0x7F00000000100000
def wBase : Nat := 0x7F00000000200000
def commonsBase : Nat := 0x7F00000100000000
def copyBase : Nat := 0x7F00000200000000
def bankBase : Nat := 0x7F00000200040000
def csrBase : Nat := 0x7F00000300000000

/-- The window of a byte address; `none` is unmapped. P is the number of present cores of the die (R257). -/
def winOf (present a : Nat) : Option Win :=
  if a < 2 ^ 52 then some .global
  else if aBase ≤ a ∧ a < aBase + 0x80000 then some .a
  else if cBase ≤ a ∧ a < cBase + 0x80000 then some .c
  else if wBase ≤ a ∧ a < wBase + 0x100000 then some .w
  else if commonsBase ≤ a ∧ a < commonsBase + 262144 * present then some .commons
  else if copyBase ≤ a ∧ a < copyBase + 0x10000 then some .copyAp
  else if bankBase ≤ a ∧ a < bankBase + 0x8000 then some .bankAp
  else if csrBase ≤ a ∧ a < csrBase + 0x8000 then some .csr
  else none

/-- The first byte of a window. -/
def Win.base : Win → Nat
  | .global => 0
  | .a => aBase
  | .c => cBase
  | .w => wBase
  | .commons => commonsBase
  | .copyAp => copyBase
  | .bankAp => bankBase
  | .csr => csrBase

/-- (b + sext(off)) mod 2^64 (R207). -/
def effAddr {n : Nat} (b : Word) (off : BitVec n) : Nat := (b + off.signExtend 64).toNat

/-! ## Pieces of an access -/

/-- A run of bytes that a lane reaches; a store's piece holds the bits it writes (R219, R220). -/
structure Piece where
  lane : Nat
  addr : Nat
  len  : Nat
  val  : Nat
  mask : Nat
  deriving DecidableEq, Repr

/-- The piece of lane l in a contiguous access of w slices at ea (R219). -/
def contiguousPiece (ea w l v : Nat) : Piece :=
  let b := 4 * w * l
  let sh := b % 8
  ⟨l, (ea + b / 8) % 2 ^ 64, (sh + 4 * w + 7) / 8, v % 2 ^ (4 * w) * 2 ^ sh, (2 ^ (4 * w) - 1) * 2 ^ sh⟩

/-- The piece of a lane with an address of its own: ceil(w/2) bytes, a store zero-extended (R219). -/
def lanePiece (addr w l v : Nat) : Piece :=
  let n := (w + 1) / 2
  ⟨l, addr % 2 ^ 64, n, v % 2 ^ (4 * w), 2 ^ (8 * n) - 1⟩

/-- The enabled lanes, ascending. -/
def enabled (en : LaneMask) : List Nat := allLanes.filter (fun l => en.getLsbD l)

/-- The lines that a load's destination takes, and its value, from a reader of little-endian bytes (R218 to R223). -/
def LoadDest.result (d : LoadDest) (rd : Nat → Nat → Nat) : ResVal :=
  match d with
  | .scalar r n sgn a =>
    let v := rd a n
    .scalar r (BitVec.ofInt 64 (if sgn then toSigned (8 * n) v else (v : Int)))
  | .contiguous cl start w en a =>
    let vals := allLanes.map (fun l =>
      if en.getLsbD l then
        let p := contiguousPiece a w l 0
        rd p.addr p.len / 2 ^ (4 * w * l % 8) % 2 ^ (4 * w)
      else 0)
    .slices cl start en (linesOf w vals)
  | .lanes cl start w en addrs =>
    let vals := allLanes.map (fun l =>
      if en.getLsbD l then rd (nth 0 addrs l) ((w + 1) / 2) % 2 ^ (4 * w) else 0)
    .slices cl start en (linesOf w vals)
  | .broadcast cl start w en a =>
    let v := if en = 0 then 0 else rd a ((w + 1) / 2) % 2 ^ (4 * w)
    .slices cl start en (linesOf w (allLanes.map (fun _ => v)))
  | .maskHalf cl k en a => .mask cl k (if en = 0 then 0 else BitVec.ofNat 256 (rd a 32)) en

/-- The pieces that a load reads. -/
def LoadDest.pieces (d : LoadDest) : List Piece :=
  match d with
  | .scalar _ n _ a => [⟨0, a, n, 0, 0⟩]
  | .contiguous _ _ w en a => (enabled en).map (fun l => contiguousPiece a w l 0)
  | .lanes _ _ w en addrs => (enabled en).map (fun l => lanePiece (nth 0 addrs l) w l 0)
  | .broadcast _ _ w en a => match enabled en with
    | [] => []
    | l :: _ => [lanePiece a w l 0]
  | .maskHalf _ _ en a => match enabled en with
    | [] => []
    | l :: _ => [⟨l, a, 32, 0, 0⟩]

/-- The lanes are judged one by one (strided and indexed accesses), not as a whole (R209, R210). -/
def LoadDest.byLane : LoadDest → Bool
  | .lanes .. => true
  | _ => false

/-- The locations a load writes, whatever its mask (R23). -/
def LoadDest.locs : LoadDest → List LocRange
  | .scalar d _ _ _ => if d = 0 then [] else [⟨.scalar, d, 1⟩]
  | .contiguous cl start w _ _ | .lanes cl start w _ _ | .broadcast cl start w _ _ =>
    [⟨if cl then .sliceB else .sliceA, start, w⟩]
  | .maskHalf cl k _ _ => maskLoc cl k

end Sys2Proof.Machine
end

