-- ==== Sys2Proof/Machine/Access.lean ====
section
/-! DEFINITION. Accessors of State: cores, dies, queues, launches, positions in the mesh (R7, R257), the time base, and the
choices drawn where the manual fixes no time. -/

namespace Sys2Proof.Machine

/-- Element i of a vector, or a default. -/
def vget {α : Type} {n : Nat} (v : Vector α n) (i : Nat) (d : α) : α := if h : i < n then v[i] else d

/-- Replaces element i of a vector; nothing when out of range. -/
def vset {α : Type} {n : Nat} (v : Vector α n) (i : Nat) (a : α) : Vector α n := v.setIfInBounds i a

/-! ## Positions -/

/-- Die of core n. -/
def dieOf (n : Nat) : Nat := n / 160

/-- 16·(row mod 10) + (column mod 16) of core n (R257, R340). -/
def localOf (n : Nat) : Nat := n % 160

/-- Package column and row of core n (R7). -/
def colOf (n : Nat) : Nat := 16 * (dieOf n % 2) + localOf n % 16

def rowOf (n : Nat) : Nat := 10 * (dieOf n / 2) + localOf n / 16

/-- The core at a package position (R7). -/
def coreAt (col row : Nat) : Nat := 160 * (2 * (row / 10) + col / 16) + 16 * (row % 10) + col % 16

/-- COREXY[17:0] (R36). -/
def corexy (n : Nat) : Nat := dieOf n * 2 ^ 16 + rowOf n * 2 ^ 8 + colOf n

/-- The distance of two numbers. -/
def absDiff (a b : Nat) : Nat := (a - b) + (b - a)

/-! ## Records of State -/

def State.core (s : State) (n : Nat) : Core := getD Core.fresh s.cores n

def State.setCore (s : State) (n : Nat) (c : Core) : State := { s with cores := put s.cores n c }

def State.updCore (s : State) (n : Nat) (f : Core → Core) : State := s.setCore n (f (s.core n))

def State.die (s : State) (d : Nat) : Die := vget s.dies d (Die.first d)

def State.setDie (s : State) (d : Nat) (x : Die) : State := { s with dies := vset s.dies d x }

def State.updDie (s : State) (d : Nat) (f : Die → Die) : State := s.setDie d (f (s.die d))

def State.vf (s : State) (v : Nat) : VF := vget s.vfs v VF.empty

def State.setVf (s : State) (v : Nat) (x : VF) : State := { s with vfs := vset s.vfs v x }

def State.updVf (s : State) (v : Nat) (f : VF → VF) : State := s.setVf v (f (s.vf v))

def State.launch? (s : State) (l : Nat) : Option Launch := find? s.launches l

def State.setLaunch (s : State) (l : Nat) (x : Launch) : State := { s with launches := put s.launches l x }

def State.updLaunch (s : State) (l : Nat) (f : Launch → Launch) : State :=
  match s.launch? l with
  | some x => s.setLaunch l (f x)
  | none => s

/-- The launch that core n runs, with its number. -/
def State.launchOf (s : State) (n : Nat) : Option (Nat × Launch) :=
  match (s.core n).launch with
  | some l => (s.launch? l).map (fun x => (l, x))
  | none => none

/-- The image of a virtual function. -/
def State.image? (s : State) (v h : Nat) : Option Image := find? (s.vf v).images h

/-- The image that core n runs. -/
def State.imageOf (s : State) (n : Nat) : Option Image :=
  match s.launchOf n with
  | some (_, l) => s.image? l.vf l.image
  | none => none

/-- The virtual function whose launch core n runs; 0 without one. -/
def State.vfOf (s : State) (n : Nat) : Nat :=
  match s.launchOf n with
  | some (_, l) => l.vf
  | none => 0

/-- A number never given before. -/
def State.fresh (s : State) : Nat × State := (s.nextId, { s with nextId := s.nextId + 1 })

/-- Draws the next choice: one laid down in `delays`, else the next free value (log 2). -/
def State.draw (s : State) : Nat × State :=
  match s.delays with
  | [] => (Config.choice s.drawn, { s with drawn := s.drawn + 1 })
  | d :: r => (d, { s with delays := r })

/-- The package time base in ns (R295). -/
def State.ns (s : State) : Nat := s.time.units / 11000000

/-! ## The hallmark and the commons -/

/-- The record of the core with local number i (R342). -/
def Hallmark.coreRec (h : Hallmark) (i : Nat) : CoreRec := getD CoreRec.full h.cores i

/-- The present cores in ascending order (R257). -/
def Hallmark.presentList (h : Hallmark) : List Nat := (List.range 160).filter (fun i => (h.coreRec i).present)

/-- NPRESENT (R341). -/
def Hallmark.npresent (h : Hallmark) : Nat := if h.cores.isEmpty then 160 else h.presentList.length

/-- The record of core n. -/
def State.recOf (s : State) (n : Nat) : CoreRec := (s.die (dieOf n)).hallmark.coreRec (localOf n)

/-- Whether core n is present. -/
def State.present (s : State) (n : Nat) : Bool := (s.recOf n).present

/-- Local number of the core that hosts a commons granule (R257). -/
def Hallmark.host (h : Hallmark) (granule : Nat) : Nat :=
  if h.cores.isEmpty then granule % 160 else nth 0 h.presentList (granule % h.npresent)

/-- Mesh hops between two cores of a die, by local number (R258). -/
def hops (i j : Nat) : Nat := absDiff (i % 16) (j % 16) + absDiff (i / 16) (j / 16)

/-- The window of a byte address as core n sees it. -/
def State.win (s : State) (n a : Nat) : Option Win := winOf (s.die (dieOf n)).hallmark.npresent a

end Sys2Proof.Machine
end

