-- ==== Sys2Proof/Machine/Flags.lean ====
section
/-! DEFINITION. The status flags: CORESTAT (R29, R31), the control and status registers as programs read them (R27 to R36),
and the conditions that compares compute (R147, R173). -/

namespace Sys2Proof.Machine

/-- CORESTAT as a word (R31). -/
def coreStatWord (depth : Nat) (t : CoreStat) : Word :=
  BitVec.ofNat 64 (b2n t.race + 2 * b2n t.noreplay + 4 * b2n t.deviated + 8 * b2n t.window + 16 * b2n t.replay +
    256 * depth)

/-- A write of CORESTAT: a one clears DEVIATED and RACE, every other bit is discarded (R29). -/
def coreStatWrite (t : CoreStat) (v : Word) : CoreStat :=
  { t with deviated := t.deviated && !v.getLsbD 2, race := t.race && !v.getLsbD 0 }

/-- The five low bits of CORESTAT as a save record holds them (R318). -/
def coreStatByte (t : CoreStat) : Nat := (coreStatWord 0 t).toNat % 32

/-- CORESTAT from a saved byte (R319). -/
def coreStatOfByte (x : Nat) : CoreStat := ⟨bit x 4, bit x 3, bit x 2, bit x 1, bit x 0⟩

/-- The window closes (R322). -/
def closeWindow (t : CoreStat) : CoreStat := { t with window := false }

/-- The word that a read of register `idx` gives on core n (R27 to R36); `none` for an index not listed. While a bundle's slots act,
CORESTAT reads as it stood at the issue of the bundle (R11, R134). -/
def State.csrRead (s : State) (n idx : Nat) : Option Word :=
  let c := s.core n
  match idx with
  | 0 => some (BitVec.ofNat 64 (b2n c.imode))
  | 1 => some (coreStatWord c.regs.loops.length (c.issued.getD c.regs.stat))
  | 2 => some (c.bound.zeroExtend 64)
  | 3 => some (c.parkmap.zeroExtend 64)
  | 4 => some c.trappc
  | 5 => some c.trapinfo
  | 6 => some c.trapaddr
  | 8 => some (BitVec.ofNat 64 (c.hmver.toNat * 2 ^ 32 + dieOf n))
  | 9 => some (c.latcls.zeroExtend 64)
  | 10 => some (BitVec.ofNat 64 (corexy n))
  | 11 => some (BitVec.ofNat 64 c.regs.cycle)
  | _ => none

/-- Classes of LATCLS (R36, R39). -/
def Core.ldbuf (c : Core) : Bool := c.latcls.getLsbD 0
def Core.dvsq (c : Core) : Bool := c.latcls.getLsbD 1
def Core.drain (c : Core) : Bool := c.latcls.getLsbD 2
def Core.hop (c : Core) : Bool := c.latcls.getLsbD 3

/-- Latency of a load from the A or C buffer (R39). -/
def Core.ldbufLat (c : Core) : Nat := if c.ldbuf then 6 else 4

/-- Latency of the divide and square root of `vb` (R39). -/
def Core.dvsqLat (c : Core) : Nat := if c.dvsq then 16 else 14

/-- The matrix drain (R39). -/
def Core.drainLat (c : Core) : Nat := if c.drain then 14 else 12

/-- Cycles per mesh hop (R39). -/
def Core.hopLat (c : Core) : Nat := if c.hop then 3 else 2

/-- The schedule cycle at the core's present CYCLE: CYCLE minus the cycles lost to deviations (R37, R329). -/
def Core.schedule (c : Core) : Nat := c.regs.cycle - c.regs.devc.toList.foldl (· + ·) 0

/-- Relations that compares test (R147, R173). -/
inductive Rel where
  | eq | ne | lt | le
  deriving DecidableEq, Repr

/-- A relation on integers. -/
def Rel.onInt (r : Rel) (x y : Int) : Bool :=
  match r with
  | .eq => decide (x = y)
  | .ne => decide (x ≠ y)
  | .lt => decide (x < y)
  | .le => decide (x ≤ y)

/-- A relation on floating values: a comparison with a NaN is false, except ≠ (R173). -/
def Rel.onFlt (r : Rel) (x y : FVal) : Bool :=
  match r with
  | .eq => x.eq y
  | .ne => !x.eq y
  | .lt => x.lt y
  | .le => x.lt y || x.eq y

/-- A relation on element values. -/
def Rel.on (r : Rel) (x y : Val) : Bool :=
  match x, y with
  | .int a, .int b => r.onInt a b
  | a, b => r.onFlt a.toF b.toF

end Sys2Proof.Machine
end

