-- ==== Sys2Proof/Machine/Trace.lean ====
section
/-! DEFINITION. Trace records, the trace ring and triggers (R327 to R333). -/

namespace Sys2Proof.Machine

/-- A 64-byte record from its words W0 to W7 (R327). -/
def recordLine (ws : List Nat) : Line := BitVec.ofNat 512 (packBits 64 ws)

/-- W0: bundle, position and type. -/
def recordW0 (bundle pos type : Nat) : Nat := (64 * bundle) % 2 ^ 32 * 2 ^ 32 + pos * 2 ^ 8 + type

/-- POS of a record. -/
def recordPos (r : Line) : Nat := bits r.toNat 25 8

/-- The order key of R332 among the records of one core in one cycle: TYPE, and for job records their queue. -/
def recordKey (r : Line) : Nat :=
  let ty := bits r.toNat 7 0
  64 * ty + (if 2 ≤ ty ∧ ty ≤ 4 then 16 * bits r.toNat 308 308 + bits r.toNat 307 304 else 0)

/-- A record of this cycle and this core with a greater key stands in the list. -/
def mustFollow (now : Nat) (r : Line) : List (Nat × Line) → Bool
  | [] => false
  | (t, x) :: rest =>
    if t = now then (recordPos x == recordPos r && decide (recordKey r < recordKey x)) || mustFollow now r rest
    else false

/-- Places a record in a ring held newest first, in the order of R332. -/
def placeRecord (now : Nat) (r : Line) : List (Nat × Line) → List (Nat × Line)
  | [] => [(now, r)]
  | e :: rest => if mustFollow now r (e :: rest) then e :: placeRecord now r rest else (now, r) :: e :: rest

/-- Writes a record into the ring of a die (R332). -/
def Trace.write (t : Trace) (now : Nat) (r : Line) : Trace :=
  let ty := bits r.toNat 7 0
  if !t.en || !t.tmask.getLsbD ty then t
  else
    let cap := 2 ^ t.log2.toNat / 64
    if t.ring.length < cap then { t with ring := placeRecord now r t.ring, wp := t.wp + 1 }
    else if t.wrap then { t with ring := (placeRecord now r t.ring).take cap, wp := t.wp + 1 }
    else { t with drop := t.drop + 1 }

/-- Whether trigger n of a die matches a record (R333). -/
def Trace.matches (t : Trace) (n : Nat) (r : Line) : Bool :=
  let g := (vget t.trg n 0).toNat
  let range := (vget t.trgr n 0).toNat
  let x := r.toNat
  let ty := bits x 7 0
  let baddr := bits x 63 32
  let w2 := bits x 191 128
  let tyM := bits g 55 48
  let caM := bits g 47 40
  bit g 63 && (tyM == 0 || tyM == ty) &&
    (caM == 0 || (ty == 1 && bits w2 7 0 == caM)) &&
    (ty != 1 || decide (bits g 39 8 ≤ bits w2 63 32)) &&
    decide (bits range 31 0 ≤ baddr) && decide (baddr ≤ bits range 63 32)

/-- A trigger asks core n for a debug stop at its next boundary (R333). -/
def State.triggerStop (s : State) (n : Nat) : State :=
  s.updCore n (fun c => { c with dbg := { c.dbg with req := c.dbg.req ||| 64 } })

/-- The action of trigger i on a record of core n. -/
def State.trigger (s : State) (d n i : Nat) (r : Line) : State :=
  let t := (s.die d).trace
  if !t.matches i r then s
  else
    match bits (vget t.trg i 0).toNat 62 60 with
    | 0 => s.updDie d (fun x => { x with trace := { x.trace with en := true } })
    | 1 => s.updDie d (fun x => { x with trace := { x.trace with en := false } })
    | 2 => s.triggerStop n
    | 3 => match s.launchOf n with
      | some (_, l) => l.cores.foldl (fun s m => s.triggerStop m.1) s
      | none => s.triggerStop n
    | _ => s

/-- Emits a record on die d that concerns core n (R332, R333): the ring first, then the triggers, TRG0 to TRG3 in order (DESIGN CHOICE, log 50). -/
def State.emitLine (s : State) (d n : Nat) (r : Line) : State :=
  let s := s.updDie d (fun x => { x with trace := x.trace.write s.now r })
  [0, 1, 2, 3].foldl (fun s i => s.trigger d n i r) s

/-- Emits a record of core n for a bundle at a schedule cycle, with payload words W2 on (R327). -/
def State.emit (s : State) (n type bundle sch : Nat) (ws : List Nat) : State :=
  s.emitLine (dieOf n) n (recordLine (recordW0 bundle (corexy n) type :: sch :: ws))

/-- Adds to a deviation counter, saturating (R338); causes count from 1. -/
def Core.addDev (c : Core) (cause lost : Nat) : Core :=
  let d := c.regs.devc
  { c with regs := { c.regs with
      devc := vset d (cause - 1) (Nat.min (2 ^ 64 - 1) (vget d (cause - 1) 0 + lost))
      stat := { c.regs.stat with deviated := true } } }

/-- Writes a deviation record and counts it (R329, R338). -/
def State.deviation (s : State) (n cause lost bundle sch obj addr : Nat) : State :=
  if lost = 0 then s
  else
    let acycle := (s.core n).regs.cycle
    (s.updCore n (fun c => c.addDev cause lost)).emit n 1 bundle sch [lost * 2 ^ 32 + cause, obj, addr, acycle]

/-- Writes the records of a held bundle, one per cause in the order of R46, and forgets the hold (R329). -/
def State.flushHeld (s : State) (n bundle : Nat) : State :=
  let c := s.core n
  let h := c.held
  if h = Held.zero then s
  else
    let sch := c.schedule - (h.bank + h.segment + h.prepare + h.shadow + h.walk)
    let s := s.updCore n (fun c => { c with held := Held.zero })
    let s := s.deviation n 1 h.bank bundle sch 0 0
    let s := s.deviation n 4 h.segment bundle sch 0 h.segAddr
    let s := s.deviation n 3 h.prepare bundle sch 0 0
    let s := s.deviation n 2 h.shadow bundle sch 0 0
    s.deviation n 5 h.walk bundle sch 0 h.walkAddr

end Sys2Proof.Machine
end

