-- ==== Sys2Proof/Machine/HostSide.lean ====
section
/-! DEFINITION. The traffic of the ports (R409, R410), and what the package does to the host: vectors and messages (R387), the fault and
event rings (R385, R386, R417). -/

namespace Sys2Proof.Machine

/-! ## Traffic of a port -/

/-- A port that is not up. -/
def Port.down : Port := ⟨0, 0, 0, 0⟩

def State.port (s : State) (i : Nat) : Port := getD Port.down s.ports i

/-- A port is up: its links carry traffic. -/
def Port.up (p : Port) : Bool := decide (2 ≤ p.state.toNat)

/-- The number that stands for the rack link: the UALink and Ultra Ethernet ports 2 to 19 together (R299, R408). -/
def rackLink : Nat := 24

/-- A link by its port. The rack scheduler reaches the package over whichever of the ports 2 to 19 carries traffic: the rack link is up while
one of them is, and trains while none is up and one trains (DESIGN CHOICE, log 40). -/
def State.portLink (s : State) (p : Nat) : Port :=
  if p = rackLink then
    let l := (List.range 18).map (fun i => s.port (i + 2))
    (l.find? Port.up).getD ((l.find? (fun x => x.state == 1)).getD Port.down)
  else s.port p

/-- The host link of a virtual function: port 1 for one of the second root (R409). -/
def State.hostPort (s : State) (v : Nat) : Nat := if (s.vf v).root then 1 else 0

/-- What comes in at a port acts at once where the port is up and nothing waits there; while the port trains it waits (R410), and a port
that is DOWN loses it (log 40). -/
def State.viaPort (s : State) (p : Nat) (i : Instr) (act : Host.Outcome State Fault Refusal) : Host.Outcome State Fault Refusal :=
  if (s.portLink p).up && s.portIn.all (fun e => e.1 != p) then act
  else if (s.portLink p).state = 0 then .next s
  else .next { s with portIn := s.portIn ++ [(p, i)] }

/-- What comes in over the host link of a virtual function. -/
def State.viaHost (s : State) (v : Nat) (i : Instr) (act : Host.Outcome State Fault Refusal) : Host.Outcome State Fault Refusal :=
  s.viaPort (s.hostPort v) i act

/-- A message of the package reaches the host or the rack scheduler. -/
def State.reachHost (s : State) (m : HostMsg) : State :=
  match m with
  | .write a n x => { s with host := s.host.writeN a n x }
  | .msix v k => { s with out := { s.out with msix := (v, k, s.ns) :: s.out.msix } }
  | .report r => { s with out := { s.out with reports := r :: s.out.reports } }

/-- A message leaves over a link, behind those that wait; while the link trains it waits (R410), and a link that is DOWN loses it
(log 40). -/
def State.toLink (s : State) (p : Nat) (m : HostMsg) : State :=
  if (s.portLink p).up && s.portOut.all (fun e => e.1 != p) then s.reachHost m
  else if (s.portLink p).state = 0 then s
  else { s with portOut := s.portOut ++ [(p, m)] }

/-- A message leaves over the host link of a virtual function. -/
def State.toHost (s : State) (v : Nat) (m : HostMsg) : State := s.toLink (s.hostPort v) m

/-- The messages that waited for a link that is up again go out in their order; those of a link that is DOWN are lost. -/
def State.flushOut (s : State) : State :=
  let go := s.portOut.filter (fun e => (s.portLink e.1).up)
  go.foldl (fun (s : State) e => s.reachHost e.2) { s with portOut := s.portOut.filter (fun e => (s.portLink e.1).state = 1) }

/-! ## Vectors and rings -/

/-- Sends one message on a vector: the pending count becomes 0 in the same step (R387). -/
def State.sendMsi (s : State) (v k : Nat) : State :=
  (s.updVf v (fun f => { f with vecs := vset f.vecs k { vget f.vecs k Vec.zero with pend := 0 } })).toHost v (.msix v k)

/-- The message test of a vector: unmasked, and COUNT events or an event TIME ns old (R387). -/
def State.msiDue (s : State) (v k : Nat) : Bool :=
  let x := vget (s.vf v).vecs k Vec.zero
  !x.mask && decide (0 < x.pend) && (decide (x.count.toNat ≤ x.pend) || decide (x.oldest + x.time.toNat ≤ s.ns))

/-- Applies the message test. -/
def State.testMsi (s : State) (v k : Nat) : State := if s.msiDue v k then s.sendMsi v k else s

/-- One event on vector k of virtual function v (R387). -/
def State.vecEvent (s : State) (v k : Nat) : State :=
  let s := s.updVf v (fun f =>
    let x := vget f.vecs k Vec.zero
    { f with vecs := vset f.vecs k { x with pend := x.pend + 1, oldest := if x.pend = 0 then s.ns else x.oldest } })
  s.testMsi v k

/-- Whether a record may enter a ring (R386). -/
def Ring.room (r : Ring) : Bool := r.en && decide ((r.prod - r.cons).toNat ≠ 2 ^ r.log2n.toNat)

/-- Writes a record of `bytes` bytes into a ring of virtual function v, or counts it dropped (R385, R386). -/
def State.ringWrite (s : State) (v : Nat) (get : VF → Ring) (set : VF → Ring → VF) (bytes rec : Nat) : State :=
  let r := get (s.vf v)
  if r.room then
    let a := r.base.toNat + bytes * (r.prod.toNat % 2 ^ r.log2n.toNat)
    let s := (s.toHost v (.write a bytes rec)).updVf v (fun f => set f { r with prod := r.prod + 1 })
    s.vecEvent v r.vec.toNat
  else s.updVf v (fun f => set f { r with drop := r.drop + 1 })

/-- A record of the fault ring (R310). -/
def State.faultRecord (s : State) (v rec : Nat) : State :=
  s.ringWrite v VF.fault (fun f r => { f with fault := r }) 32 rec

/-- A record of the event ring (R417): the payload stands from bit 64 up. -/
def State.eventRecord (s : State) (v kind payload : Nat) : State :=
  s.ringWrite v VF.event (fun f r => { f with event := r }) 64 (kind + payload * 2 ^ 64)

/-- A notify store of value x to word k, performed (R388). -/
def State.notify (s : State) (v k x : Nat) : State :=
  let ctl := (vget (s.vf v).notctl k 0).toNat
  (s.toHost v (.write (ctl / 64 * 64) 8 x)).vecEvent v (ctl % 16)

/-- A discarded store to the notify page (R388, R417). -/
def State.badNotify (s : State) (v off size : Nat) : State := s.eventRecord v 5 (off % 2 ^ 16 + size % 2 ^ 16 * 2 ^ 16)

end Sys2Proof.Machine
end

