-- ==== Sys2Proof/Machine/Jobs.lean ====
section
/-! DEFINITION. What an engine job reads and writes: the template's fields (R267, R273), the parameter (R268), the rows and
sectors of a copy (R269, R270), conversion with BFP blocks (R90, R103) and the bank product (R274). -/

namespace Sys2Proof.Machine

/-- The parameter of a job (R268). -/
def jobParam (tpl : BitVec 1024) (param : Word) : Nat := param.toNat * 2 ^ bits tpl.toNat 475 472 % 2 ^ 64

/-- A field of a template moved by the parameter when bit `b` of PMODE is set (R268). -/
def movedField (tpl : BitVec 1024) (param : Word) (hi lo b : Nat) : Nat :=
  let x := bits tpl.toNat hi lo
  if bit (bits tpl.toNat 469 468) b then (x + jobParam tpl param) % 2 ^ 64 else x

/-- KIND of a template: true for a bank product. -/
def tplBank (t : BitVec 1024) : Bool := bit t.toNat 465
/-- SFMT and DFMT; 0x1F is raw. -/
def tplSfmt (t : BitVec 1024) : Nat := bits t.toNat 452 448
def tplDfmt (t : BitVec 1024) : Nat := bits t.toNat 460 456
def tplSat (t : BitVec 1024) : Bool := bit t.toNat 464
def tplTxen (t : BitVec 1024) : Bool := bit t.toNat 466
/-- A-buffer offset of the barrier. -/
def tplTxb (t : BitVec 1024) : Nat := 16 * bits t.toNat 510 496
def tplKey (t : BitVec 1024) : Nat := bits t.toNat 485 480
/-- Elements of dimension i, i from 0 to 3. -/
def tplSize (t : BitVec 1024) (i : Nat) : Nat := bits t.toNat (207 + 16 * i) (192 + 16 * i) + 1
/-- Strides of dimension i, i from 1 to 3. -/
def tplSstep (t : BitVec 1024) (i : Nat) : Int := toSigned 32 (bits t.toNat (223 + 64 * i) (192 + 64 * i))
def tplDstep (t : BitVec 1024) (i : Nat) : Int := toSigned 32 (bits t.toNat (255 + 64 * i) (224 + 64 * i))

/-- A format code as a BFP mantissa width. -/
def bfpWidth (code : Nat) : Option Nat :=
  match mfmt code with
  | some (.bfp m) => some m
  | _ => none

/-- Bits of an element as stored; raw bytes have 8 (R92, R269). -/
def codeBits (code : Nat) : Nat :=
  if code = 0x1F then 8
  else match mfmt code with
    | some f => f.storeWidth
    | none => 8

/-- Read and write footprints: base and length (R267, R268). -/
def Job.readFoot (j : Job) : Nat × Nat := (movedField j.tpl j.param 575 512 0, bits j.tpl.toNat 639 576)
def Job.writeFoot (j : Job) : Nat × Nat := (movedField j.tpl j.param 703 640 1, bits j.tpl.toNat 767 704)

/-- Source, destination and exponent bases after the parameter (R268). -/
def Job.srcBase (j : Job) : Nat := movedField j.tpl j.param 63 0 0
def Job.dstBase (j : Job) : Nat := movedField j.tpl j.param 127 64 1
def Job.xadr (j : Job) : Nat :=
  if (bfpWidth (tplSfmt j.tpl)).isSome && !tplBank j.tpl then
    if (bfpWidth (tplDfmt j.tpl)).isSome && bit (bits j.tpl.toNat 469 468) 1 then
      (movedField j.tpl j.param 191 128 0 + jobParam j.tpl j.param) % 2 ^ 64
    else movedField j.tpl j.param 191 128 0
  else if (bfpWidth (tplDfmt j.tpl)).isSome && !tplBank j.tpl then movedField j.tpl j.param 191 128 1
  else bits j.tpl.toNat 191 128

/-- Rows of a copy (R269). -/
def Job.rows (j : Job) : Nat := tplSize j.tpl 1 * tplSize j.tpl 2 * tplSize j.tpl 3

/-- Elements of a row. -/
def Job.rowLen (j : Job) : Nat := tplSize j.tpl 0

/-- Address of row r under a base and strides (R269). -/
def rowAddr (t : BitVec 1024) (base : Nat) (step : BitVec 1024 → Nat → Int) (r : Nat) : Nat :=
  let i1 := r % tplSize t 1
  let i2 := r / tplSize t 1 % tplSize t 2
  let i3 := r / tplSize t 1 / tplSize t 2
  (((base : Int) + i1 * step t 1 + i2 * step t 2 + i3 * step t 3) % (2 ^ 64 : Nat)).toNat

def Job.srcRow (j : Job) (r : Nat) : Nat := rowAddr j.tpl j.srcBase tplSstep r
def Job.dstRow (j : Job) (r : Nat) : Nat := rowAddr j.tpl j.dstBase tplDstep r

/-- Blocks of a row (R103, R269). -/
def Job.blocks (j : Job) : Nat := ceilDiv j.rowLen 16

/-- Elements of a destination row: a BFP row is padded to whole blocks (R103). -/
def Job.outLen (j : Job) : Nat := if (bfpWidth (tplDfmt j.tpl)).isSome then 16 * j.blocks else j.rowLen

/-- Bits of the destination data of a row. -/
def Job.dstBits (j : Job) : Nat := j.outLen * codeBits (tplDfmt j.tpl)

/-- The starts at which the sector from byte a on may stand among addresses that are not reduced: a row that passes 2^64 goes on at 0
(R269). -/
def bothStarts (a : Nat) : List Nat := [a, a + 2 ^ 64]

/-- Adds the bytes [a, a + n), taken mod 2^64, to a list of (sector, mask of bytes), first touch first. -/
def touchBytes (l : List (Nat × Nat)) (a n : Nat) : List (Nat × Nat) :=
  (List.range ((a + n + 31) / 32 - a / 32)).foldl (fun l i =>
    let sct := a / 32 + i
    let lo := max a (32 * sct) - 32 * sct
    let hi := min (a + n) (32 * sct + 32) - 32 * sct
    let m := 2 ^ hi - 2 ^ lo
    let sct := sct % 2 ^ 59
    if l.any (fun e => e.1 == sct) then l.map (fun e => if e.1 = sct then (sct, e.2 ||| m) else e) else l ++ [(sct, m)]) l

/-- The destination sectors of a copy in the order of R269, with the bytes written: each row's data, then its exponents. -/
def Job.copySectors (j : Job) : List (Nat × Nat) :=
  (List.range j.rows).foldl (fun l r =>
    let l := touchBytes l (j.dstRow r) (ceilDiv j.dstBits 8)
    if (bfpWidth (tplDfmt j.tpl)).isSome then touchBytes l (j.xadr + r * j.blocks) j.blocks else l) []

/-- The destination sectors of a bank product (R274). -/
def Job.bankSectors (j : Job) : List (Nat × Nat) := touchBytes [] j.dstBase (4 * tplSize j.tpl 1)

/-- The destination sectors of a job. -/
def Job.sectors (j : Job) : List (Nat × Nat) := if tplBank j.tpl then j.bankSectors else j.copySectors

/-- Destination bytes that the job writes (R330). -/
def sectorBytes (l : List (Nat × Nat)) : Nat := l.foldl (fun a e => a + popCount 32 e.2) 0

/-- A reader of little-endian bytes at window or global addresses. -/
abbrev Reader := Nat → Nat → Nat

/-- Element k of a row of the source, as a value (R90, R269). -/
def Job.srcElem (j : Job) (rd : Reader) (r k : Nat) : Val :=
  let code := tplSfmt j.tpl
  let b := codeBits code
  let a := j.srcRow r
  let lo := b * k
  let x := rd (a + lo / 8) ((lo % 8 + b + 7) / 8) / 2 ^ (lo % 8) % 2 ^ b
  match bfpWidth code with
  | some m =>
    let e := rd (j.xadr + r * j.blocks + k / 16) 1
    if e = 0xFF then .flt .nan
    else
      let v := toSigned m x
      .flt (.fin (decide (v < 0)) v.natAbs (2 - (m : Int) + ((e : Int) - 127)))
  | none =>
    match mfmt code with
    | some (.num (.flt .e8m10)) => .flt (FFmt.e8m10.value (x / 2 ^ 13))
    | some (.num f) => f.value x
    | _ => .int x

/-- The source elements of a block, padded with zero elements (R103). -/
def Job.blockVals (j : Job) (rd : Reader) (r blk : Nat) : List FVal :=
  (List.range 16).map (fun i =>
    if 16 * blk + i < j.rowLen then (j.srcElem rd r (16 * blk + i)).toF else .fin false 0 0)

/-- floor(log2 |x|) of a nonzero finite value. -/
def FVal.exp2Floor : FVal → Option Int
  | .fin _ m e => if m = 0 then none else some ((m.log2 : Int) + e)
  | _ => none

/-- The exponent of a block (R103). -/
def bfpExp (vals : List FVal) : Nat :=
  if vals.any (fun v => match v with
    | .fin _ _ _ => false
    | _ => true) then 0xFF
  else
    match (vals.filterMap FVal.exp2Floor) with
    | [] => 0
    | k :: ks => (max 0 (min 254 (ks.foldl max k + 127))).toNat

/-- The mantissa of an element under a block exponent (R103). -/
def bfpMant (m e : Nat) (v : FVal) : Nat :=
  if e = 0xFF then 0
  else toPattern m (satInt true m (v.scale ((m : Int) - 2 + 127 - e)).toInt)

/-- Element k of a row converted to the destination's stored bits (R99 to R103, R269). -/
def Job.dstElem (j : Job) (rd : Reader) (r k : Nat) : Nat :=
  let code := tplDfmt j.tpl
  match bfpWidth code with
  | some m =>
    let vals := j.blockVals rd r (k / 16)
    bfpMant m (bfpExp vals) (nth (.fin false 0 0) vals (k % 16))
  | none =>
    match mfmt code with
    | some (.num (.flt .e8m10)) => convertPattern (j.srcElem rd r k) (.flt .e8m10) (tplSat j.tpl) * 2 ^ 13
    | some (.num f) => convertPattern (j.srcElem rd r k) f (tplSat j.tpl)
    | _ => (j.srcElem rd r k).toI.toNat

/-- The part of destination bytes [a, a + n) that row r writes: value and mask of bits, from bit 0 of byte a up. -/
def Job.rowBits (j : Job) (rd : Reader) (r a n : Nat) : Nat × Nat :=
  let d := j.dstRow r
  let b := codeBits (tplDfmt j.tpl)
  let lo := max a d
  let hi := min (a + n) (d + ceilDiv j.dstBits 8)
  if hi ≤ lo then (0, 0)
  else
    let k0 := 8 * (lo - d) / b
    let k1 := min (j.outLen - 1) ((8 * (hi - d) - 1) / b)
    let v := packBits b ((List.range (k1 + 1 - k0)).map (fun i => j.dstElem rd r (k0 + i)))
    let all := 2 ^ (b * (k1 + 1 - k0)) - 1
    let win := 2 ^ (8 * (hi - lo)) - 1
    let cut := 8 * (lo - d) - b * k0
    ((v / 2 ^ cut &&& win) * 2 ^ (8 * (lo - a)), (all / 2 ^ cut &&& win) * 2 ^ (8 * (lo - a)))

/-- The part of destination bytes [a, a + n) that the exponents of row r write (R269). -/
def Job.expBits (j : Job) (rd : Reader) (r a n : Nat) : Nat × Nat :=
  if (bfpWidth (tplDfmt j.tpl)).isNone then (0, 0)
  else
    let d := j.xadr + r * j.blocks
    let lo := max a d
    let hi := min (a + n) (d + j.blocks)
    if hi ≤ lo then (0, 0)
    else
      let v := packBits 8 ((List.range (hi - lo)).map (fun i => bfpExp (j.blockVals rd r (lo - d + i))))
      (v * 2 ^ (8 * (lo - a)), (2 ^ (8 * (hi - lo)) - 1) * 2 ^ (8 * (lo - a)))

/-- What a copy writes in the sector from byte a on: value and mask of bits; a later row stands over an earlier one
(R269, R270). -/
def Job.copySector (j : Job) (rd : Reader) (a : Nat) : Nat × Nat :=
  let put := fun (f : Nat → Nat × Nat) (acc : Nat × Nat) => (bothStarts a).foldl (fun (v, m) b =>
    let (w, n) := f b
    (mergeBits v w n, m ||| n)) acc
  (List.range j.rows).foldl (fun acc r => put (fun b => j.expBits rd r b 32) (put (fun b => j.rowBits rd r b 32) acc)) (0, 0)

/-- The source bytes that elements k0 to k1 of row r need: (address, length) runs. -/
def Job.elemNeeds (j : Job) (r k0 k1 : Nat) : List (Nat × Nat) :=
  let b := codeBits (tplSfmt j.tpl)
  let lo := b * k0 / 8
  let hi := ceilDiv (b * (k1 + 1)) 8
  let e := if (bfpWidth (tplSfmt j.tpl)).isSome then [(j.xadr + r * j.blocks + k0 / 16, k1 / 16 + 1 - k0 / 16)] else []
  ((j.srcRow r + lo) % 2 ^ 64, hi - lo) :: e

/-- The source bytes that the destination sector from byte a on needs. -/
def Job.copyNeeds (j : Job) (a : Nat) : List (Nat × Nat) :=
  (List.range j.rows).flatMap (fun r => (bothStarts a).flatMap (fun a =>
    let d := j.dstRow r
    let b := codeBits (tplDfmt j.tpl)
    let bfp := (bfpWidth (tplDfmt j.tpl)).isSome
    let lo := max a d
    let hi := min (a + 32) (d + ceilDiv j.dstBits 8)
    let dat := if hi ≤ lo then [] else
      let k0 := 8 * (lo - d) / b
      let k1 := min (j.outLen - 1) ((8 * (hi - d) - 1) / b)
      if bfp then j.elemNeeds r (k0 / 16 * 16) (min (j.rowLen - 1) (k1 / 16 * 16 + 15)) else j.elemNeeds r k0 k1
    let x := j.xadr + r * j.blocks
    let lo := max a x
    let hi := min (a + 32) (x + j.blocks)
    let ex := if !bfp ∨ hi ≤ lo then [] else
      j.elemNeeds r (16 * (lo - x)) (min (j.rowLen - 1) (16 * (hi - x) - 1))
    dat ++ ex))

/-- Two byte ranges share a byte. -/
def rangesMeet (a b : Nat × Nat) : Bool := decide (a.1 < b.1 + b.2) && decide (b.1 < a.1 + a.2)

/-- Rows of B that the sector from byte a on of y needs: words of y may straddle it (R274). -/
def Job.bankRows (j : Job) (a : Nat) : List Nat :=
  ((List.range 9).map (fun i => (a - j.dstBase) / 4 + i)).filter (fun n =>
    decide (n < tplSize j.tpl 1) && rangesMeet (j.dstBase + 4 * n, 4) (a, 32))

/-- Address of row n of B (R273). -/
def Job.bRow (j : Job) (n : Nat) : Nat :=
  (((j.xadr : Int) + n * tplSstep j.tpl 1) % (2 ^ 64 : Nat)).toNat

/-- The source bytes of a bank-product sector: x whole, then the rows of B. -/
def Job.bankNeeds (j : Job) (a : Nat) : List (Nat × Nat) :=
  (j.srcBase, ceilDiv (j.rowLen * codeBits (tplSfmt j.tpl)) 8) ::
    ((bothStarts a).flatMap j.bankRows).map (fun n => (j.bRow n, ceilDiv (j.rowLen * codeBits (tplDfmt j.tpl)) 8))

/-- Splits a list into groups of n. -/
def chunks {α : Type} (n : Nat) : Nat → List α → List (List α)
  | 0, _ => []
  | fuel + 1, l => if l.isEmpty then [] else l.take n :: chunks n fuel (l.drop n)

/-- A sum of products over ascending groups with one rounding per group (R105, R106); `start` is the first accumulator. -/
def groupedSum (acc : FFmt) (group : Nat) (start : Nat) (prods : List FVal) : Nat :=
  (chunks group prods.length prods).foldl (fun c g => acc.round (exactSum (acc.value c :: [exactSum g]))) start

/-- Word n of y (R274). -/
def Job.bankWord (j : Job) (rd : Reader) (n : Nat) : Nat :=
  let elem := fun (code base k : Nat) =>
    let b := codeBits code
    let x := rd (base + b * k / 8) (ceilDiv b 8)
    match mfmt code with
    | some (.num f) => f.value x
    | _ => Val.int 0
  let prods := (List.range j.rowLen).map (fun k =>
    (elem (tplSfmt j.tpl) j.srcBase k, elem (tplDfmt j.tpl) (j.bRow n) k))
  if tplSfmt j.tpl = 0x13 then
    toPattern 32 (prods.foldl (fun a p => a + p.1.toI * p.2.toI) (0 : Int))
  else groupedSum .f32 8 0x80000000 (prods.map (fun p => p.1.toF.mul p.2.toF))

/-- What a bank product writes in the sector from byte a on. -/
def Job.bankSector (j : Job) (rd : Reader) (a : Nat) : Nat × Nat :=
  (bothStarts a).foldl (fun acc a => (j.bankRows a).foldl (fun (v, m) n =>
    let w := j.dstBase + 4 * n
    let place := fun (x : Nat) => x * 2 ^ (8 * (w - a)) / 2 ^ (8 * (a - w)) % 2 ^ 256
    (v + place (j.bankWord rd n), m + place (2 ^ 32 - 1))) acc) (0, 0)

/-- Value and mask of the bits that a job writes in a destination sector. -/
def Job.sectorBits (j : Job) (rd : Reader) (a : Nat) : Nat × Nat :=
  if tplBank j.tpl then j.bankSector rd a else j.copySector rd a

/-- The source sectors that a destination sector needs (address div 32), each once, in order. -/
def Job.needs (j : Job) (a : Nat) : List Nat :=
  ((if tplBank j.tpl then j.bankNeeds a else j.copyNeeds a).flatMap (fun e =>
    (List.range ((e.1 + e.2 + 31) / 32 - e.1 / 32)).map (fun i => (e.1 / 32 + i) % 2 ^ 59))).foldl
      (fun acc x => if acc.contains x then acc else acc ++ [x]) []

/-- A reader over the source sectors gathered: every address is taken mod 2^64 (R269). -/
def readerOf (m : Map (BitVec 256)) : Reader := fun a n =>
  packBits 8 ((List.range n).map (fun i => (getD 0 m ((a + i) % 2 ^ 64 / 32)).toNat / 2 ^ (8 * ((a + i) % 32)) % 256))

/-- The queue field of a job record and fault: BP and QUEUE (R275, R330). -/
def Job.bp (j : Job) : Bool := decide (16 ≤ j.queue)
def Job.queueNo (j : Job) : Nat := if 16 ≤ j.queue then j.queue - 16 else j.queue

/-- W4 of a job record (R330). -/
def Job.w4 (j : Job) : Nat :=
  sectorBytes j.todo % 2 ^ 40 + j.template * 2 ^ 40 + j.queueNo * 2 ^ 48 + b2n j.bp * 2 ^ 52

/-- The payload words W2 to W6 of a job record (R330), at the starting core's CYCLE. -/
def Job.payload (j : Job) (cycle : Nat) : List Nat :=
  [j.srcBase, j.dstBase, j.w4, if tplTxen j.tpl then aBase + tplTxb j.tpl else 0, cycle]

end Sys2Proof.Machine
end

