-- ==== Sys2Proof/Machine/Links.lean ====
section
/-! DEFINITION. The die-to-die paths (R343, R406 to R408, R411): the links in service, the way of an access between two dies, and the
streams that carry it. -/

namespace Sys2Proof.Machine

/-- The lanes in service of the link between two neighbouring dies (R343, R411). -/
def State.linkLanes (s : State) (a b : Nat) : BitVec 128 :=
  let x := (s.die a).hallmark
  let y := (s.die b).hallmark
  if a / 2 = b / 2 then x.dlh &&& y.dlh else x.dlv &&& y.dlv

/-- The port of the link between two neighbouring dies (R408). -/
def diePort (a b : Nat) : Nat :=
  match min a b, max a b with
  | 0, 1 => 20
  | 2, 3 => 21
  | 0, 2 => 22
  | _, _ => 23

/-- Two dies share a link: they are neighbours. -/
def neighbours (a b : Nat) : Bool := a != b && (a / 2 == b / 2 || a % 2 == b % 2)

/-- Two dies share a link that is not DOWN (R411). -/
def State.linked (s : State) (a b : Nat) : Bool := neighbours a b && s.linkLanes a b != 0

/-- The neighbours of a die, the horizontal one first. -/
def besides (a : Nat) : List Nat := [a + 1 - 2 * (a % 2), (a + 2) % 4]

/-- The ways from a die to another one over links: the direct link, one die between, or the other two dies (R411). -/
def waysBetween (a b : Nat) : List (List (Nat × Nat)) :=
  [(a, b)] ::
    ((besides a).filter (· != b)).flatMap (fun c => [(a, c), (c, b)] ::
      ((besides c).filter (fun d => d != a && d != b)).map (fun d => [(a, c), (c, d), (d, b)]))

/-- The way that traffic takes: the first whose links are all in service (R411); which way diagonal traffic takes is a choice
(DESIGN CHOICE, log 40). -/
def State.way (s : State) (a b : Nat) : Option (List (Nat × Nat)) :=
  if a = b then some [] else (waysBetween a b).find? (fun w => w.all (fun h => s.linked h.1 h.2))

def State.stream (s : State) (k : Nat) : Stream := getD Stream.zero s.streams k

def State.setStream (s : State) (k : Nat) (x : Stream) : State := { s with streams := put s.streams k x }

/-- The stream of one direction of a die-to-die link: 24 + 2·k and 25 + 2·k of port 20 + k (R406). -/
def streamOf (a b : Nat) : Nat := 24 + 2 * (diePort a b - 20) + b2n (b < a)

/-- The worse of two states of streams: a stream in ERROR loses what waits on it, an exhausted one delays it (R407). -/
def StreamState.worse (a b : StreamState) : StreamState :=
  match a, b with
  | .error, _ | _, .error => .error
  | .exhausted, _ | _, .exhausted => .exhausted
  | .active, .active => .active

/-- The state of the way of an access between two dies, there and back; without any way the traffic waits (R407, R411). -/
def State.pathState (s : State) (a b : Nat) : StreamState :=
  match s.way a b, s.way b a with
  | some u, some v => (u ++ v).foldl (fun st h => st.worse (s.stream (streamOf h.1 h.2)).state) .active
  | _, _ => .exhausted

/-- The lane that names a die-to-die path in a record, its first: lanes 0 to 127 are DLH, 128 to 255 DLV (R343; DESIGN CHOICE, log 40). -/
def hopLane (h : Nat × Nat) : Nat := if h.1 / 2 = h.2 / 2 then 0 else 128

/-- The lane of the first path in ERROR on the way between two dies. -/
def State.errLane (s : State) (a b : Nat) : Nat :=
  match ((s.way a b).getD [] ++ (s.way b a).getD []).find? (fun h => (s.stream (streamOf h.1 h.2)).state == .error) with
  | some h => hopLane h
  | none => 0

/-- The die of a physical address: two stacks of 64 GB each (R1). -/
def homeOf (pa : Nat) : Nat := pa / 2 ^ 37

/-- The state of the way from the die of core n to a physical address. -/
def State.reach (s : State) (n pa : Nat) : StreamState :=
  if dieOf n = homeOf pa then .active else s.pathState (dieOf n) (homeOf pa)

/-- The state of the ways of a translated access of core n: of its pages of HBM (R407). -/
def State.transReach (s : State) (n : Nat) (t : Trans) : StreamState :=
  t.pages.foldl (fun st p => st.worse (s.reach n (4096 * p.2))) .active

/-- A translated access of core n is lost with a stream in ERROR, and the core takes DATAERR (R305, R407). -/
def State.loseAccess (s : State) (n : Nat) (t : Trans) : State :=
  match t.pages.find? (fun p => s.reach n (4096 * p.2) == .error) with
  | some p => s.updCore n (fun c => { c with lost := c.lost ++ [s.errLane (dieOf n) (homeOf (4096 * p.2))] })
  | none => s

end Sys2Proof.Machine
end

