-- ==== Sys2Proof/Machine/GStore.lean ====
section
/-! DEFINITION. The global store of the ordering machine: write orders and views (R240, R241), translation (R311 to R313),
colour queues and performs (R213, R244), clasp arrivals (R126, R128), atomics (R224) and job starts (R226). -/

namespace Sys2Proof.Machine

/-! ## Write orders and views -/

/-- Appends bytes to their write orders, as one performed write (R242). -/
def State.gwrite (s : State) (bytes : List (Nat × Byte × Byte)) : State :=
  let t := s.writes + 1
  { s with
    mem := s.mem.writeCells bytes
    writes := t
    log := ⟨t, bytes.map (fun e => (e.1, s.mem.read e.1))⟩ :: s.log }

/-- What a byte held after the first p performed writes: later writes are undone, newest first. -/
def byteAt (p a : Nat) : List WriteRec → Byte → Byte
  | [], b => b
  | r :: rest, b =>
    if r.t ≤ p then b
    else byteAt p a rest (match find? r.old a with
      | some x => x
      | none => b)

/-- A physical byte of the global store at a point of its history (R243). -/
def State.histRead (s : State) (p a : Nat) : Byte := byteAt p a s.log (s.mem.read a)

/-- n bytes at a point of the history, as a little-endian number. -/
def State.histReadN (s : State) (p a n : Nat) : Nat :=
  if p = s.writes then s.mem.readN a n
  else packBits 8 ((List.range n).map (fun i => (s.histRead p (a + i)).toNat))

/-- The initial view of every byte (R240). -/
def View.initial : View := ⟨0, []⟩

/-- The point at or after which a byte is read (R241). -/
def View.point (v : View) (a : Nat) : Nat := max v.floor (getD 0 v.pts a)

/-- Moves a view to a point for one byte (R241: only forward). -/
def View.move (v : View) (a p : Nat) : View := if p ≤ v.point a then v else { v with pts := put v.pts a p }

/-- Moves a view to a point for several bytes. -/
def View.moveAll (v : View) (as : List Nat) (p : Nat) : View := as.foldl (fun v a => v.move a p) v

/-- The join of two views (R241). -/
def View.join (u v : View) : View :=
  let f := max u.floor v.floor
  { floor := f, pts := (u.pts ++ v.pts).foldl (fun m e => if e.2 ≤ max f (getD 0 m e.1) then m else put m e.1 e.2) [] }

/-- The number of the last write of a byte among the first p; 0 for its initial write. -/
def lastWriteOf (p a : Nat) : List WriteRec → Nat
  | [] => 0
  | r :: rest => if r.t ≤ p ∧ (find? r.old a).isSome = true then r.t else lastWriteOf p a rest

/-- The position of a view in the write order of a byte (R241). -/
def State.viewPos (s : State) (v : View) (a : Nat) : Nat := lastWriteOf (v.point a) a s.log

/-- The least point of the history at which every byte of a set is at or after a view (R241, R243). -/
def State.least (s : State) (v : View) (as : List Nat) : Nat := as.foldl (fun p a => max p (s.viewPos v a)) 0

/-! ## Pages and TLBs -/

/-- Page number of a global address in units of 4 KiB. -/
def vpn (a : Nat) : Nat := a / 4096

/-- The page that covers a virtual address (R311). -/
def findPage (ps : List Page) (vf a : Nat) : Option Page :=
  ps.find? (fun p => decide (p.vf = vf ∧ p.vbase ≤ a ∧ a < p.vbase + p.size))

/-- The page in a virtual function's tables. -/
def State.pageOf (s : State) (vf a : Nat) : Option Page := findPage (s.vf vf).pages vf a

/-- Physical 4 KiB page of page number v under a page. -/
def pageFrame (p : Page) (v : Nat) : Nat := (p.pbase + (4096 * v - p.vbase)) / 4096

/-- A page of the notify kind that a translated access reaches, as (page, frame) (R388). -/
def State.notifying (s : State) (vf : Nat) (t : Trans) : Option (Nat × Nat) :=
  t.pages.find? (fun p => match s.pageOf vf (4096 * p.1) with
    | some q => q.dev == 1
    | none => false)

/-- Whether the streams on the ways of a translated access of core n carry, delay or lose it (R407); a store to the notify page stays on
no such way (R388). -/
def State.wayState (s : State) (n : Nat) (t : Trans) : StreamState :=
  if (s.notifying (s.vfOf n) t).isSome then .active else s.transReach n t

/-- Permissions of R304, R311. -/
def pageAllows (p : Page) (k : AccessKind) : Bool :=
  match k with
  | .load => p.r
  | .store => p.w
  | .atomic => p.r && p.w
  | .pref => true

/-- Enters a page into a TLB of `cap` entries; the oldest entry leaves (log 6). -/
def tlbInsert (cap : Nat) (t : List Page) (p : Page) : List Page := if t.contains p then t else (p :: t).take cap

/-- Looks a page up in the core's TLB, then in the die's, which fills the core's (R311). -/
def State.tlbLookup (s : State) (n vf v : Nat) : Option Page × State :=
  match findPage (s.core n).tlb vf (4096 * v) with
  | some p => (some p, s)
  | none =>
    match findPage (s.die (dieOf n)).tlb vf (4096 * v) with
    | some p => (some p, s.updCore n (fun c => { c with tlb := tlbInsert 256 c.tlb p }))
    | none => (none, s)

/-- Distinct elements, first occurrences kept. -/
def distinct (l : List Nat) : List Nat := l.foldl (fun acc x => if acc.contains x then acc else acc ++ [x]) []

/-- First address of a list in a page, the lowest. -/
def firstIn (as : List Nat) (v : Nat) : Nat :=
  (as.filter (fun a => vpn a == v)).foldl (fun m a => match m with
    | none => some a
    | some b => some (min a b)) (none : Option Nat) |>.getD (4096 * v)

/-- Settles one page of an access: a translation, a failure, or nothing. -/
def Trans.settle (t : Trans) (k : AccessKind) (as : List Nat) (v : Nat) (p : Option Page) : Trans :=
  let t := { t with waits := t.waits.filter (· != v) }
  match p with
  | none => { t with fails := t.fails ++ [(firstIn as v, 1)] }
  | some p => if pageAllows p k then { t with pages := t.pages ++ [(v, pageFrame p v)] }
    else { t with fails := t.fails ++ [(firstIn as v, 2)] }

/-- Begins the translation of an access at issue (R312). -/
def State.beginTrans (s : State) (n vf : Nat) (k : AccessKind) (as : List Nat) : Trans × State :=
  (distinct (as.map vpn)).foldl (fun (t, s) v =>
    match s.tlbLookup n vf v with
    | (some p, s) => ({ t with waits := t.waits ++ [v] }.settle k as v (some p), s)
    | (none, s) => ({ t with waits := t.waits ++ [v] }, s)) (⟨s.now, [], [], []⟩, s)

/-- Wholly translated (R312). -/
def Trans.ready (t : Trans) : Bool := t.waits.isEmpty && t.fails.isEmpty

/-- Physical address of a translated virtual address. -/
def Trans.phys (t : Trans) (a : Nat) : Nat := 4096 * getD 0 t.pages (vpn a) + a % 4096

/-! ## Clasps -/

/-- A clasp nobody has initialised. -/
def Clasp.zero : Clasp := ⟨false, false, 0, 0, View.initial⟩

/-- A core that has not arrived. -/
def ClaspOwn.zero : ClaspOwn := ⟨false, false, false, View.initial⟩

def Launch.clasp (l : Launch) (c : Nat) : Clasp := getD Clasp.zero l.clasps c

def Core.clasp (x : Core) (c : Nat) : ClaspOwn := getD ClaspOwn.zero x.regs.clasps c

def Core.setClasp (x : Core) (c : Nat) (o : ClaspOwn) : Core := { x with regs := { x.regs with clasps := put x.regs.clasps c o } }

/-- The clasp as one core holds it (R126). -/
def claspWord (k : Clasp) (o : ClaspOwn) : BitVec 64 :=
  BitVec.ofNat 64 (k.count % 2 ^ 16 + k.arrived % 2 ^ 16 * 2 ^ 16 + b2n k.phase * 2 ^ 38 + b2n k.init * 2 ^ 39 +
    b2n o.aph * 2 ^ 40 + b2n o.aval * 2 ^ 41 + b2n o.adone * 2 ^ 42)

/-- Whether a counted arrival of the core at clasp c still stands behind its performs. -/
def Core.arriving (x : Core) (c : Nat) : Bool := x.performs.any (fun p => p == .arrive c)

/-- A completed phase reaches one core of the launch: ADONE, the phase view, and the wake of a core that waits (R126, R129): it reaches the
core in the next cycle or later, and the wait ends in the first cycle after that. ADONE is set at once on a core that does not wait, while
the time at which the wake reaches a waiting core is drawn, and a core whose own arrival still stands behind its performs has not arrived
yet and takes no ADONE (DESIGN CHOICE, log 45). -/
def State.claspDone (s : State) (c : Nat) (v : View) (n : Nat) : State :=
  let x := s.core n
  let o := x.clasp c
  if o.aval && !o.adone && !x.arriving c then
    let (d, s) := match x.wait with
      | some (.clasp k) => if k = c then s.draw else (0, s)
      | _ => (0, s)
    s.updCore n (fun x =>
      let x := x.setClasp c { o with adone := true, view := v }
      match x.wait with
      | some (.clasp k) => if k = c then { x with wakeAt := some (s.now + 2 + d) } else x
      | _ => x)
  else s

/-- Counts an arrival of core n at clasp c; the COUNT-th completes the phase (R126, R242). -/
def State.countArrival (s : State) (n c : Nat) : State :=
  match s.launchOf n with
  | none => s
  | some (l, x) =>
    let k := x.clasp c
    let g := k.gather.join (s.core n).view
    if k.arrived + 1 < k.count then
      s.setLaunch l { x with clasps := put x.clasps c { k with arrived := k.arrived + 1, gather := g } }
    else
      let s := s.setLaunch l { x with
        clasps := put x.clasps c { k with arrived := 0, phase := !k.phase, gather := View.initial } }
      x.cores.foldl (fun s m => s.claspDone c g m.1) s

/-! ## Loads -/

/-- The byte of a load: the youngest queued bits over older ones over the store's byte (R214); the queue holds the entries
that precede the load in program order (R212). -/
def forwardByte (q : List Entry) (a : Nat) (b : Byte) : Byte :=
  q.foldl (fun b e => (e.bytes.filter (fun x => x.1 == a)).foldl
    (fun b x => BitVec.ofNat 8 (mergeBits b.toNat x.2.1.toNat x.2.2.toNat)) b) b

/-- A byte that some entry holds whole needs no byte of the store (R243). -/
def heldByte (q : List Entry) (a : Nat) : Bool := q.any (fun e => e.bytes.any (fun x => x.1 == a && x.2.2 == 0xFF#8))

/-- The bytes of a load's part, as virtual addresses. -/
def LoadPart.addrs (p : LoadPart) : List Nat :=
  ((List.range 32).filter (fun i => p.want.getLsbD i)).map (fun i => 32 * p.sector + i)

/-- Every byte a load reads. -/
def Load.addrs (l : Load) : List Nat := l.parts.flatMap LoadPart.addrs

/-- Two loads have unread parts with a byte in common. -/
def Load.meets (l m : Load) : Bool :=
  l.parts.any (fun p => !p.got && m.parts.any (fun q => !q.got && q.sector == p.sector && (q.want &&& p.want) != 0))

/-- A part of load l may not be read yet: an unread part of an earlier load or atomic overlaps it, or an earlier one whose own move has not
been made overlaps the load, whose Read would come first (R212, R242, R243: the moves of overlapping accesses stand in program order). -/
def readBlocked (loads : List Load) (l : Load) (p : LoadPart) : Bool :=
  loads.any (fun m => decide (m.id < l.id) &&
    (m.parts.any (fun q => !q.got && q.sector == p.sector && (q.want &&& p.want) != 0) ||
      (l.begun.isNone && m.begun.isNone && l.meets m)))

/-- A load that follows access `seq` and whose Read has been made stands at or after what that access reads or writes (R241, R243). -/
def Load.after (m : Load) (seq : Nat) (as : List Nat) (pt : Nat) : Load :=
  if seq < m.id then { m with begun := m.begun.map (fun b => (b.1, b.2.moveAll as pt)) } else m

/-- Access `seq` of a core takes or makes writes at a point: its view, and those of later Reads, move to them (R242). -/
def Core.moveView (c : Core) (seq : Nat) (as : List Nat) (pt : Nat) : Core :=
  { c with view := c.view.moveAll as pt, loads := c.loads.map (fun m => m.after seq as pt) }

/-- A translation with the frames of the pages of some bytes that it still waits for, as the tables give them now. -/
def State.tableTrans (s : State) (vf : Nat) (t : Trans) (as : List Nat) : Trans :=
  { t with pages := t.pages ++ (t.waits.filter (fun v => as.any (fun a => vpn a == v))).filterMap (fun v =>
      match s.pageOf vf (4096 * v) with
      | some p => if pageAllows p .load then some (v, pageFrame p v) else none
      | none => none) }

/-- The Read move of part i of load `id` of core n: the bytes from the store come from one point of its history, `back`
writes before the present when the view allows (R243). An access reads once it is wholly translated (R312); a part that the order of the
core's own moves makes urgent reads by the tables as they stand. A Read is one move (R242): a part that is read later than another stands at
the points between which that move was made. -/
def State.readPart (s : State) (n id i back : Nat) (urgent : Bool) : State :=
  let c := s.core n
  match c.loads.find? (fun l => l.id == id) with
  | none => s
  | some l =>
    match l.parts[i]? with
    | none => s
    | some p =>
      let tr := if urgent then s.tableTrans (s.vfOf n) l.trans p.addrs else l.trans
      let known := if urgent then tr.pages.any (fun x => x.1 == vpn (32 * p.sector)) else tr.ready
      if p.got || !known || l.kind != .load || readBlocked c.loads l p then s
      else
        let as := p.addrs
        let q := c.queue.filter (fun e => decide (e.seq < id))
        let fromStore := (as.filter (fun a => !heldByte q a)).map tr.phys
        let (last, view) := l.begun.getD (s.writes, c.view)
        let pt := max (s.least view fromStore) (last - back)
        let cells := as.map (fun a => (a, forwardByte q a (s.histRead pt (tr.phys a)), 0xFF#8))
        let l' := { l with
          got := l.got.writeCells cells, parts := setNth l.parts i { p with got := true }, begun := some (last, view) }
        let (d, s) := if l'.parts.all (·.got) then s.draw else (0, s)
        let l' := if l'.parts.all (·.got) then { l' with land := some (s.now + 1 + d) } else l'
        s.setCore n (({ c with loads := c.loads.map (fun m => if m.id = id then l' else m) } : Core).moveView id fromStore pt)

/-- A load that waits for one of the bytes. -/
def Load.touches (l : Load) (as : List Nat) : Bool :=
  l.kind == .load && l.parts.any (fun p => !p.got && p.addrs.any (fun a => as.contains a))

/-- The loads of a core that must read before a move of its own, in program order: those named, and the earlier ones that overlap them
(R242: Read moves of overlapping loads happen in program order). -/
def Core.readFirst (c : Core) (named : Load → Bool) : List Nat :=
  (c.loads.reverse.foldl (fun (acc : List Load) l =>
    if l.kind == .load && (named l || acc.any l.meets) then l :: acc else acc) []).map (fun l => l.id)

/-- The Read move of a load is made now; a part on a page that the tables do not hold is read later, as it stands now (R242). -/
def State.readLoad (s : State) (n id : Nat) : State :=
  match (s.core n).loads.find? (fun l => l.id == id) with
  | none => s
  | some l =>
    let s := s.updCore n (fun c => { c with loads := c.loads.map (fun m => if m.id = id then
      { m with begun := m.begun <|> some (s.writes, c.view) } else m) })
    (List.range l.parts.length).foldl (fun (s : State) i =>
      let (back, s) := s.draw
      s.readPart n id i back true) s

/-- The loads of core n that must read now, in program order. -/
def State.readLoads (s : State) (n : Nat) (named : Load → Bool) : State :=
  ((s.core n).readFirst named).foldl (fun (s : State) id => s.readLoad n id) s

/-- The sectors of some bytes. -/
def sectorsOf (as : List Nat) : List Nat := distinct (as.map (· / 32))

/-- Loads that precede the access `seq` of core n in program order and wait for some of its bytes are read before those
bytes are written (R212). -/
def State.readEarlier (s : State) (n seq : Nat) (as : List Nat) : State :=
  s.readLoads n (fun l => decide (l.id < seq) && l.touches as)

/-- The bytes that an entry writes. -/
def Entry.written (e : Entry) : List (Nat × Byte × Byte) := e.bytes.filter (fun b => b.2.2 != 0)

/-- A load that follows entry e takes e's bytes, and none of an older entry that is still queued, also when e leaves its queue first
(R212, R214); one whose Read has been made takes them from the queue. -/
def State.readLater (s : State) (n : Nat) (e : Entry) : State :=
  let older := (s.core n).queue.filter (fun x => decide (x.seq < e.seq))
  let all := e.written.map (fun b => b.1)
  let as := all.filter (fun a => older.any (fun x => x.written.any (fun b => b.1 == a)))
  s.readLoads n (fun l => decide (e.seq < l.id) && (l.touches as || (l.begun.isSome && l.touches all)))

/-! ## Performs -/

/-- An entry that reaches the notify page performs here (R388): the one form that counts, or one bad-notify record and nothing
else. -/
def State.notifyStore (s : State) (vf : Nat) (e : Entry) (page : Nat) : State :=
  let as := distinct (e.bytes.map (fun b => b.1))
  let inPage := as.filter (fun a => vpn a == page)
  let lo := inPage.foldl min (nth 0 inPage 0)
  let hi := inPage.foldl max 0
  let whole := as.all (fun a => (e.bytes.filter (fun b => b.1 == a)).foldl (fun (x : Nat) b => x ||| b.2.2.toNat) 0 == 255)
  if lo % 8 = 0 ∧ as.length = 8 ∧ inPage.length = 8 ∧ hi = lo + 7 ∧ lo % 4096 < 128 ∧ whole = true then
    s.notify vf (lo % 4096 / 8) (Memory.readN (Memory.writeCells [] e.bytes) lo 8)
  else s.badNotify vf (lo % 4096) (hi + 1 - lo)

/-- Performs one translated entry: its bytes are appended to their write orders together and the view moves to them; an entry that
reaches a page of the notify kind acts instead (R242, R388). -/
def State.performEntry (s : State) (n : Nat) (e : Entry) : State :=
  let vf := s.vfOf n
  let s := (s.readEarlier n e.seq (e.written.map (fun b => b.1))).readLater n e
  let s := s.updCore n (fun c => { c with queue := c.queue.filter (fun x => x.seq != e.seq) })
  match s.notifying vf e.trans with
  | some p => s.notifyStore vf e p.1
  | none =>
    let phys := e.written.map (fun b => (e.trans.phys b.1, b.2))
    if phys.isEmpty then s
    else
      let s := s.gwrite phys
      s.updCore n (fun c => c.moveView e.seq (phys.map (fun b => b.1)) s.writes)

/-- The new value of an atomic (R224). -/
def AtomicOp.apply (op : AtomicOp) (size : Nat) (old x y : Nat) : Nat :=
  let b := 8 * size
  match op with
  | .add => (old + x) % 2 ^ b
  | .min => if toSigned b x < toSigned b old then x % 2 ^ b else old
  | .max => if toSigned b old < toSigned b x then x % 2 ^ b else old
  | .minu => Nat.min old (x % 2 ^ b)
  | .maxu => Nat.max old (x % 2 ^ b)
  | .and => old &&& (x % 2 ^ b)
  | .or => old ||| (x % 2 ^ b)
  | .xchg => x % 2 ^ b
  | .cas => if old = y % 2 ^ b then x % 2 ^ b else old

/-- Performs an atomic whose access is translated: one indivisible step of the global store (R224, R242). -/
def State.performAtomic (s : State) (n id : Nat) (op : AtomicOp) (size addr : Nat) (x y : Word) : State :=
  match (s.core n).loads.find? (fun l => l.id == id) with
  | none => s
  | some l =>
    let pa := l.trans.phys addr
    let s := s.readEarlier n id ((List.range size).map (addr + ·))
    let old := s.mem.readN pa size
    let new := op.apply size old x.toNat y.toNat
    let s := s.gwrite ((List.range size).map (fun i => (pa + i, BitVec.ofNat 8 (new / 2 ^ (8 * i)), 0xFF#8)))
    let (d, s) := s.draw
    s.updCore n (fun c => ({ c with
      loads := c.loads.map (fun m => if m.id = id then
        { m with got := Memory.writeN [] addr size old, parts := m.parts.map (fun p => { p with got := true }),
                 land := some (s.now + 1 + d) } else m) } : Core).moveView id ((List.range size).map (pa + ·)) s.writes)

/-- The list with one of the elements from position `done` on, chosen by k, at that position. -/
def pickNext {α : Type} (l : List α) (done k : Nat) : List α :=
  let rest := l.drop done
  match rest[k % rest.length]? with
  | some x => l.take done ++ x :: rest.eraseIdx (k % rest.length)
  | none => l

/-- A list in an order that is drawn: no rule orders what different cores do in one cycle (R239, log 7). -/
def State.shuffle (s : State) (l : List Nat) : List Nat × State :=
  (List.range (l.length - 1)).foldl (fun (e : List Nat × State) i =>
    let (k, t) := e.2.draw
    (pickNext e.1 i k, t)) (l, s)

/-- The destination sector that a job moves next: any of those left, since R242 sets no order among them. -/
def State.drawNext (s : State) (todo : List (Nat × Nat)) (done : Nat) : List (Nat × Nat) × State :=
  if todo.length < done + 2 then (todo, s)
  else
    let (k, s) := s.draw
    (pickNext todo done k, s)

/-- Appends a job to the die's queue with its sectors, and writes its job-issue record (R226, R242, R330); V_J is the
core's view. -/
def State.enqueueJob (s : State) (n : Nat) (j : JobStart) : State :=
  let (id, s) := s.fresh
  let c := s.core n
  let job : Job :=
    { id, core := n, launch := c.launch.getD 0, queue := j.queue, template := j.template,
      tpl := getD 0 c.templates j.template, param := j.param, bundle := j.bundle, sch := j.cycle, started := s.now,
      release := s.releases, pos := j.pos, view := c.view, state := .waiting, todo := [], done := 0, first := false,
      src := [], lines := [], key := 0, due := s.now + 1, wvpn := none, walked := none, fault := none }
  let (todo, s) := s.drawNext job.sectors 0
  let job := { job with todo }
  let s := s.updDie (dieOf n) (fun x => { x with jobs := x.jobs ++ [job] })
  s.emit n 2 j.bundle j.cycle (job.payload c.regs.cycle)

/-- An entry that waits on a stream in ERROR is discarded (R407). -/
def State.loseEntry (s : State) (n : Nat) (e : Entry) : State :=
  (s.updCore n (fun c => { c with queue := c.queue.filter (fun x => x.seq != e.seq) })).loseAccess n e.trans

/-- An atomic that waits on a stream in ERROR is not performed and lands nothing (R305, R407). -/
def State.loseAtomic (s : State) (n : Nat) (l : Load) : State :=
  (s.updCore n (fun c => { c with loads := c.loads.map (fun m => if m.id = l.id then
    { m with err := true, parts := m.parts.map (fun p => { p with got := true }), land := some (s.now + 1) } else m) })).loseAccess
      n l.trans

/-- Runs the perform items of core n in order, up to one that waits for a translation or an exhausted stream (R312, R407). -/
def State.runPerforms : Nat → State → Nat → State
  | 0, s, _ => s
  | fuel + 1, s, n =>
    let c := s.core n
    match c.performs with
    | [] => s
    | it :: rest =>
      let pop := fun (s : State) => s.updCore n (fun c => { c with performs := c.performs.tail })
      match it with
      | .entry q =>
        match c.queue.find? (fun e => e.seq == q) with
        | none => State.runPerforms fuel (pop s) n
        | some e =>
          if e.trans.ready then
            match s.wayState n e.trans with
            | .active => State.runPerforms fuel ((pop s).performEntry n e) n
            | .error => State.runPerforms fuel ((pop s).loseEntry n e) n
            | .exhausted => s
          else s
      | .arrive k => State.runPerforms fuel ((s.setCore n { c with performs := rest }).countArrival n k) n
      | .atomic id op size addr x y =>
        match c.loads.find? (fun l => l.id == id) with
        | none => State.runPerforms fuel (pop s) n
        | some l =>
          if l.trans.ready then
            match s.wayState n l.trans with
            | .active => State.runPerforms fuel ((pop s).performAtomic n id op size addr x y) n
            | .error => State.runPerforms fuel ((pop s).loseAtomic n l) n
            | .exhausted => s
          else s
      | .start j => State.runPerforms fuel ((pop s).enqueueJob n j) n

/-- Asks for the performs of the entries of core n that satisfy `p`, in program order, then for the items given
(R244). -/
def State.perform (s : State) (n : Nat) (p : Entry → Bool) (after : List PerformItem) : State :=
  let c := s.core n
  let items := (c.queue.filter p).map (fun e => PerformItem.entry e.seq) ++ after
  let s := s.setCore n { c with performs := c.performs ++ items }
  s.runPerforms (c.performs.length + items.length) n

/-- The colour of an entry is set in a mask. -/
def inColours (m : BitVec 8) (e : Entry) : Bool := m.getLsbD e.col

/-- The 32-byte sectors that an entry counts (R213). -/
def Entry.sectors (e : Entry) : Nat := (distinct (e.bytes.map (fun b => b.1 / 32))).length

/-- Sectors held in a colour queue. -/
def Core.queueSectors (c : Core) (col : Nat) : Nat :=
  (c.queue.filter (fun e => e.col == col)).foldl (fun a e => a + e.sectors) 0

end Sys2Proof.Machine
end

