-- ==== Sys2Proof/Machine/Ops.lean ====
section
/-! DEFINITION. The named operations over registers, slices and buffers (R19 to R26, R38, R42), the journals of a locket
(R320, R321), taking a trap (R35, R47, R48) and the return from it (R308). -/

namespace Sys2Proof.Machine

/-! ## Registers -/

/-- A scalar: s0 reads as zero (R24). -/
def Core.sreg (c : Core) (r : Nat) : Word := if r = 0 then 0 else vget c.regs.s r 0

/-- The condition half of steer register j (R25). -/
def Core.cond (c : Core) (j : Nat) : Bool := vget c.regs.jc j false

/-- The target half of steer register j. -/
def Core.target (c : Core) (j : Nat) : BitVec 24 := vget c.regs.jt j 0

/-- A mask half: k0 reads as all ones (R26); `cl` is true for cluster B. -/
def Core.mask (c : Core) (cl : Bool) (k : Nat) : LaneMask :=
  if k = 0 then BitVec.allOnes 256 else vget (if cl then c.regs.kB else c.regs.kA) k 0

/-- Writes a scalar; a write to s0 is discarded (R24). -/
def Regs.setS (r : Regs) (d : Nat) (v : Word) : Regs := if d = 0 then r else { r with s := vset r.s d v }

/-- Writes a mask half in the lanes of `en`; a write to k0 is discarded (R26). -/
def Regs.setMask (r : Regs) (cl : Bool) (k : Nat) (v en : LaneMask) : Regs :=
  if k = 0 then r
  else if cl then { r with kB := vset r.kB k (vget r.kB k 0 &&& ~~~en ||| v &&& en) }
  else { r with kA := vset r.kA k (vget r.kA k 0 &&& ~~~en ||| v &&& en) }

/-- The register part of a landing. -/
def Regs.land (r : Regs) (v : ResVal) : Regs :=
  match v with
  | .scalar d x => r.setS d x
  | .cond j x => { r with jc := vset r.jc j x }
  | .target j x => { r with jt := vset r.jt j x }
  | .mask cl k x en => r.setMask cl k x en
  | .slices .. | .nothing => r

/-! ## The slice file -/

/-- One slice of a cluster across its lanes. -/
def Core.slice (c : Core) (cl : Bool) (i : Nat) : SliceLine := getD 0 (if cl then c.sliceB else c.sliceA) i

/-- The lines of w slices from `start` on. -/
def Core.sliceLines (c : Core) (cl : Bool) (start w : Nat) : List SliceLine :=
  (List.range w).map (fun i => c.slice cl (start + i))

/-- The lane values of a slice operand, lane 0 first. -/
def Core.lanes (c : Core) (cl : Bool) (o : SliceOp) : List Nat :=
  let lines := c.sliceLines cl o.start.toNat (o.wm1.toNat + 1)
  allLanes.map (fun l => laneOf lines l)

/-- Writes one slice in the lanes of `en` (R23). -/
def Core.putSlice (c : Core) (cl : Bool) (i : Nat) (x : SliceLine) (en : LaneMask) : Core :=
  let y := mergeLine (c.slice cl i) x en
  if cl then { c with sliceB := put c.sliceB i y } else { c with sliceA := put c.sliceA i y }

/-- Key of a line of 32 slices in a locket. -/
def lineKey (cl : Bool) (i : Nat) : Nat := 96 * b2n cl + i / 32

/-- A result with this id was issued before the release at which the core took its locket (R320). -/
def Core.before (c : Core) (id : Nat) : Bool :=
  match c.locket with
  | some k => decide (id < k.firstId)
  | none => false

/-- The slice journal before slice i is written: the first write after the release saves the line; a landing from before
the release goes into the saved line as well (R320). -/
def Core.journalSlice (c : Core) (pre cl : Bool) (i : Nat) (x : SliceLine) (en : LaneMask) : Core :=
  match c.locket with
  | none => c
  | some k =>
    match find? k.slices (lineKey cl i), pre with
    | none, true => c
    | none, false =>
      { c with locket := some { k with slices := put k.slices (lineKey cl i) (c.sliceLines cl (i / 32 * 32) 32) } }
    | some ls, true =>
      { c with locket := some { k with
          slices := put k.slices (lineKey cl i) (setNth ls (i % 32) (mergeLine (nth 0 ls (i % 32)) x en)) } }
    | some _, false => c

/-- Writes slices from `start` on, with the journal. -/
def Core.writeSlices (c : Core) (pre cl : Bool) (start : Nat) (en : LaneMask) : List SliceLine → Core
  | [] => c
  | x :: xs => ((c.journalSlice pre cl start x en).putSlice cl start x en).writeSlices pre cl (start + 1) en xs

/-! ## Landing -/

/-- A result lands in cycle `now` on all its locations (R38); a result from before a release lands in the locket too. -/
def Core.land (c : Core) (now id : Nat) (v : ResVal) : Core :=
  let pre := c.before id
  let c := if pre then { c with locket := c.locket.map (fun k => { k with regs := k.regs.land v }) } else c
  match v with
  | .scalar d _ => { c with regs := c.regs.land v, sLand := vset c.sLand d (some now) }
  | .slices cl start en lines => c.writeSlices pre cl start en lines
  | _ => { c with regs := c.regs.land v }

/-- Records a result of the bundle at the pc, from the slot with the given number, that lands `lat` cycles from now (R38,
R42). A result without a location is not recorded (R24, R26). -/
def State.record (s : State) (n slot lat : Nat) (v : ResVal) : State :=
  if v.locs = [] then s
  else s.updCore n (fun c => { c with
    nextId := c.nextId + 1
    results := c.results ++ [⟨c.nextId, c.regs.pc.toNat, slot, v.locs, s.now + lat, v⟩] })

/-- The recorded result `id` of core n lands, when its cycle has come. -/
def State.landResult (s : State) (n id : Nat) : State :=
  match (s.core n).results.find? (fun r => r.id == id) with
  | none => s
  | some r =>
    if s.now < r.land then s
    else s.updCore n (fun c => { c with results := c.results.filter (fun x => x.id != id) }.land s.now id r.val)

/-! ## Buffers -/

/-- The memory of a typed buffer. -/
def Core.buf (c : Core) (b : Buf) : Memory :=
  match b with
  | .a => c.bufA
  | .c => c.bufC
  | .w => c.bufW

def Core.setBuf (c : Core) (b : Buf) (m : Memory) : Core :=
  match b with
  | .a => { c with bufA := m }
  | .c => { c with bufC := m }
  | .w => { c with bufW := m }

/-- Number of a buffer in a locket and in a mark table (R317). -/
def Buf.num : Buf → Nat
  | .a => 0 | .c => 1 | .w => 2

/-- First address of a buffer's window (R206). -/
def Buf.base : Buf → Nat
  | .a => aBase | .c => cBase | .w => wBase

/-- Bytes of a buffer (R14). -/
def Buf.size : Buf → Nat
  | .a => 524288 | .c => 524288 | .w => 1048576

/-- Bank of a byte of a buffer (R216). -/
def Buf.bank (b : Buf) (off : Nat) : Nat :=
  match b with
  | .a | .w => off / 64 % 32
  | .c => off / 32768

/-- Distinct elements of a list of banks. -/
def distinctBanks (l : List (Buf × Nat)) : List (Buf × Nat) := l.foldl (fun acc x => if acc.contains x then acc else acc ++ [x]) []

/-- The banks of a run of bytes, of those that the buffer has (R216). -/
def runBanks (b : Buf) (off len : Nat) : List (Buf × Nat) :=
  let len := min len (b.size - off)
  if len = 0 then []
  else
    let unit := match b with
      | .c => 32768
      | _ => 64
    distinctBanks ((List.range ((off + len - 1) / unit + 1 - off / unit)).map (fun i => (b, b.bank (unit * (off / unit + i)))))

/-- n bytes of a buffer. -/
def Core.bufRead (c : Core) (b : Buf) (off n : Nat) : Nat := (c.buf b).readN off n

/-- Key of a 32-byte sector in a locket. -/
def sectorKey (b : Buf) (sct : Nat) : Nat := 65536 * b.num + sct

/-- The 4,097th sector: the window closes, a journal-full record is written and the journal is released (R321). -/
def State.journalFull (s : State) (n : Nat) (b : Buf) (off bundle sch : Nat) : State :=
  let s := s.updCore n (fun c => { c with
    locket := none
    regs := { c.regs with stat := closeWindow c.regs.stat } })
  s.emit n 6 bundle sch [b.base + off]

/-- The buffer journal before a write of bits in one sector (R320, R321); `pre` is a write from before the release. -/
def State.journalSector (s : State) (n : Nat) (pre : Bool) (b : Buf) (sct off len val msk bundle sch : Nat) : State :=
  let c := s.core n
  match c.locket with
  | none => s
  | some k =>
    match find? k.sectors (sectorKey b sct), pre with
    | none, true => s
    | none, false =>
      if 4096 ≤ k.sectors.length then s.journalFull n b off bundle sch
      else s.setCore n { c with locket := some { k with
        sectors := put k.sectors (sectorKey b sct) (BitVec.ofNat 256 (c.bufRead b (32 * sct) 32)) } }
    | some old, true =>
      let m := Memory.writeN [] (32 * sct) 32 old.toNat
      s.setCore n { c with locket := some { k with
        sectors := put k.sectors (sectorKey b sct) (BitVec.ofNat 256 ((m.writeBits off len val msk).readN (32 * sct) 32)) } }
    | some _, false => s

/-- Writes the bits of `msk` in `len` bytes of a buffer, with the journal. -/
def State.bufWrite (s : State) (n : Nat) (pre : Bool) (b : Buf) (off len val msk bundle sch : Nat) : State :=
  if len = 0 then s
  else
    let s := (List.range ((off + len - 1) / 32 + 1 - off / 32)).foldl
      (fun s i => s.journalSector n pre b (off / 32 + i) off len val msk bundle sch) s
    s.updCore n (fun c => c.setBuf b ((c.buf b).writeBits off len val msk))

/-- All bits of n bytes. -/
def allBits (n : Nat) : Nat := 2 ^ (8 * n) - 1

/-- A late write takes effect (R194, R232, R233). -/
def State.lateWrite (s : State) (n : Nat) (b : Buf) (w : LateWrite) : State :=
  s.bufWrite n ((s.core n).before w.id) b w.off w.len w.val (allBits w.len) w.bundle w.sch

/-! ## The replay window -/

/-- CORESTAT.WINDOW is cleared (R322). -/
def State.closeWin (s : State) (n : Nat) : State :=
  s.updCore n (fun c => { c with regs := { c.regs with stat := closeWindow c.regs.stat } })

/-! ## Stopping -/

/-- The debug registers at a stop: BHIT names the breakpoints of this stop alone, none for a stop that is no debug stop (R334). -/
def Debug.atStop (d : Debug) (why : StopWhy) : Debug :=
  match why with
  | .debug _ => d
  | _ => { d with bhit := 0 }

/-- Core n stops: it issues no further bundle and drains (R47). The records of a held bundle are written in this cycle
(R329), and the captured loop bodies are released (R118). -/
def State.beginStop (s : State) (n : Nat) (why : StopWhy) : State :=
  let s := s.flushHeld n (s.core n).regs.pc.toNat
  s.updCore n (fun c => { c with
    run := .draining
    stop := some why
    dbg := c.dbg.atStop why
    istore := { c.istore with captured := [] } })

/-- A trap record of the bundle at the pc (R48). -/
def Core.trapAt (c : Core) (cause slots detail : Nat) (addr : Nat) : TrapRec :=
  ⟨cause, slots, detail, BitVec.ofNat 64 addr, c.regs.pc.toNat⟩

/-- TAKING A TRAP (R35, R47, R48): the core stops and drains with the record of its cause; the three trap registers are
written when the drain is complete (`State.writeTrap`). -/
def State.takeTrap (s : State) (n : Nat) (t : TrapRec) : State := s.beginStop n (.trap t)

/-- TRAPINFO of a record (R35). -/
def TrapRec.info (t : TrapRec) : Word := BitVec.ofNat 64 (t.detail % 2 ^ 32 * 2 ^ 32 + t.slots % 256 * 256 + t.cause % 256)

/-- After the drain the trap registers hold the record, and the trap-stop record is written (R35, R331). -/
def State.writeTrap (s : State) (n : Nat) (t : TrapRec) : State :=
  let c := s.core n
  let s := s.setCore n { c with
    trappc := BitVec.ofNat 64 (t.index % 2 ^ 24)
    trapinfo := t.info
    trapaddr := t.addr
    regs := { c.regs with pc := BitVec.ofNat 24 t.index }
    run := .stopped
    stopAt := s.ns }
  s.emit n 7 t.index c.schedule [t.info.toNat, t.addr.toNat, c.regs.cycle]

/-- The innermost loop body of at most 64 bundles, which a resume captures (R118). -/
def captureOf (loops : List LoopEntry) : List (Nat × Nat) :=
  ((loops.filter (fun e => decide (e.last.toNat - e.first.toNat < 64))).take 1).map (fun e => (e.first.toNat, e.last.toNat))

/-- RETURNING from a stop (R308): issue continues at bundle `index`; the mark distance starts again (R33) and the
innermost body that fits is captured again (R118). -/
def State.returnTo (s : State) (n index : Nat) : State :=
  s.updCore n (fun c => { c with
    regs := { c.regs with pc := BitVec.ofNat 24 index }
    run := .running
    stop := none
    markDist := 0
    istore := { c.istore with captured := captureOf c.regs.loops } })

end Sys2Proof.Machine
end

