-- ==== Sys2Proof/Machine/Groups.lean ====
section
/-! DEFINITION. Step groups (R283, R284) and the regions bound to them (R259, R260). -/

namespace Sys2Proof.Machine

/-- Whether an offset lies in group g of an image (R283). -/
def Image.inGroup (i : Image) (g col row : Nat) : Bool :=
  i.groups.any (fun e => e.1 == g && decide (e.2.1 ≤ col) && decide (col < e.2.1 + e.2.2.2.1) &&
    decide (e.2.2.1 ≤ row) && decide (row < e.2.2.1 + e.2.2.2.2))

/-- The mapped members of group g of a launch, in rank order (R284): the row offset leads, then the column offset. -/
def State.members (s : State) (x : Launch) (g : Nat) : List Nat :=
  match s.image? x.vf x.image with
  | none => []
  | some i =>
    (sortBy (fun a b => decide (64 * a.2.2 + a.2.1 ≤ 64 * b.2.2 + b.2.1))
      (x.cores.filter (fun m => i.inGroup g m.2.1 m.2.2))).map (fun m => m.1)

/-- Whether core n is a mapped member of group g of its launch. -/
def State.memberOf (s : State) (n g : Nat) : Bool :=
  match s.launchOf n with
  | some (_, x) => (s.members x g).contains n
  | none => false

/-- The region of the core's launch that covers a commons offset, if it is bound to a group of the core (R260). -/
def State.regionAt (s : State) (n off : Nat) : Option Region :=
  match s.launchOf n with
  | some (l, _) => (s.die (dieOf n)).regions.find? (fun r => r.launch == l && decide (r.base ≤ off / 4096) &&
      decide (off / 4096 < r.base + r.count) && s.memberOf n r.group)
  | none => none

end Sys2Proof.Machine
end

