-- ==== Sys2Proof/Machine/LsPlan.lean ====
section
/-! DEFINITION. An `ls` access as its operands at issue form it (R207, R218 to R224, R231), and what is judged from it: the
address checks (R208 to R210), its banks and ports (R74, R216), its latency (R211) and its reads. -/

namespace Sys2Proof.Machine

/-- Classes of access in the columns of R208. -/
inductive LsClass where
  | sload | sstore | vload | vstore | atomic | tx (init : Bool) | pref
  deriving DecidableEq, Repr

/-- An access: its pieces in lane order with the bits stored, its effective addresses, the value of a scalar store or update, and whether
its lanes are judged one by one (R209, R210). A strided or indexed access has the address of each enabled lane, any other its one; a vector
access without an enabled lane has none (R74). -/
structure Plan where
  cls    : LsClass
  size   : Nat
  byLane : Bool
  pieces : List Piece
  eas    : List Nat
  dest   : Option LoadDest
  col    : Nat
  value  : Word
  deriving DecidableEq, Repr

/-- The address of an access with one address for all its lanes; none when no lane is enabled (R74, R207). -/
def oneAddr (en : LaneMask) (ea : Nat) : List Nat := (enabled en).take 1 |>.map (fun _ => ea)

/-- The addresses of the enabled lanes of a strided or indexed access (R207). -/
def laneEas (en : LaneMask) (addrs : List Nat) : List Nat := (enabled en).map (nth 0 addrs)

/-- The effective addresses of a load (R74, R207). -/
def LoadDest.eas : LoadDest → List Nat
  | .scalar _ _ _ a => [a]
  | .contiguous _ _ _ en a | .broadcast _ _ _ en a | .maskHalf _ _ en a => oneAddr en a
  | .lanes _ _ _ en addrs => laneEas en addrs

/-- A plan of a load. -/
def loadPlan (cls : LsClass) (d : LoadDest) (size : Nat) : Plan := ⟨cls, size, d.byLane, d.pieces, d.eas, some d, 0, 0⟩

/-- Addresses of the lanes of a strided access. -/
def strideAddrs (ea : Nat) (g : Word) : List Nat :=
  allLanes.map (fun (l : Nat) => (((ea : Int) + (l : Int) * g.toInt) % (2 ^ 64 : Nat)).toNat)

/-- Addresses of the lanes of an indexed access (R207): the index is signed at its own width. -/
def indexAddrs (b : Word) (w : Nat) (idx : List Nat) : List Nat :=
  idx.map (fun i => (((b.toNat : Int) + toSigned (4 * w) i) % (2 ^ 64 : Nat)).toNat)

/-- The pieces of a store whose lanes have addresses of their own. -/
def lanePieces (en : LaneMask) (addrs : List Nat) (w : Nat) (vals : List Nat) : List Piece :=
  (enabled en).map (fun l => lanePiece (nth 0 addrs l) w l (nth 0 vals l))

/-- The plan of an atomic. -/
def Core.atomicPlan (c : Core) (col : BitVec 3) (b d : BitVec 6) (sz : BitVec 2) (off : BitVec 32) : Plan :=
  let ea := effAddr (c.sreg b.toNat) off
  let n := 2 ^ sz.toNat
  ⟨.atomic, n, false, [⟨0, ea, n, 0, 0⟩], [ea], some (.scalar d.toNat n false ea), col.toNat, c.sreg d.toNat⟩

/-- The access of an `ls` instruction; `none` for any other. -/
def Core.plan (c : Core) (i : Instr) : Option Plan :=
  match i with
  | .lds b d sz sgn off => some (loadPlan .sload (.scalar d.toNat (2 ^ sz.toNat) sgn (effAddr (c.sreg b.toNat) off)) (2 ^ sz.toNat))
  | .sts col b d sz off =>
    let n := 2 ^ sz.toNat
    let ea := effAddr (c.sreg b.toNat) off
    some ⟨.sstore, n, false, [⟨0, ea, n, (c.sreg d.toNat).toNat % 2 ^ (8 * n), allBits n⟩], [ea], none, col.toNat, c.sreg d.toNat⟩
  | .ldv b k off cl d =>
    some (loadPlan .vload (.contiguous cl d.start.toNat (d.wm1.toNat + 1) (c.mask cl k.toNat)
      (effAddr (c.sreg b.toNat) off)) 0)
  | .stv col b k off cl o =>
    let ea := effAddr (c.sreg b.toNat) off
    let vals := c.lanes cl o
    some ⟨.vstore, 0, false, (enabled (c.mask cl k.toNat)).map (fun l => contiguousPiece ea (o.wm1.toNat + 1) l (nth 0 vals l)),
      oneAddr (c.mask cl k.toNat) ea, none, col.toNat, 0⟩
  | .ldvs b g k off cl d =>
    some (loadPlan .vload (.lanes cl d.start.toNat (d.wm1.toNat + 1) (c.mask cl k.toNat)
      (strideAddrs (effAddr (c.sreg b.toNat) off) (c.sreg g.toNat))) 0)
  | .stvs col b g k off cl o =>
    let en := c.mask cl k.toNat
    let addrs := strideAddrs (effAddr (c.sreg b.toNat) off) (c.sreg g.toNat)
    some ⟨.vstore, 0, true, lanePieces en addrs (o.wm1.toNat + 1) (c.lanes cl o), laneEas en addrs, none, col.toNat, 0⟩
  | .ldvb b k off cl d =>
    some (loadPlan .vload (.broadcast cl d.start.toNat (d.wm1.toNat + 1) (c.mask cl k.toNat)
      (effAddr (c.sreg b.toNat) off)) 0)
  | .ldvx b k x cl d =>
    some (loadPlan .vload (.lanes cl d.start.toNat (d.wm1.toNat + 1) (c.mask cl k.toNat)
      (indexAddrs (c.sreg b.toNat) (x.wm1.toNat + 1) (c.lanes cl x))) 0)
  | .stvx col b k x cl o =>
    let en := c.mask cl k.toNat
    let addrs := indexAddrs (c.sreg b.toNat) (x.wm1.toNat + 1) (c.lanes cl x)
    some ⟨.vstore, 0, true, lanePieces en addrs (o.wm1.toNat + 1) (c.lanes cl o), laneEas en addrs, none, col.toNat, 0⟩
  | .ldk b k off cl m =>
    some (loadPlan .vload (.maskHalf cl m.toNat (c.mask cl k.toNat) (effAddr (c.sreg b.toNat) off)) 0)
  | .stk col b k off cl m =>
    let en := c.mask cl k.toNat
    let ea := effAddr (c.sreg b.toNat) off
    some ⟨.vstore, 0, false, (enabled en).take 1 |>.map (fun l => ⟨l, ea, 32, (c.mask cl m.toNat).toNat, en.toNat⟩), oneAddr en ea,
      none, col.toNat, 0⟩
  | .atadd col b d sz off | .atmin col b d sz off | .atmax col b d sz off | .atminu col b d sz off
  | .atmaxu col b d sz off | .atand col b d sz off | .ator col b d sz off | .atxch col b d sz off =>
    some (c.atomicPlan col b d sz off)
  | .atcas col b d _ sz off => some (c.atomicPlan col b d sz off)
  | .pref b off =>
    let ea := effAddr (c.sreg b.toNat) off
    some ⟨.pref, 1, false, [⟨0, ea, 1, 0, 0⟩], [ea], none, 0, 0⟩
  | .txinit b d off =>
    let ea := effAddr (c.sreg b.toNat) off
    some ⟨.tx true, 16, false, [⟨0, ea, 16, 0, 0⟩], [ea], none, 0, c.sreg d.toNat⟩
  | .txarv b d off =>
    let ea := effAddr (c.sreg b.toNat) off
    some ⟨.tx false, 16, false, [⟨0, ea, 16, 0, 0⟩], [ea], none, 0, c.sreg d.toNat⟩
  | _ => none

/-- The groups of pieces that are judged together (R209, R210). -/
def Plan.groups (p : Plan) : List (List Piece) :=
  if p.byLane then p.pieces.map (fun x => [x]) else if p.pieces = [] then [] else [p.pieces]

/-- The last byte of a piece. -/
def Piece.last (x : Piece) : Nat := (x.addr + x.len - 1) % 2 ^ 64

/-- Reads of the barrier at an A-buffer offset: ARRIVALS (R229). -/
def txArrivals (b : Nat) : Nat := bits b 23 4

/-- The value checks of TXINIT and TXARV (R231). -/
def Core.txValueBad (c : Core) (init : Bool) (addr : Nat) (v : Word) : Bool :=
  if init then decide (v = 0) || decide (2 ^ 20 - 1 < v.toNat)
  else decide (v.toInt < -(2 ^ 39 : Nat)) || decide (((2 ^ 39 - 1 : Nat) : Int) < v.toInt) ||
    decide (txArrivals (c.bufRead .a (addr - aBase) 16) = 0)

/-- The first check of R210 that a group of pieces fails: SUB, or 0 for none. -/
def State.groupSub (s : State) (n : Nat) (p : Plan) (g : List Piece) : Nat :=
  let a := (g.head?.map (fun x => x.addr)).getD 0
  match s.win n a with
  | none => 1
  | some x =>
    if g.any (fun y => s.win n y.addr != some x || s.win n y.last != some x) then 2
    else if p.cls == .atomic && x != .global then 6
    else if x == .csr && !((p.cls == .sload || p.cls == .sstore) && p.size == 8 && decide (a % 8 = 0) &&
        (s.csrRead n ((a - csrBase) / 8)).isSome && (p.cls == .sload || decide ((a - csrBase) / 8 = 1))) then 5
    else
      let space : Bool := match x with
        | .copyAp => !((p.cls == .sload || p.cls == .sstore) && p.size == 8 && decide ((a - copyBase) % 0x1000 = 0))
        | .bankAp => !((p.cls == .sload || p.cls == .sstore) && p.size == 8 && decide ((a - bankBase) % 0x1000 = 0))
        | .commons => (p.cls == .tx true || p.cls == .tx false) ||
            g.any (fun y => (s.regionAt n (y.addr - commonsBase)).isNone || (s.regionAt n (y.last - commonsBase)).isNone)
        | .a => false
        | _ => p.cls == .tx true || p.cls == .tx false
      if space then 3
      else match p.cls with
        | .atomic => if a % p.size = 0 then 0 else 4
        | .tx init => if a % 16 ≠ 0 then 4 else if (s.core n).txValueBad init a p.value then 8 else 0
        | _ => 0

/-- The address fault of an access (R210): SUB, the lane and the first byte of the footprint. PREF never faults (R208). -/
def State.planFault (s : State) (n : Nat) (p : Plan) : Option (Nat × Nat × Nat) :=
  if p.cls == .pref then none
  else p.groups.findSome? (fun g =>
    let sub := s.groupSub n p g
    if sub = 0 then none
    else
      let x := g.head?.getD ⟨0, 0, 0, 0, 0⟩
      some (sub, if p.cls == .vload || p.cls == .vstore then x.lane else 0, x.addr))

/-- DETAIL of an address fault (R210). -/
def addressDetail (sub lane : Nat) : Nat := sub + lane * 2 ^ 8

/-- The typed buffer of an address, with the offset in it. -/
def bufOf (present a : Nat) : Option (Buf × Nat) :=
  match winOf present a with
  | some .a => some (.a, a - aBase)
  | some .c => some (.c, a - cBase)
  | some .w => some (.w, a - wBase)
  | _ => none

/-- The bytes of a range of addresses that lie in a typed buffer: buffer, offset, length. -/
def rangeRuns (a len : Nat) : List (Buf × Nat × Nat) :=
  [Buf.a, .c, .w].filterMap (fun b =>
    let lo := max a b.base
    let hi := min (a + len) (b.base + b.size)
    if lo < hi then some (b, lo - b.base, hi - lo) else none)

/-- The runs of typed-buffer bytes at the addresses of an access. -/
def Plan.runs (p : Plan) : List (Buf × Nat × Nat) := p.pieces.flatMap (fun x => rangeRuns x.addr x.len)

/-- The runs of typed-buffer bytes that an access reads or writes; PREF touches none (R228). -/
def Plan.bufRuns (p : Plan) : List (Buf × Nat × Nat) := if p.cls == .pref then [] else p.runs

/-- The bank set of an access (R216). -/
def Plan.banks (p : Plan) : List (Buf × Nat) := distinctBanks (p.bufRuns.flatMap (fun r => runBanks r.1 r.2.1 r.2.2))

/-- The buffer ports of R74. -/
inductive PortUse where
  | aRead | aWrite | cAccess | wAccess
  deriving DecidableEq, Repr

/-- The class reads its location. -/
def LsClass.isRead : LsClass → Bool
  | .sload | .vload | .tx _ => true
  | _ => false

/-- The class writes its location. -/
def LsClass.isWrite : LsClass → Bool
  | .sstore | .vstore | .tx _ => true
  | _ => false

/-- The ports that an access uses (R74), by its effective addresses; a PREF counts at the C and W ports, and at neither A port. -/
def Plan.ports (p : Plan) : List PortUse :=
  let inBuf := fun (b : Buf) => p.eas.any (fun a => decide (b.base ≤ a) && decide (a < b.base + b.size))
  (if inBuf .a && p.cls.isRead then [.aRead] else []) ++ (if inBuf .a && p.cls.isWrite then [.aWrite] else []) ++
    (if inBuf .c then [.cAccess] else []) ++ (if inBuf .w then [.wAccess] else [])

/-- The C tiles at the addresses of an access (R74). -/
def Plan.tiles (p : Plan) : List Nat :=
  distinct ((p.runs.filter (fun r => r.1 == .c)).flatMap (fun r =>
    if r.2.2 = 0 then [] else [r.2.1 / 32768, (r.2.1 + r.2.2 - 1) / 32768]))

/-- Some byte of the access lies in global memory. -/
def Plan.global (p : Plan) : Bool := p.cls != .pref && p.pieces.any (fun x => decide (x.addr < 2 ^ 52))

/-- Latency of the part of a load at an address outside global memory (R211). -/
def State.addrLat (s : State) (n a : Nat) : Nat :=
  match s.win n a with
  | some .w => 8
  | some .commons =>
    4 + hops (localOf n) ((s.die (dieOf n)).hallmark.host ((a - commonsBase) / 4096)) * (s.core n).hopLat
  | some .csr => 2
  | some .copyAp | some .bankAp => 4
  | _ => (s.core n).ldbufLat

/-- Latency of a load; `none` when it is long-pending (R41, R207, R211). A load whose lanes reach several windows outside global memory
lands whole after the largest of their latencies (DESIGN CHOICE, log 45). -/
def State.planLat (s : State) (n : Nat) (p : Plan) : Option Nat :=
  if p.global then none
  else match p.pieces with
    | [] => some (s.core n).ldbufLat
    | ps => some (ps.foldl (fun m x => max m (max (s.addrLat n x.addr) (s.addrLat n x.last))) 0)

/-- Jobs queued or running in a queue of core n (R226, R227). -/
def State.jobCount (s : State) (n q : Nat) : Nat :=
  ((s.die (dieOf n)).jobs.filter (fun j => j.core == n && j.queue == q && j.state != .complete)).length +
    ((s.core n).performs.filter (fun p => match p with
      | .start j => j.queue == q
      | _ => false)).length

/-- n bytes at an address outside global memory, as a load reads them at issue (R211, R212, R227, R250). -/
def State.localRead (s : State) (n a len : Nat) : Nat :=
  match s.win n a with
  | some .a => (s.core n).bufRead .a (a - aBase) len
  | some .c => (s.core n).bufRead .c (a - cBase) len
  | some .w => (s.core n).bufRead .w (a - wBase) len
  | some .commons => (s.die (dieOf n)).commons.readN (a - commonsBase) len
  | some .copyAp => s.jobCount n ((a - copyBase) / 0x1000) % 2 ^ (8 * len)
  | some .bankAp => s.jobCount n (16 + (a - bankBase) / 0x1000) % 2 ^ (8 * len)
  | some .csr => ((s.csrRead n ((a - csrBase) / 8)).getD 0).toNat % 2 ^ (8 * len)
  | _ => 0

/-- The global bytes of an access, each once. -/
def Plan.globalAddrs (p : Plan) : List Nat :=
  if p.cls == .pref then []
  else distinct ((p.pieces.flatMap (fun x => (List.range x.len).map (fun i => (x.addr + i) % 2 ^ 64))).filter (fun a =>
    decide (a < 2 ^ 52)))

/-- The bytes of a store piece's footprint: (address, value, mask of the bits written). -/
def Piece.cells (x : Piece) : List (Nat × Byte × Byte) :=
  (List.range x.len).map (fun i => ((x.addr + i) % 2 ^ 64, BitVec.ofNat 8 (x.val / 2 ^ (8 * i)),
    BitVec.ofNat 8 (x.mask / 2 ^ (8 * i))))

/-- The bytes of the footprint of a store in global memory (R213, R223); those of a straddling store behind its end are none (R209). -/
def State.globalCells (s : State) (n : Nat) (p : Plan) : List (Nat × Byte × Byte) :=
  ((p.pieces.filter (fun x => s.win n x.addr == some .global)).flatMap Piece.cells).filter (fun e => decide (e.1 < 2 ^ 52))

/-- The sector parts of a global load (R243). -/
def loadParts (as : List Nat) (due : Nat) : List LoadPart :=
  (sectorsOf as).map (fun sct => ⟨sct, BitVec.ofNat 32 ((as.filter (fun a => a / 32 == sct)).foldl
    (fun m a => m ||| 2 ^ (a % 32)) 0), due, false⟩)

end Sys2Proof.Machine
end

