-- ==== Sys2Proof/Machine/MxPlan.lean ====
section
/-! DEFINITION. The matrix unit: its timing and banks (R193, R194), the tiles an instruction reaches and the tile hazards
(R195, R196), operand elements with their scales (R189 to R192) and the values computed (R200 to R204). -/

namespace Sys2Proof.Machine

/-! ## Timing, banks, tiles -/

/-- The shape of an array instruction (R189). -/
def mxShape (i : Instr) : Option (Shape × MFmt × MFmt × Nat × Nat) :=
  match i with
  | .mma af bf _ a w | .mmz af bf _ a w | .mmat af bf _ a w | .mmzt af bf _ a w =>
    match mfmt af.toNat, mfmt bf.toNat with
    | some x, some y => (shapeOf x y).map (fun s => (s, x, y, 256 * a.toNat, 256 * w.toNat))
    | _, _ => none
  | _ => none

/-- The tiles that an `mx` instruction names (R74). -/
def mxTiles (i : Instr) : List Nat :=
  match i with
  | .mma _ _ t _ _ | .mmz _ _ t _ _ | .mmat _ _ t _ _ | .mmzt _ _ t _ _ => [t.toNat]
  | .mclr t => [t.toNat]
  | .maddc t u => [t.toNat, u.toNat]
  | .mcvt _ t _ _ | .mldc _ t _ _ | .mbias _ t _ _ => [t.toNat]
  | .mstc _ t _ => [t.toNat]
  | _ => []

/-- The tiles whose bytes an instruction reads without forwarding. -/
def mxReads (i : Instr) : List Nat :=
  match i with
  | .maddc t u => [t.toNat, u.toNat]
  | .mcvt _ t _ _ | .mbias _ t _ _ => [t.toNat]
  | .mstc _ t _ => [t.toNat]
  | _ => []

/-- The tile whose accumulators an instruction starts from (R196). -/
def mxStart (i : Instr) : Option Nat :=
  match i with
  | .mma _ _ t _ _ | .mmat _ _ t _ _ => some t.toNat
  | _ => none

/-- The tile that an instruction writes. -/
def mxWrite (i : Instr) : Option Nat :=
  match i with
  | .mma _ _ t _ _ | .mmz _ _ t _ _ | .mmat _ _ t _ _ | .mmzt _ _ t _ _ => some t.toNat
  | .mclr t | .maddc t _ => some t.toNat
  | .mldc _ t _ _ | .mbias _ t _ _ => some t.toNat
  | _ => none

/-- Cycles for which an array instruction occupies the array; 0 for any other (R193). -/
def mxBusy (i : Instr) : Nat :=
  match mxShape i with
  | some (s, _) => s.q
  | none => 0

/-- Cycles from issue to landing (R194). -/
def Core.mxLat (c : Core) (i : Instr) : Nat :=
  match i with
  | .mclr _ => 1
  | .maddc _ _ | .mstc .. => 8
  | .mcvt .. | .mldc .. | .mbias .. => 4
  | _ => mxBusy i + c.drainLat

/-- The bytes of the A buffer that MSTC writes: offset and length (R204). -/
def mstcRange (af : BitVec 5) (aoff : BitVec 11) : Nat × Nat :=
  (256 * aoff.toNat, match tileFmt af true with
    | some f => mstcBytes f
    | none => 0)

/-- The banks of an instruction with the number of cycles after issue through which each is reserved (R193). -/
def Core.mxBanks (c : Core) (i : Instr) : List (Buf × Nat × Nat) :=
  let tile := fun (last : Nat) => (distinct (mxTiles i)).map (fun t => (Buf.c, t, last))
  match i with
  | .mstc af _ aoff =>
    let (o, n) := mstcRange af aoff
    tile 0 ++ (runBanks .a o n).map (fun b => (b.1, b.2, c.mxLat i))
  | .mcvt .. => tile 0
  | _ =>
    match mxShape i with
    | some (s, x, y, a, w) =>
      (runBanks .a a (s.aBytes x)).map (fun b => (b.1, b.2, s.q - 1)) ++
        (runBanks .w w (s.bBytes y)).map (fun b => (b.1, b.2, s.q - 1)) ++ tile (c.mxLat i)
    | none => tile (c.mxLat i)

/-- Pending landings on a tile after cycle `now`. -/
def Core.pendingOn (c : Core) (now t : Nat) : List TileLanding := c.tiles.filter (fun l => l.tile == t && decide (now < l.land))

/-- The pending landing on a tile that lands last. -/
def Core.lastOn (c : Core) (now t : Nat) : Option TileLanding :=
  (c.pendingOn now t).foldl (fun m l => match m with
    | none => some l
    | some x => if x.land ≤ l.land then some l else some x) none

/-- The tiles of an `mx` instruction that are in tile hazard (R195, R196). -/
def Core.mxHazard (c : Core) (now : Nat) (i : Instr) : List Nat :=
  let reads := (mxReads i).filter (fun t => !(c.pendingOn now t).isEmpty)
  let start := match mxStart i with
    | some t => match c.lastOn now t with
      | some l => if l.array then [] else [t]
      | none => []
    | none => []
  let write := match mxWrite i with
    | some t => if (c.pendingOn now t).any (fun l => decide (now + c.mxLat i ≤ l.land)) then [t] else []
    | none => []
  distinct (reads ++ start ++ write)

/-! ## Operands and values -/

/-- A stored element as a value, unscaled. -/
def storedElem (f : MFmt) (x : Nat) : FVal :=
  match f with
  | .num (.flt .e8m10) => FFmt.e8m10.value (x / 2 ^ 13)
  | .num t => (t.value x).toF
  | .bfp m => .fin (decide (toSigned m x < 0)) (toSigned m x).natAbs (2 - (m : Int))

/-- An element under the scale of its row, column or block (R89, R90, R192): byte `row` of the scale register, or byte
2·row + block. -/
def scaledElem (f : MFmt) (sc : Scaling) (scale : BitVec 2048) (row k x : Nat) : FVal :=
  let e := match sc with
    | .plain => 127
    | .mx => elemAt 8 scale.toNat row
    | .bfp => elemAt 8 scale.toNat (2 * row + k / 16)
  if sc != .plain && e == 0xFF then .nan else (storedElem f x).scale ((e : Int) - 127)

/-- An element of an integer format. -/
def storedInt (f : MFmt) (x : Nat) : Int :=
  match f with
  | .num t => (t.value x).toI
  | .bfp m => toSigned m x

/-- The accumulator format as a number format. -/
def AccFmt.num : AccFmt → NumFmt
  | .fp64 => .flt .f64
  | .fp32 => .flt .f32
  | .int32 => .int true 32

/-- The floating format of an accumulator. -/
def AccFmt.flt : AccFmt → FFmt
  | .fp64 => .f64
  | _ => .f32

/-- One accumulator of a product (R105, R106, R107, R200). -/
def dotAcc (s : Shape) (start : Nat) (a b : List FVal) (ai bi : List Int) : Nat :=
  match s.acc with
  | .int32 => toPattern 32 ((start : Int) + (List.zipWith (· * ·) ai bi).foldl (· + ·) 0)
  | f => groupedSum f.flt s.group start (List.zipWith FVal.mul a b)

/-- The accumulators of a product as M·N packed elements (R190, R192, R200): `a` and `b` are the operand bytes; `trans`
reads B by rows; `src` gives the start of accumulator i. -/
def matProduct (s : Shape) (fa fb : MFmt) (a b : Nat) (sa sb : BitVec 2048) (trans : Bool) (src : Nat → Nat) : Nat :=
  let wa := fa.storeWidth
  let wb := fb.storeWidth
  let ra := fun m k => elemAt wa a (m * s.k + k)
  let rb := fun k n => elemAt wb b (if trans then k * s.n + n else n * s.k + k)
  let ks := List.range s.k
  let isInt := s.acc == .int32
  let rowsA := (List.range s.m).map (fun m =>
    if isInt then ([], ks.map (fun k => storedInt fa (ra m k)))
    else (ks.map (fun k => scaledElem fa s.scaling sa m k (ra m k)), []))
  let colsB := (List.range s.n).map (fun n =>
    if isInt then ([], ks.map (fun k => storedInt fb (rb k n)))
    else (ks.map (fun k => scaledElem fb s.scaling sb n k (rb k n)), []))
  packBits (8 * s.acc.bytes) ((List.range s.m).zip rowsA |>.flatMap (fun (m, x) =>
    (List.range s.n).zip colsB |>.map (fun (n, y) => dotAcc s (src (m * s.n + n)) x.1 y.1 x.2 y.2)))

/-- The bytes of a tile. -/
def Core.tileBytes (c : Core) (t : Nat) : Nat := c.bufRead .c (32768 * t) 32768

/-- The starting bytes of MMA and MMAT: a pending array landing is forwarded (R196). Where it has fewer accumulator bytes than the new
product, the bytes beyond them are the tile's at issue, without a tile hazard (DESIGN CHOICE, log 45). -/
def Core.startBytes (c : Core) (now t : Nat) : Nat :=
  let old := c.tileBytes t
  match c.lastOn now t with
  | some l => if l.array then mergeBits old (l.val * 2 ^ (8 * l.off)) (allBits l.len * 2 ^ (8 * l.off)) else old
  | none => old

/-- The start of MMZ and MMZT: −0, or 0 for INT32 (R200). -/
def zeroStart : AccFmt → Nat
  | .fp64 => 2 ^ 63
  | .fp32 => 2 ^ 31
  | .int32 => 0

/-- The accumulators an array instruction lands: their bytes and length (R200). -/
def Core.arrayResult (c : Core) (now : Nat) (af bf : BitVec 5) (t : BitVec 4) (aoff : BitVec 11) (woff : BitVec 12)
    (zero trans : Bool) : Nat × Nat :=
  match mfmt af.toNat, mfmt bf.toNat with
  | some x, some y =>
    match shapeOf x y with
    | some s =>
      let a := c.bufRead .a (256 * aoff.toNat) (s.aBytes x)
      let b := c.bufRead .w (256 * woff.toNat) (s.bBytes y)
      let old := if zero then 0 else c.startBytes now t.toNat
      let src := fun i => if zero then zeroStart s.acc else elemAt (8 * s.acc.bytes) old i
      (matProduct s x y a b c.regs.scaleA c.regs.scaleB trans src, s.m * s.n * s.acc.bytes)
    | none => (0, 0)
  | _, _ => (0, 0)

/-- The sum of two tiles as FP32 words (R202). -/
def Core.addTiles (c : Core) (t u : Nat) : Nat :=
  let x := c.tileBytes t
  let y := c.tileBytes u
  packBits 32 ((List.range 8192).map (fun i =>
    FFmt.f32.round ((FFmt.f32.value (elemAt 32 x i)).add (FFmt.f32.value (elemAt 32 y i)))))

/-- Accumulators read out into a format: integers saturate (R203, R204). -/
def readout (acc : AccFmt) (f : NumFmt) (x : Nat) : Nat :=
  convertPattern (acc.num.value x) f (match acc with
    | .int32 => true
    | _ => false)

/-- The accumulator format of an element format (R188). -/
def accOf (f : NumFmt) : AccFmt := (MFmt.num f).acc

/-- The lane values of MCVT (R203). -/
def Core.cvtLanes (c : Core) (f : NumFmt) (t : Nat) (o : SliceOp) : List Nat :=
  let g := tileG f o
  let acc := accOf f
  let x := c.tileBytes t
  allLanes.map (fun l => packBits f.width ((List.range g).map (fun k => readout acc f (elemAt (8 * acc.bytes) x (g * l + k)))))

/-- The accumulators that MLDC and MBIAS land: bytes and length (R203). -/
def Core.ldcBytes (c : Core) (f : NumFmt) (t : Nat) (cl : Bool) (o : SliceOp) (bias : Bool) : Nat × Nat :=
  let g := tileG f o
  let acc := accOf f
  let b := 8 * acc.bytes
  let x := c.tileBytes t
  let vals := c.lanes cl o
  let one := fun l k =>
    let v := convertPattern (f.value (elemAt f.width (nth 0 vals l) k)) acc.num false
    if bias then
      match acc with
      | .int32 => (elemAt b x (g * l + k) + v) % 2 ^ 32
      | a => a.flt.round ((a.flt.value (elemAt b x (g * l + k))).add (a.flt.value v))
    else v
  (packBits b (allLanes.flatMap (fun l => (List.range g).map (fun k => one l k))), 256 * g * acc.bytes)

/-- The array that MSTC writes (R204). -/
def Core.stcBytes (c : Core) (f : NumFmt) (t : Nat) : Nat :=
  let acc := accOf f
  let x := c.tileBytes t
  let n := 32768 / acc.bytes
  match f with
  | .flt .e8m10 => packBits 32 ((List.range n).map (fun i => readout acc f (elemAt 32 x i) * 2 ^ 13))
  | _ => packBits f.width ((List.range n).map (fun i => readout acc f (elemAt (8 * acc.bytes) x i)))

end Sys2Proof.Machine
end

