-- ==== Sys2Proof/Machine/Checks.lean ====
section
/-! DEFINITION. The checks of an issue cycle that one instruction meets (R307, item 6): illegal encodings (R77), units out of
service (R346), the control conditions (R110), VCMPU (R175) and addresses (R210); and the next bundle of R112. -/

namespace Sys2Proof.Machine

/-! ## The next bundle -/

/-- The loop step at p (R119): the next bundle and the stack. -/
def loopStep (p : Nat) : List LoopEntry → Nat × List LoopEntry
  | [] => (p + 1, [])
  | e :: rest =>
    if e.iter.toNat + 1 < e.trip.toNat then (e.first.toNat, { e with iter := e.iter + 1 } :: rest)
    else match rest with
      | [] => (p + 1, [])
      | f :: more => if f.last.toNat ≠ p then (p + 1, f :: more) else loopStep p (f :: more)

/-- The bundle after p when its `ct` neither transfers control nor is LEXIT, POOL or HALT (R112). -/
def stepOn (p : Nat) (loops : List LoopEntry) : Nat × List LoopEntry :=
  match loops with
  | [] => (p + 1, [])
  | e :: rest => if e.last.toNat = p then loopStep p (e :: rest) else (p + 1, e :: rest)

/-- Opening a loop (R118). -/
def openLoop (p trip : Nat) (last : BitVec 24) (loops : List LoopEntry) : Nat × List LoopEntry :=
  if trip = 0 then (last.toNat + 1, loops)
  else (p + 1, ⟨BitVec.ofNat 32 trip, 0, last, BitVec.ofNat 24 (p + 1)⟩ :: loops)

/-- The next bundle and the loop stack after the commit of the bundle at the pc with this `ct` instruction (R112); HALT selects
none and discards the stack (R133). -/
def Core.nextOf (c : Core) (i : Instr) : Option Nat × List LoopEntry :=
  let p := c.regs.pc.toNat
  let loops := c.regs.loops
  let go := fun (t : Nat) => (some t, loops)
  let of := fun (r : Nat × List LoopEntry) => (some r.1, r.2)
  match i with
  | .halt => (none, [])
  | .br j => if c.cond j.toNat then go (c.target j.toNat).toNat else of (stepOn p loops)
  | .brn j => if c.cond j.toNat then of (stepOn p loops) else go (c.target j.toNat).toNat
  | .jmp t => go t.toNat
  | .call t => go t.toNat
  | .calli x _ => go ((c.sreg x.toNat).toNat % 2 ^ 24)
  | .ret => go ((c.sreg 63).toNat % 2 ^ 24)
  | .lexit => (some (p + 1), loops.tail)
  | .pool n => go (p + 1 + n.toNat)
  | .loop x last => of (openLoop p (c.sreg x.toNat).toNat last loops)
  | .loopi n last => of (openLoop p n.toNat last loops)
  | _ => of (stepOn p loops)

/-- The image length N of R112: the lines of the image, 0 without one (R51). -/
def State.imageLen (s : State) (n : Nat) : Nat :=
  match s.imageOf n with
  | some i => i.nlines
  | none => 0

/-- The captured loop bodies after a commit, with the depth before it: each stays until its entry is popped, and a LOOP or LOOPI that opens
a body of at most 64 bundles within no captured one captures it (R118). Bodies captured side by side all stay exempt, also where they have
more than 64 bundles together (DEDUCED, log 16). -/
def nextCapture (old : List (Nat × Nat)) (depth : Nat) (loops : List LoopEntry) : List (Nat × Nat) :=
  let kept := old.filter (fun b => loops.any (fun e => e.first.toNat == b.1 && e.last.toNat == b.2))
  match loops with
  | e :: _ =>
    if depth < loops.length ∧ e.last.toNat - e.first.toNat < 64 ∧
        kept.all (fun b => decide (e.first.toNat < b.1) || decide (b.2 < e.last.toNat)) = true then
      (e.first.toNat, e.last.toNat) :: kept
    else kept
  | [] => []

/-- The commit of a `ct` instruction's bundle: the sequencer moves on (R112, R119). -/
def State.advance (s : State) (n : Nat) (i : Instr) : State :=
  s.updCore n (fun c =>
    let (nxt, loops) := c.nextOf i
    { c with
      regs := { c.regs with
        pc := match nxt with
          | some t => BitVec.ofNat 24 t
          | none => c.regs.pc
        loops := loops }
      istore := { c.istore with captured := nextCapture c.istore.captured c.regs.loops.length loops } })

/-! ## Checks -/

/-- The bit of a slot in TRAPINFO.SLOTS. -/
def slotBit (sl : Slot) : Nat := 2 ^ sl.index

/-- DETAIL of an illegal bundle from its decode reasons (R77). -/
def Reasons.detail (r : Reasons) : Nat :=
  b2n r.opcode + 2 * b2n r.type + 4 * b2n r.operand + 8 * b2n r.reserved + 512 * b2n r.csr

/-- The conditions of a `ct` instruction in the order of its pseudocode, TARGET last (R110): SUB and TRAPADDR. -/
def State.ctSub (s : State) (n : Nat) (i : Instr) : Option (Nat × Nat) :=
  let c := s.core n
  let p := c.regs.pc.toNat
  let loops := c.regs.loops
  let len := s.imageLen n
  let target := match (c.nextOf i).1 with
    | some t => if len ≤ t then some (5, 0) else none
    | none => none
  let first := fun (l : List (Bool × Nat)) => match l.find? (fun e => e.1) with
    | some e => some (e.2, 0)
    | none => target
  let lend := fun (last : BitVec 24) => decide (last.toNat ≤ p) || (match loops with
    | e :: _ => decide (e.last.toNat < last.toNat) || decide (p = e.last.toNat)
    | [] => false)
  match i with
  | .calli x cls =>
    let t := (c.sreg x.toNat).toNat
    let entry := match s.imageOf n with
      | some im => getD 0 im.classes t
      | none => 0
    first [(decide (2 ^ 24 ≤ t), 5), (decide (entry ≠ cls.toNat), 6)]
  | .ret => first [(decide (2 ^ 24 ≤ (c.sreg 63).toNat), 5)]
  | .loop x last =>
    let t := (c.sreg x.toNat).toNat
    first [(lend last, 3), (decide (2 ^ 32 ≤ t), 4), (decide (t ≠ 0) && decide (6 ≤ loops.length), 1)]
  | .loopi t last => first [(lend last, 3), (decide (t.toNat ≠ 0) && decide (6 ≤ loops.length), 1)]
  | .lexit => first [(loops.isEmpty, 2)]
  | .step g => first [(!s.memberOf n g.toNat, 9)]
  | .bari k x =>
    let v := (c.sreg x.toNat).toNat
    match s.launchOf n with
    | some (_, l) =>
      let q := l.clasp k.toNat
      first [(decide (v = 0) || decide (l.cores.length < v), 10),
        (q.init && (decide (q.count ≠ v) || decide (0 < q.arrived)), 10)]
    | none => some (10, 0)
  | .bara k _ | .baraw k _ =>
    let o := c.clasp k.toNat
    match s.launchOf n with
    | some (_, l) => first [(!(l.clasp k.toNat).init || (o.aval && !o.adone), 11)]
    | none => some (11, 0)
  | .barw k =>
    match s.launchOf n with
    | some (_, l) => first [(!(l.clasp k.toNat).init || !(c.clasp k.toNat).aval, 12)]
    | none => some (12, 0)
  | .txwait x _ =>
    let a := (c.sreg x.toNat).toNat
    if a % 16 ≠ 0 ∨ a < aBase ∨ aBase + 0x80000 < a + 16 then some (13, a) else target
  | .trap _ => none
  | _ => target

/-- The control fault or software trap of a `ct` instruction (R110, R111). The software trap stands at the control fault's place among the checks
of the issue cycle (DESIGN CHOICE, log 50). -/
def State.controlFault (s : State) (n : Nat) (i : Instr) : Option TrapRec :=
  match slotOf i with
  | some .ct =>
    match i with
    | .trap code => some ((s.core n).trapAt 4 1 code.toNat 0)
    | _ => (s.ctSub n i).map (fun e => (s.core n).trapAt 3 1 e.1 e.2)
  | _ => none

/-- ENABLED and ONES of a VCMPU whose enabled lanes disagree (R174, R175). -/
def Core.nonUniform (c : Core) (i : Instr) : Option (Nat × Nat) :=
  match i with
  | .vcmpu u k _ m =>
    let e := c.mask (clusterOf u) k.toNat
    let enabledN := popCount 256 e.toNat
    let ones := popCount 256 (e &&& c.mask (clusterOf u) m.toNat).toNat
    if 0 < ones ∧ ones < enabledN then some (enabledN, ones) else none
  | _ => none

/-- DETAIL of the non-uniform-condition trap (R175). -/
def nonUniformDetail (e : Nat × Nat) : Nat := e.2 + e.1 * 2 ^ 16

/-- PARK or UNPK touches a C tile that is not free (R233): the access's first address. -/
def Core.parkBad (c : Core) (i : Instr) : Option Nat :=
  match i with
  | .park coff _ o | .unpk coff _ o =>
    let lo := 128 * coff.toNat / 32768
    let hi := (128 * (coff.toNat + o.wm1.toNat + 1) - 1) / 32768
    if (List.range (hi + 1 - lo)).all (fun j => c.parkmap.getLsbD (lo + j)) then none else some (cBase + 128 * coff.toNat)
  | _ => none

/-- The banks of an `sf` instruction (R216). -/
def sfBanks (i : Instr) : List (Buf × Nat) :=
  match i with
  | .slda sel a | .sldb sel a => runBanks .a (16 * a.toNat) (16 * (sel.toNat + 1))
  | .fill _ n a => runBanks .a (16 * a.toNat) (16 * (n.toNat + 1))
  | .park coff _ o | .unpk coff _ o => runBanks .c (128 * coff.toNat) (128 * (o.wm1.toNat + 1))
  | _ => []

/-- The A bank of the barrier that a TXWAIT reads (R131, R216). -/
def Core.waitBanks (c : Core) (i : Instr) : List (Buf × Nat) :=
  match i with
  | .txwait x _ => match bufOf 0 (c.sreg x.toNat).toNat with
    | some (.a, off) => runBanks .a off 16
    | _ => []
  | _ => []

/-- The hallmark unit that an instruction would use and that is not in service: SOURCE and UNIT (R305, R346). Of several it is that of the lowest
slot, and within a slot the order of this definition (DESIGN CHOICE, log 50). -/
def State.outOfService (s : State) (n : Nat) (i : Instr) : Option (Nat × Nat) :=
  let r := s.recOf n
  if r = CoreRec.full then none
  else
    let c := s.core n
    let locs := sourcesOf i ++ destsOf i
    let plan : Option Plan := c.plan i
    let banks := (c.mxBanks i).map (fun b => (b.1, b.2.1)) ++ sfBanks i ++ c.waitBanks i ++ (match plan with
      | some p => p.banks
      | none => [])
    let bad := banks.find? (fun b => match b.1 with
      | .a => !r.abank.getLsbD b.2
      | .c => !r.cbank.getLsbD b.2
      | .w => !r.wbank.getLsbD b.2)
    let chan := match plan with
      | some p => if p.cls = LsClass.sstore then match p.pieces with
          | x :: _ => if copyBase ≤ x.addr ∧ x.addr < copyBase + 0x10000 ∧ !r.chan.getLsbD ((x.addr - copyBase) / 0x1000)
              then some ((x.addr - copyBase) / 0x1000) else none
          | [] => none
        else none
      | none => none
    if !r.cla && locs.any (fun l => l.kind == .sliceA) then some (1, 0)
    else if !r.clb && locs.any (fun l => l.kind == .sliceB) then some (1, 1)
    else if !r.mx && decide (0 < mxBusy i) then some (9, 0)
    else match bad with
      | some b => some (3 + (match b.1 with
          | .a => 0 | .c => 1 | .w => 2), b.2)
      | none => chan.map (fun ch => (10, ch))

/-- DETAIL of R305. -/
def errDetail (source unit : Nat) : Nat := source * 2 ^ 16 + unit

/-- The illegal-bundle trap of an ill-formed instruction (R77). -/
def State.illegalFault (s : State) (n : Nat) (i : Instr) : Option TrapRec :=
  match slotOf i with
  | some sl => if instrReasons i = Reasons.none then none
      else some ((s.core n).trapAt 1 (slotBit sl) (instrReasons i).detail 0)
  | none => none

/-- The RETIRE of a unit out of service (R346). -/
def State.serviceFault (s : State) (n : Nat) (i : Instr) : Option TrapRec :=
  (s.outOfService n i).map (fun e => (s.core n).trapAt 16 0 (errDetail e.1 e.2) 0)

/-- The address fault of an `ls` or `sf` instruction (R210). -/
def State.addressFault (s : State) (n : Nat) (i : Instr) : Option TrapRec :=
  match (s.core n).plan i with
  | some p => (s.planFault n p).map (fun e => (s.core n).trapAt 7 0x40 (addressDetail e.1 e.2.1) e.2.2)
  | none => ((s.core n).parkBad i).map (fun a => (s.core n).trapAt 7 0x80 7 a)

/-- The non-uniform-condition trap of VCMPU (R175). -/
def State.uniformFault (s : State) (n : Nat) (i : Instr) : Option TrapRec :=
  match slotOf i with
  | some sl => ((s.core n).nonUniform i).map (fun e => (s.core n).trapAt 5 (slotBit sl) (nonUniformDetail e) 0)
  | none => none

/-- What an instruction raises instead of taking effect, in the order of R307: illegal encoding, unit out of service, control,
non-uniform condition, address. -/
def State.faultOf (s : State) (n : Nat) (i : Instr) : Option TrapRec :=
  (s.illegalFault n i) <|> (s.serviceFault n i) <|> (s.controlFault n i) <|> (s.uniformFault n i) <|> (s.addressFault n i)

/-- The meaning of a slot instruction on the core `cur`: it takes the trap it raises, or else its effect. -/
def slotExec (i : Instr) (s : State) (eff : State → State) : Host.Outcome State Fault Refusal :=
  match s.faultOf s.cur i with
  | some t => .next (s.takeTrap s.cur t)
  | none => .next (eff s)

/-- The meaning of a `ct` instruction: its effect, then the commit of R112. -/
def ctExec (i : Instr) (s : State) (eff : State → State) : Host.Outcome State Fault Refusal :=
  slotExec i s (fun s => (eff s).advance s.cur i)

end Sys2Proof.Machine
end

