-- ==== Sys2Proof/Machine/Lanes.lean ====
section
/-! DEFINITION. The shared lane operations of the vector slots (R156, R160 to R184). -/

namespace Sys2Proof

/-- Width in slices of an operand. -/
def SliceOp.w (o : SliceOp) : Nat := o.wm1.toNat + 1

end Sys2Proof

namespace Sys2Proof.Machine

/-- The latency of R158 by class. -/
def latIF (ty : BitVec 4) (i f : Nat) : Nat := if isClassI ty then i else f

/-- The source patterns widen(V, T) of the lanes (R93, R156). -/
def Core.patterns (c : Core) (cl : Bool) (t : NumFmt) (o : SliceOp) : List Nat := (c.lanes cl o).map (widen t o.w)

/-- A result on slices of a cluster in the lanes of `en`. -/
def sliceResult (cl : Bool) (d : SliceOp) (en : LaneMask) (vals : List Nat) : ResVal :=
  .slices cl d.start.toNat en (linesOf d.w vals)

/-- Records lane values in the slot's cluster under the K mask (R156). -/
def lanesTo (u : VectorSlot) (lat : Nat) (k : BitVec 4) (d : SliceOp) (f : Core → List Nat) (s : State) : State :=
  let c := s.core s.cur
  s.record s.cur u.slot.index lat (sliceResult (clusterOf u) d (c.mask (clusterOf u) k.toNat) (f c))

/-- Places an exact integer, or a float rounded once, in w slices (R94, R95, R98). -/
def placeExact (t : NumFmt) (w : Nat) (sat : Bool) (i : Int) (x : FVal) : Nat :=
  match t with
  | .int _ _ => fit t w sat (.int i)
  | .flt f => fit t w false (.pat (f.round x))

/-- Places a pattern of T (R94). -/
def placePat (t : NumFmt) (w p : Nat) : Nat := fit t w false (patConv t p)

/-- A lanewise operation on two sources, exact on integers and on floats (R161). -/
def arith2 (u : VectorSlot) (ty k : BitVec 4) (sat : Bool) (d x y : SliceOp) (li lf : Nat) (fi : Int → Int → Int)
    (ff : FVal → FVal → FVal) : State → State :=
  let t := vtypeD ty
  lanesTo u (latIF ty li lf) k d (fun c => List.zipWith (fun a b =>
    placeExact t d.w sat (fi (t.value a).toI (t.value b).toI) (ff (t.value a).toF (t.value b).toF))
    (c.patterns (clusterOf u) t x) (c.patterns (clusterOf u) t y))

/-- A lanewise operation on D, X and Y (VFMA, VFMS, R161). -/
def arith3 (u : VectorSlot) (ty k : BitVec 4) (sat : Bool) (d x y : SliceOp) (fi : Int → Int → Int → Int)
    (ff : FVal → FVal → FVal → FVal) : State → State :=
  let t := vtypeD ty
  lanesTo u (latIF ty 3 6) k d (fun c => List.zipWith (fun z (ab : Nat × Nat) =>
    placeExact t d.w sat (fi (t.value z).toI (t.value ab.1).toI (t.value ab.2).toI)
      (ff (t.value z).toF (t.value ab.1).toF (t.value ab.2).toF))
    (c.patterns (clusterOf u) t d)
    (List.zip (c.patterns (clusterOf u) t x) (c.patterns (clusterOf u) t y)))

/-- A lanewise operation on the patterns of one source, placed by `f`. -/
def lanes1 (u : VectorSlot) (lat : Nat) (t : NumFmt) (k : BitVec 4) (d x : SliceOp) (f : Nat → Nat) : State → State :=
  lanesTo u lat k d (fun c => (c.patterns (clusterOf u) t x).map f)

/-- A lanewise operation on the patterns of two sources, placed by `f`. -/
def lanes2 (u : VectorSlot) (lat : Nat) (t : NumFmt) (k : BitVec 4) (d x y : SliceOp) (f : Nat → Nat → Nat) :
    State → State :=
  lanesTo u lat k d (fun c => List.zipWith f (c.patterns (clusterOf u) t x) (c.patterns (clusterOf u) t y))

/-- The smaller operand (R162). -/
def minPat (t : NumFmt) (a b : Nat) : Nat :=
  match t with
  | .int _ _ => if (t.value b).toI < (t.value a).toI then b else a
  | .flt f =>
    if (f.value a).isNaN || (f.value b).isNaN then f.canonicalNaN
    else if (f.value b).before (f.value a) then b else a

/-- The larger operand (R162). -/
def maxPat (t : NumFmt) (a b : Nat) : Nat :=
  match t with
  | .int _ _ => if (t.value a).toI < (t.value b).toI then b else a
  | .flt f =>
    if (f.value a).isNaN || (f.value b).isNaN then f.canonicalNaN
    else if (f.value a).before (f.value b) then b else a

/-- |x| (R163). -/
def absLane (t : NumFmt) (w : Nat) (sat : Bool) (a : Nat) : Nat :=
  match t with
  | .int _ _ => fit t w sat (.int ((t.value a).toI.natAbs : Int))
  | .flt f => fit t w false (.pat (if (f.value a).isNaN then f.canonicalNaN else a % 2 ^ (f.width - 1)))

/-- −x (R163). -/
def negLane (t : NumFmt) (w : Nat) (sat : Bool) (a : Nat) : Nat :=
  match t with
  | .int _ _ => fit t w sat (.int (-(t.value a).toI))
  | .flt f => fit t w false (.pat (if (f.value a).isNaN then f.canonicalNaN else a ^^^ 2 ^ (f.width - 1)))

/-- The immediate of an integer type (R60, R164). -/
def immInt (t : NumFmt) (imm : BitVec 16) : Int :=
  match t with
  | .int s n =>
    let b := min n 16
    if s then toSigned b imm.toNat else ((imm.toNat % 2 ^ b : Nat) : Int)
  | .flt _ => 0

/-- Shifts on an n-bit pattern (R166). -/
def shlPat (t : NumFmt) (a p : Nat) : Nat := p * 2 ^ a % 2 ^ t.width
def shrPat (_ : NumFmt) (a p : Nat) : Nat := p / 2 ^ a
def sraPat (t : NumFmt) (a p : Nat) : Nat := toPattern t.width (toSigned t.width p / (2 ^ a : Nat))

/-- A compare that writes a mask half of the slot's cluster: 0 in lanes that K does not enable (R160, R173). -/
def compareTo (u : VectorSlot) (ty k : BitVec 4) (m : BitVec 6) (x y : SliceOp) (r : Rel) (s : State) : State :=
  let t := vtypeD ty
  let c := s.core s.cur
  let cl := clusterOf u
  let bs := List.zipWith (fun a b => b2n (r.on (t.value a) (t.value b))) (c.patterns cl t x) (c.patterns cl t y)
  let v := BitVec.ofNat 256 (packBits 1 bs) &&& c.mask cl k.toNat
  s.record s.cur u.slot.index (latIF ty 1 2) (.mask cl m.toNat v (BitVec.allOnes 256))

/-- Mask logic on the slot's half, in all lanes (R176). -/
def maskTo (u : VectorSlot) (d : BitVec 6) (f : (Nat → LaneMask) → LaneMask) (s : State) : State :=
  let c := s.core s.cur
  s.record s.cur u.slot.index 1 (.mask (clusterOf u) d.toNat (f (c.mask (clusterOf u))) (BitVec.allOnes 256))

/-- One step of the pairwise tree. -/
def pairUp {α : Type} (op : α → α → α) : List α → List α
  | a :: b :: rest => op a b :: pairUp op rest
  | l => l

/-- The pairwise tree of R177 over 256 values. -/
def treeOf {α : Type} (d : α) (op : α → α → α) (l : List α) : α :=
  nth d (pairUp op (pairUp op (pairUp op (pairUp op (pairUp op (pairUp op (pairUp op (pairUp op l)))))))) 0

/-- The lane values with `id` where K does not enable the lane. -/
def maskedVals {α : Type} (en : LaneMask) (id : α) (l : List α) : List α :=
  List.zipWith (fun i a => if en.getLsbD i then a else id) allLanes l

/-- A reduction (R177): the tree's value in every enabled lane. -/
def reduceTo (u : VectorSlot) (ty k : BitVec 4) (sat : Bool) (d x : SliceOp) (li lf : Nat) (fi : Int → Int → Int)
    (idI : NumFmt → Int) (ff : FFmt → Nat → Nat → Nat) (idF : FFmt → Nat) : State → State :=
  let t := vtypeD ty
  lanesTo u (latIF ty li lf) k d (fun c =>
    let ps := c.patterns (clusterOf u) t x
    let en := c.mask (clusterOf u) k.toNat
    let v := match t with
      | .int _ _ => fit t d.w sat (.int (treeOf 0 fi (maskedVals en (idI t) (ps.map (fun p => (t.value p).toI)))))
      | .flt f => fit t d.w false (.pat (treeOf 0 (ff f) (maskedVals en (idF f) ps)))
    allLanes.map (fun _ => v))

/-- The minimum and maximum of a type (R177). -/
def typeMin (t : NumFmt) : Int :=
  match t with
  | .int s n => intMin s n
  | .flt _ => 0
def typeMax (t : NumFmt) : Int :=
  match t with
  | .int s n => intMax s n
  | .flt _ => 0

/-- Width of a narrow format of VPACK and VUNPK, and its number format (R181). -/
def narrowFmt (fmt : BitVec 5) : NumFmt :=
  match mfmt fmt.toNat with
  | some (.num f) => f
  | _ => .int true 8

/-- VPACK of one lane (R181): `v` are the 4·wX bits of the source. -/
def packLane (t : NumFmt) (fmt : NumFmt) (sat : Bool) (wx wd v : Nat) : Nat :=
  let g := 4 * wx / t.width
  packBits fmt.width ((List.range g).map (fun i => convertPattern (t.value (elemAt t.width v i)) fmt sat)) % 2 ^ (4 * wd)

/-- VUNPK of one lane (R181). -/
def unpackLane (t : NumFmt) (fmt : NumFmt) (wx wd v : Nat) : Nat :=
  let g := 4 * wx / fmt.width
  packBits t.width ((List.range g).map (fun i => convertPattern (fmt.value (elemAt fmt.width v i)) t false)) % 2 ^ (4 * wd)

/-- A floating function of one source on `vb` (R182, R183), given as a rounding to the type. -/
def longTo (lat : Core → Nat) (ty k : BitVec 4) (d x : SliceOp) (f : FFmt → FVal → Nat) (s : State) : State :=
  let t := vtypeD ty
  lanes1 .vb (lat (s.core s.cur)) t k d x (fun p => match t with
    | .flt g => fit t d.w false (.pat (f g (g.value p)))
    | .int _ _ => 0) s

/-- Rounds first to P12, then to T (R183). -/
def viaP12 (f : FVal → Nat) (t : FFmt) (x : FVal) : Nat := t.round (FFmt.p12.value (f x))

/-- Latency of VDIV and VSQRT (R158). -/
def Core.divLat (c : Core) (ty : BitVec 4) : Nat := if ty = 8 then 22 else c.dvsqLat

/-- A deprecated instruction's expansion: the result of the last step, and the cycle from which the next bundle may issue
(R184). -/
def State.expandFor (s : State) (steps : Nat) (eff : State → State) : State :=
  let id := (s.core s.cur).nextId
  (eff s).updCore s.cur (fun c => { c with
    expand := some (s.now + steps, id)
    markLoops := (s.core s.cur).regs.loops
    markPc := (s.core s.cur).regs.pc.toNat })

end Sys2Proof.Machine
end

