-- ==== Sys2Proof/Machine/Units.lean ====
section
/-! DEFINITION. Hallmark units and the events counted against them (R305, R325, R326, R328, R347, R349, R351). -/

namespace Sys2Proof.Machine

/-- A core record of an absent core (R342). -/
def CoreRec.absent : CoreRec := ⟨0, 0, 0, 0, 0, false, false, false, false⟩

/-- Replaces a core record. -/
def Hallmark.setRec (h : Hallmark) (i : Nat) (r : CoreRec) : Hallmark := { h with cores := put h.cores i r }

/-- A bit mask with one bit cleared. -/
def clearBit {w : Nat} (x : BitVec w) (i : Nat) : BitVec w := x &&& ~~~BitVec.ofNat w (2 ^ i)

/-- The core record without one of its units (R349). -/
def CoreRec.without (r : CoreRec) (source unit : Nat) : CoreRec :=
  match source with
  | 1 =>
    let r := if unit = 0 then { r with cla := false } else { r with clb := false }
    if r.cla || r.clb then r else CoreRec.absent
  | 3 => { r with abank := clearBit r.abank unit }
  | 4 => { r with cbank := clearBit r.cbank unit }
  | 5 => { r with wbank := clearBit r.wbank unit }
  | 9 => { r with mx := false }
  | 10 => { r with chan := clearBit r.chan unit }
  | _ => CoreRec.absent

/-- Every present core takes HOP class 1 (R349). -/
def Hallmark.raiseHop (h : Hallmark) : Hallmark :=
  h.presentList.foldl (fun h i => h.setRec i { h.coreRec i with lat := (h.coreRec i).lat ||| 8 }) h

/-- A hallmark without a failed unit (R349). -/
def Hallmark.without (h : Hallmark) (u : UnitId) : Hallmark :=
  match u.source with
  | 8 => h.raiseHop
  | 11 => { h with hbm := h.hbm ||| BitVec.ofNat 64 (2 ^ (32 * (u.unit / 32 % 2) + u.unit % 32)) }
  | 12 => if u.unit < 128 then { h with dlh := clearBit h.dlh u.unit } else { h with dlv := clearBit h.dlv (u.unit - 128) }
  | src =>
    let i := localOf u.core
    if (h.coreRec i).present then h.setRec i ((h.coreRec i).without src u.unit) else h

/-- A hallmark after a slower class was measured (R347, R349); `cls` is the LATCLS bit. -/
def Hallmark.slower (h : Hallmark) (u : UnitId) (cls : Nat) : Hallmark :=
  if cls = 3 then h.raiseHop
  else
    let i := localOf u.core
    let r := h.coreRec i
    if r.present then h.setRec i { r with lat := r.lat ||| BitVec.ofNat 4 (2 ^ cls) } else h

/-- The hallmark unit of a source and unit number that core n detected (R305). -/
def State.unitOf (s : State) (n source unit : Nat) : UnitId :=
  match source with
  | 7 => ⟨dieOf n, 160 * dieOf n + nth 0 (s.die (dieOf n)).hallmark.presentList unit, source, 0⟩
  | 8 | 12 => ⟨dieOf n, 0, source, unit⟩
  | 11 => ⟨unit / 64, 0, source, unit⟩
  | _ => ⟨dieOf n, n, source, unit⟩

/-- What the management complex holds of a unit. -/
def State.unitRec (s : State) (u : UnitId) : UnitRec :=
  match s.units.find? (fun e => e.1 == u) with
  | some e => e.2
  | none => UnitRec.zero

def State.setUnit (s : State) (u : UnitId) (r : UnitRec) : State :=
  { s with units := if s.units.any (fun e => e.1 == u) then s.units.map (fun e => if e.1 == u then (u, r) else e)
      else s.units ++ [(u, r)] }

/-- Events at most `span` ns old, both ends closed (R326). -/
def recent (now span : Nat) (l : List Nat) : Nat := (l.filter (fun t => decide (now ≤ t + span))).length

/-- Nine corrected events within 600 s, or two uncorrected ones within 24 h (R326). -/
def UnitRec.due (r : UnitRec) (now : Nat) : Bool :=
  decide (9 ≤ recent now 600000000000 r.corr) || decide (2 ≤ recent now 86400000000000 r.unc)

/-- A mesh segment of a die already at HOP class 1 stays in service and schedules nothing more (R349). -/
def State.hopSpent (s : State) (u : UnitId) : Bool :=
  u.source == 8 && ((s.die u.die).hallmark.presentList.all (fun i => ((s.die u.die).hallmark.coreRec i).lat.getLsbD 3))

/-- A launch has cores that issue or have stopped inside it. -/
def Launch.live (x : Launch) : Bool :=
  match x.state with
  | .running | .stopping => true
  | _ => false

/-- A data error, met by core `at_`, joins those that no rollback has served. -/
def Core.meetErr (c : Core) (at_ : Nat) (e : DataErr) : Core := { c with errs := c.errs ++ [(at_, e)] }

/-- The die at the other end of a die-to-die lane: DLH joins the dies of a row, DLV those of a column (R343). -/
def laneEnd (u : UnitId) : Nat := if u.unit < 128 then u.die / 2 * 2 + (1 - u.die % 2) else (u.die + 2) % 4

/-- A launch uses a unit on all its cores: an HBM channel when its virtual function has pages on the stack, a die-to-die lane when it has
cores on one end and its virtual function owns both, a commons share when it has a region on the die (R305, R306; what counts as use is a
DESIGN CHOICE, log 48). -/
def State.usesWhole (s : State) (l : Nat) (x : Launch) (u : UnitId) : Bool :=
  match u.source with
  | 11 => (s.vf x.vf).pages.any (fun p => p.dev == 0 && p.pbase / 2 ^ 36 == u.unit / 32)
  | 12 => x.cores.any (fun m => dieOf m.1 == u.die || dieOf m.1 == laneEnd u) && (s.vf x.vf).dies.contains u.die &&
      (s.vf x.vf).dies.contains (laneEnd u)
  | 7 => (s.die u.die).regions.any (fun r => r.launch == l)
  | _ => false

/-- A core uses a unit whose retirement changes its record. -/
def State.usesUnit (s : State) (n : Nat) (u : UnitId) : Bool :=
  let old := (s.die u.die).hallmark
  dieOf n == u.die && old.coreRec (localOf n) != (old.without u).coreRec (localOf n)

/-- RETIRE on every core of a running launch that uses the unit, with the SOURCE and UNIT of the latest error that core n met on it (R305);
the detecting core keeps its own stop (R306, R349, R351, R378). -/
def State.retireUsers (s : State) (n : Nat) (u : UnitId) : State :=
  match (s.core n).errs.reverse.find? (fun e => e.1 == n && s.unitOf n e.2.source.toNat e.2.unit.toNat == u) with
  | none => s
  | some (_, err) =>
    s.launches.foldl (fun s e =>
      if e.2.live then
        e.2.cores.foldl (fun s m =>
          let c := s.core m.1
          if m.1 = n ∨ c.run = .halted ∨ c.run = .idle ∨ (s.usesWhole e.1 e.2 u || s.usesUnit m.1 u) = false then s
          else s.setCore m.1 { c.meetErr n err with pend := c.pend ++ [.data ⟨16, 0, errDetail err.source.toNat err.unit.toNat, 0, 0⟩] }) s
      else s) s

/-- Counts an event against a unit and moves its state (R325, R326, R347). -/
def State.countUnit (s : State) (n : Nat) (u : UnitId) (unc : Bool) : State :=
  let r := s.unitRec u
  let r := if unc then { r with unc := s.ns :: r.unc } else { r with corr := s.ns :: r.corr }
  match r.state with
  | .serving =>
    if r.due s.ns && !s.hopSpent u then s.setUnit u { r with state := .scheduled, since := s.ns } else s.setUnit u r
  | .scheduled | .testing =>
    if unc && !s.hopSpent u && ((s.launchOf n).map (fun e => e.2.live)).getD false then
      (s.setUnit u { r with state := .failed, since := s.ns }).retireUsers n u
    else s.setUnit u r
  | _ => s.setUnit u r

/-- An event on a unit: its record and its count (R325, R328). The record names the pc of the core and its cycle without holds (DESIGN CHOICE,
log 50). -/
def State.unitEvent (s : State) (n source unit : Nat) (unc : Bool) : State :=
  let c := s.core n
  (s.emit n 10 c.regs.pc.toNat c.schedule [source * 2 ^ 48 + unit * 2 ^ 32 + b2n unc, s.ns]).countUnit n
    (s.unitOf n source unit) unc

end Sys2Proof.Machine
end

