-- ==== Sys2Proof/Machine/Hazards.lean ====
section
/-! DEFINITION. What decides whether the bundle at the pc issues: the line it stands in (R79, R117, R301, R369), the structural
reasons (R73 to R78), latencies (R137, R158), the hazards of R42 and R195 with the record of R303, the holds of R45, R46, R114,
R116, R121, R213 to R217 and R253, and the order of R307. -/

namespace Sys2Proof

/-- The instructions of a bundle other than NOP, with their slots. -/
def Bundle.acts (b : Bundle) : List (Slot × Instr) :=
  b.slots.filterMap (fun e => match e.2 with
    | some (.nop _) => none
    | some i => some (e.1, i)
    | none => none)

/-- The `ct` instruction of a bundle. -/
def Bundle.ct (b : Bundle) : Instr :=
  match b.slots.find? (fun e => e.1 == .ct) with
  | some (_, some i) => i
  | _ => .nop .ct

/-- The instruction of one slot; NOP where it has none. -/
def Bundle.at (b : Bundle) (sl : Slot) : Instr :=
  match b.slots.find? (fun e => e.1 == sl) with
  | some (_, some i) => i
  | _ => .nop sl

end Sys2Proof

namespace Sys2Proof.Machine

/-! ## The line at an index -/

/-- The segment that holds a bundle: number and entry (R300). -/
def Image.segOf (i : Image) (p : Nat) : Option (Nat × Segment) :=
  ((List.range i.segments.length).zip i.segments).find? (fun e =>
    decide (e.2.first ≤ p) && decide (p < e.2.first + e.2.len))

/-- The frame that a copy fills is the one that does not hold the current segment. -/
def IStore.frame (st : IStore) (f : Nat) : Option Nat := if f = 0 then st.frame0 else st.frame1

/-- The line of bundle p has arrived in a frame (R300, R301). -/
def IStore.here (st : IStore) (i : Image) (p : Nat) : Bool :=
  match i.segOf p with
  | none => i.segments.isEmpty
  | some (k, g) =>
    match st.copying.find? (fun c => c.seg == k) with
    | some c => decide (p - g.first < c.arrived)
    | none => st.frame0 == some k || st.frame1 == some k

/-- What a fetch of a line finds. -/
inductive Fetched where
  | absent
  | broken (sub : Nat)
  | line (l : Line)
  deriving DecidableEq, Repr

/-- The line of bundle p in the instruction store of core n (R117, R301, R369, R370). -/
def State.lineAt (s : State) (n p : Nat) : Fetched :=
  match s.imageOf n with
  | none => .absent
  | some i =>
    let st := (s.core n).istore
    match find? st.broken p with
    | some sub => .broken sub
    | none =>
      if st.invalid.contains p || !st.here i p then .absent
      else .line ((find? st.lines p).getD (nth 0 i.code p))

/-- The global address of a line of an image (R300, R367). -/
def Image.lineAddr (i : Image) (p : Nat) : Nat :=
  match i.segOf p with
  | some (_, g) => g.addr.toNat + 64 * (p - g.first)
  | none => i.base.toNat + 64 * p

/-- The global address of a line of core n's image. -/
def State.lineAddr (s : State) (n p : Nat) : Nat :=
  match s.imageOf n with
  | none => 0
  | some i => i.lineAddr p

/-- The pool bit of a line (R79). -/
def State.poolLine (s : State) (n p : Nat) : Bool :=
  match s.imageOf n with
  | some i => i.pools.any (fun e => decide (e.1 ≤ p) && decide (p < e.1 + e.2))
  | none => false

/-! ## Structural reasons -/

/-- SLOTS of a list of slots. -/
def slotMask (l : List Slot) : Nat := l.foldl (fun m sl => m ||| slotBit sl) 0

/-- Slots whose write sets overlap (R73). -/
def overlapSlots (l : List (Slot × Instr)) : List Slot :=
  (l.filter (fun e => l.any (fun f => e.1 != f.1 && locsMeet (destsOf e.2) (destsOf f.2)))).map (fun e => e.1)

/-- Slots that read a cluster with more than four reads (R75). -/
def creadSlots (l : List (Slot × Instr)) : List Slot :=
  let tooMany := fun (cl : Bool) => decide (4 < ((l.flatMap (fun e => cReads e.2)).filter (· == cl)).length)
  (l.filter (fun e => (cReads e.2).any tooMany)).map (fun e => e.1)

/-- The deprecated instructions and POOL (R78). -/
def standsAlone (i : Instr) : Bool :=
  match i with
  | .vrcpl .. | .vsumx .. | .pool _ => true
  | _ => false

/-- SLOTS of the ALONE reason (R78). -/
def aloneMask (b : Bundle) (l : List (Slot × Instr)) : Nat :=
  if l.any (fun e => standsAlone e.2) && (decide (1 < l.length) || b.mark || b.segb) then
    slotMask (l.map (fun e => e.1)) ||| (if b.mark || b.segb then 1 else 0)
  else 0

/-- The ports that `mx` and `sf` use, whatever the registers hold (R74, R76). -/
def fixedPorts (i : Instr) : List PortUse :=
  match i with
  | .mstc .. | .fill .. => [.aWrite]
  | .slda .. | .sldb .. => [.aRead]
  | .park .. | .unpk .. => [.cAccess]
  | _ => []

/-- The C tiles that an `sf` instruction touches. -/
def sfTiles (i : Instr) : List Nat :=
  match i with
  | .park .. | .unpk .. => distinct ((sfBanks i).map (fun b => b.2))
  | _ => []

/-- Two lists share an element. -/
def share {α : Type} [BEq α] (a b : List α) : Bool := a.any (fun x => b.contains x)

/-- The reasons of step 2 of R76: DETAIL and SLOTS, 0 for none. -/
def stepTwo (b : Bundle) : Nat × Nat :=
  let l := b.acts
  let dec := b.bad.foldl (fun (m : Nat × Nat) e => (m.1 ||| e.2.detail, m.2 ||| slotBit e.1)) (0, 0)
  let ov := slotMask (overlapSlots l)
  let cr := slotMask (creadSlots l)
  let al := aloneMask b l
  let po := if share (fixedPorts (b.at .mx)) (fixedPorts (b.at .sf)) then slotMask [.mx, .sf] else 0
  let ti := if share (mxTiles (b.at .mx)) (sfTiles (b.at .sf)) then slotMask [.mx, .sf] else 0
  let one := fun (m bitv : Nat) => if m = 0 then 0 else bitv
  (dec.1 ||| one ov 16 ||| one po 32 ||| one cr 64 ||| one ti 128 ||| one al 256, dec.2 ||| ov ||| cr ||| al ||| po ||| ti)

/-- The reasons of step 4 of R76, which involve the `ls` address. -/
def Core.stepFour (c : Core) (b : Bundle) : Nat × Nat :=
  match c.plan (b.at .ls) with
  | none => (0, 0)
  | some p =>
    let pm := share p.ports (fixedPorts (b.at .mx))
    let ps := share p.ports (fixedPorts (b.at .sf))
    let ti := p.ports.contains .cAccess && share p.tiles (mxTiles (b.at .mx))
    ((if pm || ps then 32 else 0) ||| (if ti then 128 else 0),
      (if pm then slotMask [.mx, .ls] else 0) ||| (if ps then slotMask [.ls, .sf] else 0) |||
        (if ti then slotMask [.mx, .ls] else 0))

/-! ## Latencies -/

/-- Cycles from issue to landing of the register result of an instruction (R115, R116, R134, R137, R158, R182 to R184, R194,
R233); loads apart. -/
def Core.fixedLat (c : Core) (i : Instr) : Nat :=
  match i with
  | .csrr .. | .clz .. | .ctz .. | .popc .. => 2
  | .mul .. | .mulh .. | .mulhu .. => 3
  | .div .. | .divu .. | .rem .. | .remu .. => 20
  | .vadd _ ty .. | .vsub _ ty .. => latIF ty 1 4
  | .vmul _ ty .. => latIF ty 3 5
  | .vfma _ ty .. | .vfms _ ty .. => latIF ty 3 6
  | .vmuli .. => 3
  | .vmin _ ty .. | .vmax _ ty .. | .vceq _ ty .. | .vcne _ ty .. | .vclt _ ty .. | .vcle _ ty .. => latIF ty 1 2
  | .vcvt .. | .vpack .. | .vunpk .. | .mcvt .. | .unpk .. => 4
  | .vredadd _ ty .. => latIF ty 4 12
  | .vredmax _ ty .. | .vredmin _ ty .. => latIF ty 4 6
  | .vperm .. | .vrot .. | .xmov .. => 2
  | .vdiv ty .. | .vsqrt ty .. => c.divLat ty
  | .vrcp .. | .vrsq .. => 8
  | .vexp2 .. | .vlog2 .. => 10
  | .vrcpl .. | .vsumx .. => 12
  | _ => 1

/-- The sources from which an `ls` access forms its addresses. -/
def lsAddrSources (i : Instr) : List LocRange :=
  match i with
  | .lds b _ _ _ _ => scalarLoc b
  | .sts _ b _ _ _ => scalarLoc b
  | .ldv b k _ cl _ => scalarLoc b ++ maskLoc cl k.toNat
  | .ldvb b k _ cl _ => scalarLoc b ++ maskLoc cl k.toNat
  | .stv _ b k _ cl _ => scalarLoc b ++ maskLoc cl k.toNat
  | .ldvs b g k _ cl _ => scalarLoc b ++ scalarLoc g ++ maskLoc cl k.toNat
  | .stvs _ b g k _ cl _ => scalarLoc b ++ scalarLoc g ++ maskLoc cl k.toNat
  | .ldvx b k x cl _ => sliceLoc cl x :: (scalarLoc b ++ maskLoc cl k.toNat)
  | .stvx _ b k x cl _ => sliceLoc cl x :: (scalarLoc b ++ maskLoc cl k.toNat)
  | .ldk b k _ cl _ => scalarLoc b ++ maskLoc cl k.toNat
  | .stk _ b k _ cl _ => scalarLoc b ++ maskLoc cl k.toNat
  | .atadd _ b _ _ _ | .atmin _ b _ _ _ | .atmax _ b _ _ _ | .atminu _ b _ _ _ | .atmaxu _ b _ _ _ | .atand _ b _ _ _
  | .ator _ b _ _ _ | .atxch _ b _ _ _ => scalarLoc b
  | .atcas _ b _ _ _ _ => scalarLoc b
  | .pref b _ => scalarLoc b
  | .txinit b _ _ | .txarv b _ _ => scalarLoc b
  | _ => []

/-- Locations in flight or pending. -/
def Core.inFlight (c : Core) : List LocRange := c.results.flatMap (fun r => r.locs) ++ c.loads.flatMap (fun l => l.locs)

/-- The addresses of the `ls` access are known in this cycle. -/
def Core.addrKnown (c : Core) (i : Instr) : Bool := !locsMeet (lsAddrSources i) c.inFlight

/-- Landing latency of an instruction; `none` when it is long-pending or not known yet (R41, R211). -/
def State.latOf (s : State) (n : Nat) (i : Instr) : Option Nat :=
  let c := s.core n
  match c.plan i with
  | some p => if c.addrKnown i then s.planLat n p else none
  | none => some (c.fixedLat i)

/-! ## Hazards -/

/-- LOC of a location kind (R303). -/
def LocKind.num : LocKind → Nat
  | .sliceA => 0 | .sliceB => 1 | .scalar => 2 | .cond => 3 | .target => 4 | .maskA => 5 | .maskB => 6 | .tile => 7

/-- A hazard: LOC, INDEX, KIND (R303). -/
abbrev Hazard := Nat × Nat × Nat

/-- The lowest shared location of two runs. -/
def LocRange.first (a b : LocRange) : Nat := max a.lo b.lo

/-- Hazards of one kind between runs and a result's locations. -/
def meetHazards (kind : Nat) (l : List LocRange) (r : Result) : List Hazard :=
  l.flatMap (fun a => (r.locs.filter (fun b => a.meets b)).map (fun b => (a.kind.num, a.first b, kind)))

/-- The hazards of R42 of an instruction over the recorded results. -/
def State.regHazards (s : State) (n : Nat) (i : Instr) : List Hazard :=
  let rs := (s.core n).results.filter (fun r => decide (s.now < r.land))
  rs.flatMap (fun r => meetHazards 1 (sourcesOf i) r ++
    (match s.latOf n i with
      | some lat =>
        if s.now + lat = r.land then meetHazards 2 (destsOf i) r
        else if s.now + lat < r.land then meetHazards 3 (destsOf i) r
        else []
      | none => []))

/-- The tile hazards of R195. -/
def State.tileHazards (s : State) (n : Nat) (sl : Slot) (i : Instr) : List Hazard :=
  let c := s.core n
  let of := fun (ts : List Nat) => ts.map (fun t => ((7, t, 4) : Hazard))
  match sl with
  | .mx => of (c.mxHazard s.now i)
  | .sf => of ((sfTiles i).filter (fun t => !(c.pendingOn s.now t).isEmpty))
  | .ls =>
    match c.plan i with
    | some p => if p.cls != .pref && c.addrKnown i then of (p.tiles.filter (fun t => !(c.pendingOn s.now t).isEmpty)) else []
    | none => []
  | _ => []

/-- The lesser hazard in the order of R303. -/
def hazardLess (a b : Hazard) : Bool :=
  decide (a.1 < b.1) || (a.1 == b.1 && (decide (a.2.1 < b.2.1) || (a.2.1 == b.2.1 && decide (a.2.2 < b.2.2))))

/-- The first of a list of hazards. -/
def firstHazard (l : List Hazard) : Option Hazard :=
  l.foldl (fun m h => match m with
    | none => some h
    | some x => if hazardLess h x then some h else some x) none

/-- The slots in hazard with the first hazard of each, in ascending slot order. -/
def State.hazards (s : State) (n : Nat) (b : Bundle) : List (Slot × Hazard) :=
  b.acts.filterMap (fun e => (firstHazard (s.regHazards n e.2 ++ s.tileHazards n e.1 e.2)).map (fun h => (e.1, h)))

/-- DETAIL of a shadow fault (R303). -/
def hazardDetail (h : Hazard) : Nat := h.2.2 + h.1 * 2 ^ 4 + h.2.1 * 2 ^ 8

/-! ## Holds -/

/-- Earlier work that counts for MARKBUSY and the hold of R121 (R198). A global load or atomic into s0 or k0 counts as long as it is
pending; a result of fixed latency into them is recorded nowhere and does not (DESIGN CHOICE, log 45). -/
def Core.busy (c : Core) (now : Nat) : Bool :=
  !c.results.isEmpty || c.loads.any (fun l => l.kind != .pref) || !c.tiles.isEmpty || decide (now < c.arrayFree) ||
    !c.scales.isEmpty

/-- The long-pending results that a bundle awaits (R45). -/
def Core.awaited (c : Core) (b : Bundle) : List Load :=
  let locs := b.acts.flatMap (fun e => sourcesOf e.2 ++ destsOf e.2)
  c.loads.filter (fun l => locsMeet l.locs locs)

/-- A reservation that blocks a bank set of a user (R253): another holder, still held in this cycle. -/
def Core.bankHeld (c : Core) (now : Nat) (u : User) (banks : List (Buf × Nat)) : Bool :=
  c.rsv.any (fun r => decide (now ≤ r.last) && banks.contains (r.buf, r.bank) &&
    (match u with
      | .matrix => r.user != .matrix
      | .issue => true
      | w => r.user != w))

/-- Outstanding requests of a core (R256). -/
def Core.requests (c : Core) : Nat :=
  c.loads.foldl (fun a l => a + (match l.kind with
    | .load => (l.parts.filter (fun p => !p.got)).length
    | _ => 1)) 0

/-- Requests that an access would add (R215, R256). -/
def Plan.requests (p : Plan) (n : Nat) : Nat :=
  match p.cls with
  | .pref | .atomic => if (match p.pieces with
      | x :: _ => decide (x.addr < 2 ^ 52)
      | [] => false) then 1 else 0
  | .sload | .vload => n
  | _ => 0

/-- Global sectors that an access touches. -/
def Plan.sectors (p : Plan) : Nat := (sectorsOf p.globalAddrs).length

/-- The queue whose job a store starts: an STS.n64 to offset 0 of an aperture (R226). -/
def Plan.aperture (p : Plan) : Option Nat :=
  if p.cls = .sstore ∧ p.size = 8 then
    match p.pieces with
    | x :: _ =>
      if copyBase ≤ x.addr ∧ x.addr < copyBase + 0x10000 ∧ (x.addr - copyBase) % 0x1000 = 0 then some ((x.addr - copyBase) / 0x1000)
      else if bankBase ≤ x.addr ∧ x.addr < bankBase + 0x8000 ∧ (x.addr - bankBase) % 0x1000 = 0 then
        some (16 + (x.addr - bankBase) / 0x1000)
      else none
    | [] => none
  else none

/-- A bank hold (R193, R215 to R217, R226, R253). -/
def State.bankHold (s : State) (n : Nat) (b : Bundle) : Bool :=
  let c := s.core n
  let mx := b.at .mx
  let array := decide (0 < mxBusy mx) && decide (s.now < c.arrayFree)
  let ls := match c.plan (b.at .ls) with
    | some p => c.addrKnown (b.at .ls) && (c.bankHeld s.now .issue p.banks ||
        (let k := p.requests p.sectors
         decide (0 < k) && decide (1024 < c.requests + k)) ||
        (match p.aperture with
          | some q => decide (16 ≤ s.jobCount n q)
          | none => false))
    | none => false
  array || ls || c.bankHeld s.now .issue (sfBanks (b.at .sf)) ||
    c.bankHeld s.now .matrix ((c.mxBanks mx).map (fun e => (e.1, e.2.1)))

/-- A late prepare (R114, R116): the target's ready cycle has not come. Halves in flight are governed by R42 to R45. CALLI s0 is held like CALLI of
another register (DESIGN CHOICE, log 50). -/
def Core.late (c : Core) (now : Nat) (i : Instr) : Bool :=
  let after := fun (o : Option Nat) (d : Nat) => match o with
    | some t => decide (now < t + d)
    | none => true
  let free := fun (l : List LocRange) => !locsMeet l c.inFlight
  match i with
  | .br j => free [condLoc j.toNat, targetLoc j.toNat] && c.cond j.toNat && after (vget c.jReady j.toNat none) 0
  | .brn j => free [condLoc j.toNat, targetLoc j.toNat] && !c.cond j.toNat && after (vget c.jReady j.toNat none) 0
  | .calli x _ => free (scalarLoc x) && after (vget c.sLand x.toNat none) 3
  | .ret => free (scalarLoc 63) && after (vget c.sLand 63 none) 3
  | _ => false

/-- The lowest byte of an entry. -/
def Entry.lowest (e : Entry) : Nat := (e.bytes.map (fun x => x.1)).foldl min (match e.bytes with
  | x :: _ => x.1
  | [] => 0)

/-- The lowest byte that the first waiting perform of a core is for. -/
def Core.performAddr (c : Core) : Nat :=
  match c.performs with
  | .entry q :: _ => ((c.queue.find? (fun e => e.seq == q)).map Entry.lowest).getD 0
  | .atomic _ _ _ a _ _ :: _ => a
  | _ => 0

/-- A store whose queue overflows while entries of it wait for their translation (R213), or for an exhausted stream (R407; held with the
same cause, DESIGN CHOICE, log 40): the lowest byte of the first. It is held too while performs that earlier bundles have asked for wait, which
come before the overflow's in program order (R244, R312; DEDUCED, log 24). -/
def State.overflowWait (s : State) (n : Nat) (b : Bundle) : Option Nat :=
  let c := s.core n
  match c.plan (b.at .ls) with
  | some p =>
    if p.cls.isWrite && p.global && c.addrKnown (b.at .ls) &&
        decide (512 < c.queueSectors p.col + (sectorsOf ((s.globalCells n p).map (fun e => e.1))).length) then
      match c.queue.filter (fun e => e.col == p.col && (!e.trans.waits.isEmpty || s.wayState n e.trans == .exhausted)) with
      | e :: _ => some e.lowest
      | [] => if c.performs.isEmpty then none else some c.performAddr
    else none
  | none => none

/-- Why the bundle is held in this cycle, the first in the order of R46, with the ADDR of a page walk. -/
def State.holdOf (s : State) (n : Nat) (b : Bundle) (hz : Bool) : Option (HoldCause × Nat) :=
  let c := s.core n
  let waitsFor := c.awaited b
  if s.bankHold n b then some (.bank, 0)
  else if c.late s.now b.ct then some (.prepare, 0)
  else if hz || (b.mark && c.imode && c.busy s.now) || waitsFor.any (fun l => l.trans.waits.isEmpty) then some (.shadow, 0)
  else match waitsFor with
    | l :: _ => some (.walk, match l.addrs with
        | a :: rest => rest.foldl min a
        | [] => 0)
    | [] => (s.overflowWait n b).map (fun a => (.walk, a))

/-! ## The verdict -/

/-- What happens to the bundle at the pc in this cycle. -/
inductive Verdict where
  | trap (t : TrapRec)
  | hold (c : HoldCause) (addr : Nat)
  | issue (b : Bundle)
  deriving DecidableEq, Repr

/-- MARKPOS (R121). -/
def Core.markBad (c : Core) (b : Bundle) : Bool :=
  let p := c.regs.pc.toNat
  b.mark && ((match c.regs.loops with
    | e :: _ => decide (e.last.toNat ≠ p)
    | [] => false) || (match b.ct with
    | .br _ | .brn _ | .jmp _ | .call _ | .calli _ _ | .ret | .lexit | .loop _ _ | .loopi _ _ => true
    | _ => false))

/-- NONUNIFORM of the two vector slots (R175, R307). -/
def Core.uniformCheck (c : Core) (b : Bundle) : Option TrapRec :=
  match c.nonUniform (b.at .va), c.nonUniform (b.at .vb) with
  | some e, some _ => some (c.trapAt 5 (slotMask [.va, .vb]) (nonUniformDetail e) 0)
  | some e, none => some (c.trapAt 5 (slotMask [.va]) (nonUniformDetail e) 0)
  | none, some e => some (c.trapAt 5 (slotMask [.vb]) (nonUniformDetail e) 0)
  | none, none => none

/-- ADDRESS of the `ls` and `sf` slots: when both fault, SLOTS marks both and the rest describes the `ls` fault (R210). -/
def State.addressCheck (s : State) (n : Nat) (b : Bundle) : Option TrapRec :=
  match s.addressFault n (b.at .ls), s.addressFault n (b.at .sf) with
  | some t, some _ => some { t with slots := slotMask [.ls, .sf] }
  | some t, none => some t
  | none, t => t

/-- The first unit out of service that a bundle would use. -/
def State.bundleService (s : State) (n : Nat) (b : Bundle) : Option TrapRec :=
  b.acts.findSome? (fun e => s.serviceFault n e.2)

/-- The checks of the issue cycle, after every hold (R76 step 4, R307 item 6). -/
def State.issueChecks (s : State) (n : Nat) (b : Bundle) : Option TrapRec :=
  let c := s.core n
  let r := c.stepFour b
  (if r.1 = 0 then none else some (c.trapAt 1 r.2 r.1 0)) <|> s.bundleService n b <|>
    (if c.markBad b then some (c.trapAt 3 1 7 0) else none) <|> s.controlFault n b.ct <|> c.uniformCheck b <|>
    s.addressCheck n b

/-- The verdict on a fetched bundle (R76, R110, R253, R307). -/
def State.bundleVerdict (s : State) (n : Nat) (b : Bundle) : Verdict :=
  let c := s.core n
  let two := stepTwo b
  if two.1 ≠ 0 then .trap (c.trapAt 1 two.2 two.1 0)
  else
    match s.hazards n b, c.imode with
    | (sl, h) :: rest, false => .trap (c.trapAt 10 (slotMask (sl :: rest.map (fun e => e.1))) (hazardDetail h) 0)
    | hz, _ =>
      if b.mark && !c.imode && c.busy s.now then .trap (c.trapAt 3 1 8 0)
      else match s.holdOf n b !hz.isEmpty with
        | some (h, a) => .hold h a
        | none => match s.issueChecks n b with
          | some t => .trap t
          | none => .issue b

/-- The verdict on the bundle at the pc, the boundary causes of R307 items 1 to 4 apart. The mark distance counts the cycles since
the last MARK bundle (R33). A pool line that is also broken raises FETCH (log 49). -/
def State.verdict (s : State) (n : Nat) : Verdict :=
  let c := s.core n
  let p := c.regs.pc.toNat
  let late := c.bound ≠ 0 ∧ c.bound.toNat + 1 ≤ c.markDist
  let due := Verdict.trap (c.trapAt 11 0 c.bound.toNat 0)
  match s.lineAt n p with
  | .line l =>
    if s.poolLine n p then if late then due else .trap (c.trapAt 2 0 0 0)
    else
      let b := decodeLine l
      let v := s.bundleVerdict n b
      if late then
        if c.markDist = c.bound.toNat + 1 ∧ b.mark then
          match v with
          | .issue b => .issue b
          | _ => due
        else due
      else v
  | .absent => if late then due else .hold .segment (s.lineAddr n p)
  | .broken sub => if late then due else .trap (c.trapAt 12 0 sub (s.lineAddr n p))

end Sys2Proof.Machine
end

