-- ==== Sys2Proof/Machine/Control.lean ====
section
/-! DEFINITION. The control slot (R110 to R135). -/

namespace Sys2Proof.Machine

/-! ## Shared operations -/

/-- Core n begins a wait after the bundle at the pc (R125, R129, R131): the loop stack and the index at issue are kept, and the
schedule places the next bundle one cycle later. -/
def State.beginWait (s : State) (n : Nat) (w : Wait) : State :=
  s.updCore n (fun c => { c with
    wait := some w
    waitPc := c.regs.pc.toNat
    waitSch := c.schedule
    waitLen := 1
    markLoops := c.regs.loops
    markPc := c.regs.pc.toNat })

/-- The arrival of core n at the pending STEP of group g (R124). -/
def State.arrive (s : State) (n g : Nat) : State :=
  match s.launchOf n with
  | some (l, x) => s.setLaunch l { x with arrived := x.arrived ++ [(g, n)] }
  | none => s

/-- The colours bound to clasp c by the launch's binding table (R288). -/
def Launch.bound (x : Launch) (c : Nat) : BitVec 8 :=
  x.binds.foldl (fun m e => if e.1 = c then m ||| BitVec.ofNat 8 (2 ^ (e.2 % 8)) else m) 0

/-- BARI (R127). -/
def State.claspInit (s : State) (n c v : Nat) : State :=
  let s := match s.launchOf n with
    | some (l, x) =>
      if (x.clasp c).init then s
      else s.setLaunch l { x with clasps := put x.clasps c { x.clasp c with init := true, count := v, arrived := 0, phase := false } }
    | none => s
  (s.updCore n (fun k => k.setClasp c { k.clasp c with aval := false, adone := false })).closeWin n

/-- An arrival (R128): the released colours are performed, then the arrival counts. -/
def State.claspArrive (s : State) (n c : Nat) (mask : BitVec 8) : State :=
  match s.launchOf n with
  | none => s
  | some (_, x) =>
    let s := s.updCore n (fun k => k.setClasp c { k.clasp c with aval := true, aph := (x.clasp c).phase, adone := false })
    (s.closeWin n).perform n (inColours (mask ||| x.bound c)) [.arrive c]

/-- The wait of BARW and BARAW (R129): none when the phase has completed; the view of that phase is then joined (R242). -/
def State.claspWait (s : State) (n c : Nat) : State :=
  let o := (s.core n).clasp c
  if o.adone then s.updCore n (fun k => { k with view := k.view.join o.view }) else s.beginWait n (.clasp c)

/-- PHASE of the barrier at an A-buffer offset, without the store of this cycle (R229). -/
def Core.txPhase (c : Core) (off : Nat) : Nat := (c.oldA.getD c.bufA).readN off 1 % 16

/-- The view joined from the jobs that had decremented a barrier when its last phase completed, each as it stands now (R242). -/
def State.txView (s : State) (n off : Nat) : View :=
  let x := getD TxJobs.none (s.core n).txDone off
  ((s.die (dieOf n)).jobs.filter (fun j => x.jobs.contains j.id)).foldl (fun (v : View) j => v.join j.view) x.view

/-- Makes a barrier known to the monitor (R229). -/
def Core.txKnow (c : Core) (off : Nat) : Core := if c.txKnown.contains off then c else { c with txKnown := off :: c.txKnown }

/-- TXWAIT (R131). -/
def State.txWait (s : State) (n a phase : Nat) : State :=
  let s := s.updCore n (fun c => c.txKnow (a - aBase))
  if (s.core n).txPhase (a - aBase) ≠ phase then
    s.updCore n (fun c => { c with view := c.view.join (s.txView n (a - aBase)) })
  else s.beginWait n (.tx a phase)

/-- HALT (R133): every queue is performed, the window closes, and the core stops in the next cycle (R37). -/
def State.halt (s : State) (n : Nat) : State :=
  let s := (s.perform n (fun _ => true) []).closeWin n
  (s.updCore n (fun c => { c with regs := { c.regs with cycle := c.regs.cycle + 1 } })).beginStop n .halt

/-- The link register takes the return index (R115, R116). -/
def State.link (s : State) (n : Nat) : State :=
  s.record n 0 1 (.scalar 63 (BitVec.ofNat 64 ((s.core n).regs.pc.toNat + 1)))

/-- PREP (R113): the target lands after one cycle and is ready from the third. -/
def State.prepare (s : State) (n j : Nat) (target : BitVec 24) : State :=
  (s.record n 0 1 (.target j target)).updCore n (fun c => { c with jReady := vset c.jReady j (some (s.now + 3)) })

/-! ## Meanings -/

/-- NOP has no effect; in `ct` its bundle still selects the next one (R55, R112). -/
def execNop (sl : Slot) (s : State) : Host.Outcome State Fault Refusal :=
  match sl with
  | .ct => ctExec (.nop .ct) s id
  | sl => slotExec (.nop sl) s id

def execPrep (j : BitVec 4) (target : BitVec 24) (s : State) : Host.Outcome State Fault Refusal :=
  ctExec (.prep j target) s (fun s => s.prepare s.cur j.toNat target)

def execBr (j : BitVec 4) (s : State) : Host.Outcome State Fault Refusal := ctExec (.br j) s id

def execBrn (j : BitVec 4) (s : State) : Host.Outcome State Fault Refusal := ctExec (.brn j) s id

def execJmp (target : BitVec 24) (s : State) : Host.Outcome State Fault Refusal := ctExec (.jmp target) s id

def execCall (target : BitVec 24) (s : State) : Host.Outcome State Fault Refusal :=
  ctExec (.call target) s (fun s => s.link s.cur)

def execCalli (x : BitVec 6) (cls : BitVec 8) (s : State) : Host.Outcome State Fault Refusal :=
  ctExec (.calli x cls) s (fun s => s.link s.cur)

def execRet (s : State) : Host.Outcome State Fault Refusal := ctExec .ret s id

def execLoop (x : BitVec 6) (last : BitVec 24) (s : State) : Host.Outcome State Fault Refusal := ctExec (.loop x last) s id

def execLoopi (trip last : BitVec 24) (s : State) : Host.Outcome State Fault Refusal := ctExec (.loopi trip last) s id

def execLexit (s : State) : Host.Outcome State Fault Refusal := ctExec .lexit s id

/-- STEP arrives at issue and waits for the release (R124). -/
def execStep (g : BitVec 4) (s : State) : Host.Outcome State Fault Refusal :=
  ctExec (.step g) s (fun s => (s.beginWait s.cur (.step g.toNat)).arrive s.cur g.toNat)

def execBari (c : BitVec 7) (x : BitVec 6) (s : State) : Host.Outcome State Fault Refusal :=
  ctExec (.bari c x) s (fun s => s.claspInit s.cur c.toNat ((s.core s.cur).sreg x.toNat).toNat)

def execBara (c : BitVec 7) (mask : BitVec 8) (s : State) : Host.Outcome State Fault Refusal :=
  ctExec (.bara c mask) s (fun s => s.claspArrive s.cur c.toNat mask)

def execBaraw (c : BitVec 7) (mask : BitVec 8) (s : State) : Host.Outcome State Fault Refusal :=
  ctExec (.baraw c mask) s (fun s => (s.claspArrive s.cur c.toNat mask).claspWait s.cur c.toNat)

def execBarw (c : BitVec 7) (s : State) : Host.Outcome State Fault Refusal :=
  ctExec (.barw c) s (fun s => s.claspWait s.cur c.toNat)

/-- FENCE (R130); with mask 0 it has no effect. -/
def execFence (mask : BitVec 8) (s : State) : Host.Outcome State Fault Refusal :=
  ctExec (.fence mask) s (fun s => if mask = 0 then s else (s.perform s.cur (inColours mask) []).closeWin s.cur)

def execTxwait (x : BitVec 6) (phase : BitVec 4) (s : State) : Host.Outcome State Fault Refusal :=
  ctExec (.txwait x phase) s (fun s => s.txWait s.cur ((s.core s.cur).sreg x.toNat).toNat phase.toNat)

/-- TRAP raises the software trap, so its bundle never commits (R111, R132). -/
def execTrap (code : BitVec 16) (s : State) : Host.Outcome State Fault Refusal := ctExec (.trap code) s id

def execHalt (s : State) : Host.Outcome State Fault Refusal := ctExec .halt s (fun s => s.halt s.cur)

/-- CSRR samples the register in its issue cycle (R134). -/
def execCsrr (d : BitVec 6) (csr : BitVec 12) (s : State) : Host.Outcome State Fault Refusal :=
  ctExec (.csrr d csr) s (fun s => s.record s.cur 0 2 (.scalar d.toNat ((s.csrRead s.cur csr.toNat).getD 0)))

/-- CSRW takes effect in the cycle after issue (R134). -/
def execCsrw (csr : BitVec 12) (x : BitVec 6) (s : State) : Host.Outcome State Fault Refusal :=
  ctExec (.csrw csr x) s (fun s => s.updCore s.cur (fun c => { c with csrw := c.csrw ++ [(csr.toNat, c.sreg x.toNat)] }))

def execPool (count : BitVec 13) (s : State) : Host.Outcome State Fault Refusal := ctExec (.pool count) s id

end Sys2Proof.Machine
end

