-- ==== Sys2Proof/Machine/Matrix.lean ====
section
/-! DEFINITION. The matrix slot, and the scale, fill and park slot (R186 to R205, R232, R233). -/

namespace Sys2Proof.Machine

/-- Reserves banks for a user, each through a number of cycles from now (R216, R252). -/
def Core.reserve (c : Core) (now : Nat) (u : User) (banks : List (Buf × Nat × Nat)) : Core :=
  { c with rsv := c.rsv ++ banks.map (fun b => ⟨b.1, b.2.1, u, now + b.2.2⟩) }

/-- The reservations of an `mx` instruction (R193). -/
def State.mxReserve (s : State) (n : Nat) (i : Instr) : State :=
  s.updCore n (fun c => c.reserve s.now .matrix (c.mxBanks i))

/-- A pending tile landing (R195). -/
def State.tileResult (s : State) (n : Nat) (i : Instr) (t : Nat) (array : Bool) (r : Nat × Nat) : State :=
  (s.updCore n (fun c => { c with
    nextId := c.nextId + 1
    tiles := c.tiles ++ [⟨c.nextId, t, s.now + c.mxLat i, array, 0, r.2, r.1, c.regs.pc.toNat, c.schedule⟩] })).mxReserve n i

/-- An array instruction starts (R193, R200). -/
def State.arrayStart (s : State) (n : Nat) (i : Instr) (af bf : BitVec 5) (t : BitVec 4) (aoff : BitVec 11) (woff : BitVec 12)
    (zero trans : Bool) : State :=
  let r := (s.core n).arrayResult s.now af bf t aoff woff zero trans
  (s.tileResult n i t.toNat true r).updCore n (fun c => { c with arrayFree := s.now + mxBusy i })

/-- The number format of a tile-path instruction. -/
def tileNum (af : BitVec 5) (e8m10 : Bool) : NumFmt := (tileFmt af e8m10).getD (.int true 8)

def execMma (af bf : BitVec 5) (t : BitVec 4) (aoff : BitVec 11) (woff : BitVec 12) (s : State) :
    Host.Outcome State Fault Refusal :=
  slotExec (.mma af bf t aoff woff) s (fun s => s.arrayStart s.cur (.mma af bf t aoff woff) af bf t aoff woff false false)

def execMmz (af bf : BitVec 5) (t : BitVec 4) (aoff : BitVec 11) (woff : BitVec 12) (s : State) :
    Host.Outcome State Fault Refusal :=
  slotExec (.mmz af bf t aoff woff) s (fun s => s.arrayStart s.cur (.mmz af bf t aoff woff) af bf t aoff woff true false)

def execMmat (af bf : BitVec 5) (t : BitVec 4) (aoff : BitVec 11) (woff : BitVec 12) (s : State) :
    Host.Outcome State Fault Refusal :=
  slotExec (.mmat af bf t aoff woff) s (fun s => s.arrayStart s.cur (.mmat af bf t aoff woff) af bf t aoff woff false true)

def execMmzt (af bf : BitVec 5) (t : BitVec 4) (aoff : BitVec 11) (woff : BitVec 12) (s : State) :
    Host.Outcome State Fault Refusal :=
  slotExec (.mmzt af bf t aoff woff) s (fun s => s.arrayStart s.cur (.mmzt af bf t aoff woff) af bf t aoff woff true true)

/-- R201. -/
def execMclr (t : BitVec 4) (s : State) : Host.Outcome State Fault Refusal :=
  slotExec (.mclr t) s (fun s => s.tileResult s.cur (.mclr t) t.toNat false (0, 32768))

/-- R202. -/
def execMaddc (t u : BitVec 4) (s : State) : Host.Outcome State Fault Refusal :=
  slotExec (.maddc t u) s (fun s =>
    s.tileResult s.cur (.maddc t u) t.toNat false ((s.core s.cur).addTiles t.toNat u.toNat, 32768))

/-- R203: every lane of D is written. -/
def execMcvt (af : BitVec 5) (t : BitVec 4) (cl : Bool) (d : SliceOp) (s : State) : Host.Outcome State Fault Refusal :=
  slotExec (.mcvt af t cl d) s (fun s =>
    (s.record s.cur 5 4 (sliceResult cl d (BitVec.allOnes 256) ((s.core s.cur).cvtLanes (tileNum af false) t.toNat d))).mxReserve
      s.cur (.mcvt af t cl d))

def execMldc (af : BitVec 5) (t : BitVec 4) (cl : Bool) (o : SliceOp) (s : State) : Host.Outcome State Fault Refusal :=
  slotExec (.mldc af t cl o) s (fun s =>
    s.tileResult s.cur (.mldc af t cl o) t.toNat false ((s.core s.cur).ldcBytes (tileNum af false) t.toNat cl o false))

def execMbias (af : BitVec 5) (t : BitVec 4) (cl : Bool) (o : SliceOp) (s : State) : Host.Outcome State Fault Refusal :=
  slotExec (.mbias af t cl o) s (fun s =>
    s.tileResult s.cur (.mbias af t cl o) t.toNat false ((s.core s.cur).ldcBytes (tileNum af false) t.toNat cl o true))

/-- R204. -/
def execMstc (af : BitVec 5) (t : BitVec 4) (aoff : BitVec 11) (s : State) : Host.Outcome State Fault Refusal :=
  slotExec (.mstc af t aoff) s (fun s =>
    let r := mstcRange af aoff
    (s.updCore s.cur (fun c => { c with
      nextId := c.nextId + 1
      mstcs := c.mstcs ++ [⟨c.nextId, s.now + 8, r.1, r.2, c.stcBytes (tileNum af true) t.toNat, c.regs.pc.toNat, c.schedule⟩] })).mxReserve
        s.cur (.mstc af t aoff))

/-! ## Scale loads (R205) -/

/-- Reserves the banks of an `sf` instruction through a number of cycles (R216). -/
def State.sfReserve (s : State) (n : Nat) (i : Instr) (last : Nat) : State :=
  s.updCore n (fun c => c.reserve s.now .issue ((sfBanks i).map (fun b => (b.1, b.2, last))))

/-- A scale load reads the A buffer at issue and lands after 4 cycles. -/
def State.scaleLoad (s : State) (n : Nat) (b : Bool) (sel : BitVec 4) (aoff : BitVec 15) : State :=
  s.updCore n (fun c => { c with
    nextId := c.nextId + 1
    scales := c.scales ++ [⟨c.nextId, s.now + 4, b, 16 * (sel.toNat + 1), c.bufRead .a (16 * aoff.toNat) (16 * (sel.toNat + 1))⟩] })

def execSlda (sel : BitVec 4) (aoff : BitVec 15) (s : State) : Host.Outcome State Fault Refusal :=
  slotExec (.slda sel aoff) s (fun s => (s.scaleLoad s.cur false sel aoff).sfReserve s.cur (.slda sel aoff) 0)

def execSldb (sel : BitVec 4) (aoff : BitVec 15) (s : State) : Host.Outcome State Fault Refusal :=
  slotExec (.sldb sel aoff) s (fun s => (s.scaleLoad s.cur true sel aoff).sfReserve s.cur (.sldb sel aoff) 0)

/-! ## Fill and park (R232, R233) -/

/-- The bytes of a fill: the scalar twice in each 16-byte unit. -/
def fillBytes (units : Nat) (x : Word) : Nat := packBits 64 (List.replicate (2 * units) x.toNat)

/-- FILL completes in cycle issue + 1 + floor(N / 32) and is visible in the next (R232). -/
def execFill (x : BitVec 6) (n : BitVec 11) (aoff : BitVec 15) (s : State) : Host.Outcome State Fault Refusal :=
  slotExec (.fill x n aoff) s (fun s =>
    (s.updCore s.cur (fun c => { c with
      nextId := c.nextId + 1
      fills := c.fills ++ [⟨c.nextId, s.now + 2 + n.toNat / 32, 16 * aoff.toNat, 16 * (n.toNat + 1),
        fillBytes (n.toNat + 1) (c.sreg x.toNat), c.regs.pc.toNat, c.schedule⟩] })).sfReserve
          s.cur (.fill x n aoff) (1 + n.toNat / 32))

/-- PARK writes its units in cycle issue + 2 (R233). -/
def execPark (coff : BitVec 12) (cl : Bool) (o : SliceOp) (s : State) : Host.Outcome State Fault Refusal :=
  slotExec (.park coff cl o) s (fun s =>
    (s.updCore s.cur (fun c => { c with
      nextId := c.nextId + 1
      parks := c.parks ++ [⟨c.nextId, s.now + 2, 128 * coff.toNat, 128 * o.w,
        packBits 1024 ((c.sliceLines cl o.start.toNat o.w).map (fun x => x.toNat)), c.regs.pc.toNat, c.schedule⟩] })).sfReserve
          s.cur (.park coff cl o) 2)

/-- UNPK reads its units at issue and lands after 4 cycles, in every lane (R233). -/
def execUnpk (coff : BitVec 12) (cl : Bool) (d : SliceOp) (s : State) : Host.Outcome State Fault Refusal :=
  slotExec (.unpk coff cl d) s (fun s =>
    let c := s.core s.cur
    (s.record s.cur 7 4 (.slices cl d.start.toNat (BitVec.allOnes 256) ((List.range d.w).map (fun i =>
      BitVec.ofNat 1024 (c.bufRead .c (128 * (coff.toNat + i)) 128))))).sfReserve s.cur (.unpk coff cl d) 0)

end Sys2Proof.Machine
end

