-- ==== Sys2Proof/Machine/LoadStore.lean ====
section
/-! DEFINITION. The load/store slot (R206 to R231): loads, stores, atomics, PREF, TXINIT and TXARV, the starts of jobs (R226)
and races with jobs (R249). -/

namespace Sys2Proof.Machine

/-! ## Shared operations -/

/-- The first byte of an access that lies in a range; `none` when they do not meet. -/
def Plan.firstIn (p : Plan) (base len : Nat) : Option Nat :=
  (p.pieces.filter (fun x => rangesMeet (x.addr, x.len) (base, len))).foldl (fun m x =>
    let a := max x.addr base
    match m with
    | none => some a
    | some b => some (min a b)) none

/-- Whether the write footprint of a job is one that an access of core n can race with (R249). -/
def State.raceable (s : State) (n : Nat) (j : Job) : Bool :=
  let (base, len) := j.writeFoot
  decide (0 < len) && j.state != .complete &&
    (if base < 2 ^ 52 then s.vfOf n == s.vfOf j.core
     else decide (commonsBase ≤ base) || j.core == n)

/-- Sets RACE and writes a record for each incomplete job whose write footprint the access meets (R249, R331). A start that still waits behind a
store of its colour is no job yet (DESIGN CHOICE, log 50). -/
def State.race (s : State) (n : Nat) (p : Plan) : State :=
  if p.cls == .pref then s
  else (s.die (dieOf n)).jobs.foldl (fun s j =>
    if s.raceable n j then
      match p.firstIn j.writeFoot.1 j.writeFoot.2 with
      | some a =>
        let s := s.updCore n (fun c => { c with regs := { c.regs with stat := { c.regs.stat with race := true } } })
        let c := s.core n
        s.emit n 5 c.regs.pc.toNat c.schedule [a, j.w4, 64 * j.bundle]
      | none => s
    else s) s

/-- The reservation of an `ls` access, for its issue cycle (R216), and its races. -/
def State.lsBegin (s : State) (n : Nat) (p : Plan) : State :=
  (s.race n p).updCore n (fun c => c.reserve s.now .issue (p.banks.map (fun b => (b.1, b.2, 0))))

/-- A long-pending load (R41, R243): the bytes outside global memory are read at issue. -/
def State.longLoad (s : State) (n : Nat) (p : Plan) (d : LoadDest) : State :=
  let as := p.globalAddrs
  let here := (p.pieces.filter (fun x => !decide (x.addr < 2 ^ 52))).foldl
    (fun m x => Memory.writeN m x.addr x.len (s.localRead n x.addr x.len)) []
  let (tr, s) := s.beginTrans n (s.vfOf n) .load as
  let (w, s) := s.draw
  s.updCore n (fun c => { c with
    nextId := c.nextId + 1
    loads := c.loads ++ [⟨c.nextId, .load, c.regs.pc.toNat, 6, d.locs, d, loadParts as (s.now + 1 + w), here, tr, none, false, none⟩] })

/-- A load (R211, R212, R218 to R223). -/
def State.lsLoad (s : State) (n : Nat) (i : Instr) : State :=
  match (s.core n).plan i with
  | none => s
  | some p =>
    match p.dest with
    | none => s
    | some d =>
      let s := s.lsBegin n p
      match s.planLat n p with
      | some lat => s.record n 6 lat (d.result (s.localRead n))
      | none => s.longLoad n p d

/-- A global store enters its colour queue; an overflow performs the queue first (R213). -/
def State.queueStore (s : State) (n col : Nat) (cells : List (Nat × Byte × Byte)) : State :=
  let as := distinct (cells.map (fun e => e.1))
  let s := if 512 < (s.core n).queueSectors col + (sectorsOf as).length then
      (s.perform n (fun e => e.col == col) []).updCore n (fun c => { c with
        regs := { c.regs with stat := { closeWindow c.regs.stat with noreplay := true } } })
    else s
  let (tr, s) := s.beginTrans n (s.vfOf n) .store as
  s.updCore n (fun c => { c with
    nextId := c.nextId + 1
    queue := c.queue ++ [⟨c.nextId, col, c.regs.pc.toNat, cells, tr⟩] })

/-- A commons store joins the store list of its region's group (R250, R261). -/
def State.commonsStore (s : State) (n : Nat) (cells : List (Nat × Byte × Byte)) : State :=
  let c := s.core n
  cells.foldl (fun s e =>
    match s.regionAt n e.1 with
    | none => s
    | some r => s.updDie (dieOf n) (fun d =>
      let same := fun (x : CStore) => x.core == n && x.pos == c.pos && x.launch == r.launch && x.group == r.group && x.sub == 0
      if d.stores.any same then { d with stores := d.stores.map (fun x => if same x then { x with bytes := x.bytes ++ [e] } else x) }
      else { d with stores := d.stores ++ [⟨r.launch, r.group, n, c.pos, 0, [e]⟩] })) s

/-- Marks the known barriers that a write of the A buffer touches (R229): the 16-byte blocks that a TXINIT, a TXARV, a TXWAIT or a job's
decrement has named; a store to any other block makes no test (DESIGN CHOICE, log 45). -/
def Core.txTouchRange (c : Core) (off len : Nat) : Core :=
  { c with txTouch := c.txTouch ++ c.txKnown.filter (fun b => rangesMeet (b, 16) (off, len) && !c.txTouch.contains b) }

/-- A store to a typed buffer. -/
def State.bufferStore (s : State) (n : Nat) (x : Piece) : State :=
  match bufOf 0 x.addr with
  | some (b, off) =>
    let c := s.core n
    let s := s.bufWrite n false b off x.len x.val x.mask c.regs.pc.toNat c.schedule
    if b = .a then s.updCore n (fun d => { d.txTouchRange off x.len with oldA := d.oldA <|> some c.bufA }) else s
  | none => s

/-- The start of a job through an aperture (R226). -/
def State.startJob (s : State) (n queue col : Nat) (v : Word) : State :=
  let c := s.core n
  let t := v.toNat % 256
  let tpl := getD 0 c.templates t
  let param := BitVec.ofNat 64 (v.toNat / 256)
  let globalWrite := decide (bits tpl.toNat 767 704 ≠ 0) && decide (movedField tpl param 703 640 1 < 2 ^ 52)
  let s := if globalWrite || c.queue.any (fun e => e.col == col) then s.closeWin n else s
  let j : JobStart := ⟨queue, t, param, c.regs.pc.toNat, c.schedule, c.pos⟩
  s.perform n (fun e => e.col == col) [.start j]

/-- A store (R212): to buffers at once, to the commons' next plane, into the colour queue, to the control window in the next
cycle, or the start of a job. -/
def State.lsStore (s : State) (n : Nat) (i : Instr) : State :=
  match (s.core n).plan i with
  | none => s
  | some p =>
    let s := s.lsBegin n p
    let win := fun (x : Piece) => s.win n x.addr
    let s := p.pieces.foldl (fun s x => s.bufferStore n x) s
    let s := s.commonsStore n ((p.pieces.filter (fun x => win x == some .commons)).flatMap (fun x =>
      (x.cells.filter (fun e => e.2.2 != 0)).map (fun e => (e.1 - commonsBase, e.2))))
    let cells := s.globalCells n p
    let s := if cells = [] then s else s.queueStore n p.col cells
    let s := p.pieces.foldl (fun s x => match win x with
      | some .csr => s.updCore n (fun c => { c with csrw := c.csrw ++ [((x.addr - csrBase) / 8, p.value)] })
      | some .copyAp => s.startJob n ((x.addr - copyBase) / 0x1000) p.col p.value
      | some .bankAp => s.startJob n (16 + (x.addr - bankBase) / 0x1000) p.col p.value
      | _ => s) s
    s.updCore n (fun c => { c with pos := c.pos + 1 })

/-- An atomic (R224, R225): its colour and every queue entry over its bytes are performed, then the atomic itself; the window
closes. -/
def State.lsAtomic (s : State) (n : Nat) (i : Instr) (op : AtomicOp) (y : Word) : State :=
  match (s.core n).plan i with
  | none => s
  | some p =>
    match p.dest, p.pieces with
    | some d, x :: _ =>
      let s := s.lsBegin n p
      let as := (List.range p.size).map (x.addr + ·)
      let hit := (s.core n).queue.filter (fun e => e.written.any (fun b => as.contains b.1))
      let cols := p.col :: hit.map (fun e => e.col)
      let (tr, s) := s.beginTrans n (s.vfOf n) .atomic as
      let id := (s.core n).nextId
      let s := s.updCore n (fun c => { c with
        nextId := c.nextId + 1
        loads := c.loads ++ [⟨id, .atomic, c.regs.pc.toNat, 6, d.locs, d, loadParts as s.now, [], tr, none, false, none⟩] })
      (s.perform n (fun e => cols.contains e.col) [.atomic id op p.size x.addr p.value y]).closeWin n
    | _, _ => s

/-- PREF starts a translation and nothing else (R228). -/
def State.lsPref (s : State) (n : Nat) (i : Instr) : State :=
  match (s.core n).plan i with
  | none => s
  | some p =>
    match p.pieces with
    | x :: _ =>
      if x.addr < 2 ^ 52 then
        let (tr, s) := s.beginTrans n (s.vfOf n) .pref [x.addr]
        if tr.waits.isEmpty then s
        else s.updCore n (fun c => { c with
          nextId := c.nextId + 1
          loads := c.loads ++ [⟨c.nextId, .pref, c.regs.pc.toNat, 6, [], .scalar 0 1 false x.addr, [], [], tr, none, false, none⟩] })
      else s
    | [] => s

/-- TXINIT and TXARV reach the barrier monitor, which applies them at the end of the cycle (R229, R231). -/
def State.lsTx (s : State) (n : Nat) (i : Instr) (init : Bool) : State :=
  match (s.core n).plan i with
  | none => s
  | some p =>
    match p.pieces with
    | x :: _ =>
      (s.lsBegin n p).updCore n (fun c =>
        let off := x.addr - aBase
        let c := c.txKnow off
        { c with txOp := some ⟨off, p.value, init, c.regs.pc.toNat, c.schedule⟩, txTouch := off :: c.txTouch.filter (· != off) })
    | [] => s

/-! ## Meanings -/

def execLds (b d : BitVec 6) (sz : BitVec 2) (sgn : Bool) (off : BitVec 32) (s : State) : Host.Outcome State Fault Refusal :=
  slotExec (.lds b d sz sgn off) s (fun s => s.lsLoad s.cur (.lds b d sz sgn off))

def execSts (col : BitVec 3) (b d : BitVec 6) (sz : BitVec 2) (off : BitVec 32) (s : State) :
    Host.Outcome State Fault Refusal :=
  slotExec (.sts col b d sz off) s (fun s => s.lsStore s.cur (.sts col b d sz off))

def execLdv (b : BitVec 6) (k : BitVec 4) (off : BitVec 21) (cl : Bool) (d : SliceOp) (s : State) :
    Host.Outcome State Fault Refusal :=
  slotExec (.ldv b k off cl d) s (fun s => s.lsLoad s.cur (.ldv b k off cl d))

def execStv (col : BitVec 3) (b : BitVec 6) (k : BitVec 4) (off : BitVec 21) (cl : Bool) (o : SliceOp) (s : State) :
    Host.Outcome State Fault Refusal :=
  slotExec (.stv col b k off cl o) s (fun s => s.lsStore s.cur (.stv col b k off cl o))

def execLdvs (b g : BitVec 6) (k : BitVec 4) (off : BitVec 21) (cl : Bool) (d : SliceOp) (s : State) :
    Host.Outcome State Fault Refusal :=
  slotExec (.ldvs b g k off cl d) s (fun s => s.lsLoad s.cur (.ldvs b g k off cl d))

def execStvs (col : BitVec 3) (b g : BitVec 6) (k : BitVec 4) (off : BitVec 21) (cl : Bool) (o : SliceOp) (s : State) :
    Host.Outcome State Fault Refusal :=
  slotExec (.stvs col b g k off cl o) s (fun s => s.lsStore s.cur (.stvs col b g k off cl o))

def execLdvb (b : BitVec 6) (k : BitVec 4) (off : BitVec 21) (cl : Bool) (d : SliceOp) (s : State) :
    Host.Outcome State Fault Refusal :=
  slotExec (.ldvb b k off cl d) s (fun s => s.lsLoad s.cur (.ldvb b k off cl d))

def execLdvx (b : BitVec 6) (k : BitVec 4) (idx : SliceOp) (cl : Bool) (d : SliceOp) (s : State) :
    Host.Outcome State Fault Refusal :=
  slotExec (.ldvx b k idx cl d) s (fun s => s.lsLoad s.cur (.ldvx b k idx cl d))

def execStvx (col : BitVec 3) (b : BitVec 6) (k : BitVec 4) (idx : SliceOp) (cl : Bool) (o : SliceOp) (s : State) :
    Host.Outcome State Fault Refusal :=
  slotExec (.stvx col b k idx cl o) s (fun s => s.lsStore s.cur (.stvx col b k idx cl o))

def execLdk (b : BitVec 6) (k : BitVec 4) (off : BitVec 21) (cl : Bool) (m : BitVec 6) (s : State) :
    Host.Outcome State Fault Refusal :=
  slotExec (.ldk b k off cl m) s (fun s => s.lsLoad s.cur (.ldk b k off cl m))

def execStk (col : BitVec 3) (b : BitVec 6) (k : BitVec 4) (off : BitVec 21) (cl : Bool) (m : BitVec 6) (s : State) :
    Host.Outcome State Fault Refusal :=
  slotExec (.stk col b k off cl m) s (fun s => s.lsStore s.cur (.stk col b k off cl m))

def execAtadd (col : BitVec 3) (b d : BitVec 6) (sz : BitVec 2) (off : BitVec 32) (s : State) :
    Host.Outcome State Fault Refusal :=
  slotExec (.atadd col b d sz off) s (fun s => s.lsAtomic s.cur (.atadd col b d sz off) .add 0)

def execAtmin (col : BitVec 3) (b d : BitVec 6) (sz : BitVec 2) (off : BitVec 32) (s : State) :
    Host.Outcome State Fault Refusal :=
  slotExec (.atmin col b d sz off) s (fun s => s.lsAtomic s.cur (.atmin col b d sz off) .min 0)

def execAtmax (col : BitVec 3) (b d : BitVec 6) (sz : BitVec 2) (off : BitVec 32) (s : State) :
    Host.Outcome State Fault Refusal :=
  slotExec (.atmax col b d sz off) s (fun s => s.lsAtomic s.cur (.atmax col b d sz off) .max 0)

def execAtminu (col : BitVec 3) (b d : BitVec 6) (sz : BitVec 2) (off : BitVec 32) (s : State) :
    Host.Outcome State Fault Refusal :=
  slotExec (.atminu col b d sz off) s (fun s => s.lsAtomic s.cur (.atminu col b d sz off) .minu 0)

def execAtmaxu (col : BitVec 3) (b d : BitVec 6) (sz : BitVec 2) (off : BitVec 32) (s : State) :
    Host.Outcome State Fault Refusal :=
  slotExec (.atmaxu col b d sz off) s (fun s => s.lsAtomic s.cur (.atmaxu col b d sz off) .maxu 0)

def execAtand (col : BitVec 3) (b d : BitVec 6) (sz : BitVec 2) (off : BitVec 32) (s : State) :
    Host.Outcome State Fault Refusal :=
  slotExec (.atand col b d sz off) s (fun s => s.lsAtomic s.cur (.atand col b d sz off) .and 0)

def execAtor (col : BitVec 3) (b d : BitVec 6) (sz : BitVec 2) (off : BitVec 32) (s : State) :
    Host.Outcome State Fault Refusal :=
  slotExec (.ator col b d sz off) s (fun s => s.lsAtomic s.cur (.ator col b d sz off) .or 0)

def execAtxch (col : BitVec 3) (b d : BitVec 6) (sz : BitVec 2) (off : BitVec 32) (s : State) :
    Host.Outcome State Fault Refusal :=
  slotExec (.atxch col b d sz off) s (fun s => s.lsAtomic s.cur (.atxch col b d sz off) .xchg 0)

def execAtcas (col : BitVec 3) (b d c : BitVec 6) (sz : BitVec 2) (off : BitVec 32) (s : State) :
    Host.Outcome State Fault Refusal :=
  slotExec (.atcas col b d c sz off) s (fun s =>
    s.lsAtomic s.cur (.atcas col b d c sz off) .cas ((s.core s.cur).sreg c.toNat))

def execPref (b : BitVec 6) (off : BitVec 32) (s : State) : Host.Outcome State Fault Refusal :=
  slotExec (.pref b off) s (fun s => s.lsPref s.cur (.pref b off))

def execTxinit (b d : BitVec 6) (off : BitVec 32) (s : State) : Host.Outcome State Fault Refusal :=
  slotExec (.txinit b d off) s (fun s => s.lsTx s.cur (.txinit b d off) true)

def execTxarv (b d : BitVec 6) (off : BitVec 32) (s : State) : Host.Outcome State Fault Refusal :=
  slotExec (.txarv b d off) s (fun s => s.lsTx s.cur (.txarv b d off) false)

end Sys2Proof.Machine
end

