-- ==== Sys2Proof/Machine/Vector.lean ====
section
/-! DEFINITION. The vector slots (R155 to R185). Latencies are those of R158. -/

namespace Sys2Proof.Machine

/-! ## Arithmetic (R161 to R164) -/

def execVadd (u : VectorSlot) (ty k : BitVec 4) (sat : Bool) (d x y : SliceOp) (s : State) : Host.Outcome State Fault Refusal :=
  slotExec (.vadd u ty k sat d x y) s (arith2 u ty k sat d x y 1 4 (· + ·) FVal.add)

def execVsub (u : VectorSlot) (ty k : BitVec 4) (sat : Bool) (d x y : SliceOp) (s : State) : Host.Outcome State Fault Refusal :=
  slotExec (.vsub u ty k sat d x y) s (arith2 u ty k sat d x y 1 4 (· - ·) (fun a b => a.add b.neg))

def execVmul (u : VectorSlot) (ty k : BitVec 4) (sat : Bool) (d x y : SliceOp) (s : State) : Host.Outcome State Fault Refusal :=
  slotExec (.vmul u ty k sat d x y) s (arith2 u ty k sat d x y 3 5 (· * ·) FVal.mul)

def execVfma (u : VectorSlot) (ty k : BitVec 4) (sat : Bool) (d x y : SliceOp) (s : State) : Host.Outcome State Fault Refusal :=
  slotExec (.vfma u ty k sat d x y) s
    (arith3 u ty k sat d x y (fun z a b => a * b + z) (fun z a b => (a.mul b).add z))

def execVfms (u : VectorSlot) (ty k : BitVec 4) (sat : Bool) (d x y : SliceOp) (s : State) : Host.Outcome State Fault Refusal :=
  slotExec (.vfms u ty k sat d x y) s
    (arith3 u ty k sat d x y (fun z a b => z - a * b) (fun z a b => z.add (a.mul b).neg))

def execVmin (u : VectorSlot) (ty k : BitVec 4) (d x y : SliceOp) (s : State) : Host.Outcome State Fault Refusal :=
  slotExec (.vmin u ty k d x y) s (lanes2 u (latIF ty 1 2) (vtypeD ty) k d x y (fun a b =>
    placePat (vtypeD ty) d.w (minPat (vtypeD ty) a b)))

def execVmax (u : VectorSlot) (ty k : BitVec 4) (d x y : SliceOp) (s : State) : Host.Outcome State Fault Refusal :=
  slotExec (.vmax u ty k d x y) s (lanes2 u (latIF ty 1 2) (vtypeD ty) k d x y (fun a b =>
    placePat (vtypeD ty) d.w (maxPat (vtypeD ty) a b)))

def execVabs (u : VectorSlot) (ty k : BitVec 4) (sat : Bool) (d x : SliceOp) (s : State) : Host.Outcome State Fault Refusal :=
  slotExec (.vabs u ty k sat d x) s (lanes1 u 1 (vtypeD ty) k d x (absLane (vtypeD ty) d.w sat))

def execVneg (u : VectorSlot) (ty k : BitVec 4) (sat : Bool) (d x : SliceOp) (s : State) : Host.Outcome State Fault Refusal :=
  slotExec (.vneg u ty k sat d x) s (lanes1 u 1 (vtypeD ty) k d x (negLane (vtypeD ty) d.w sat))

def execVaddi (u : VectorSlot) (ty k : BitVec 4) (sat : Bool) (d x : SliceOp) (imm : BitVec 16) (s : State) :
    Host.Outcome State Fault Refusal :=
  slotExec (.vaddi u ty k sat d x imm) s (lanes1 u 1 (vtypeD ty) k d x (fun a =>
    fit (vtypeD ty) d.w sat (.int (((vtypeD ty).value a).toI + immInt (vtypeD ty) imm))))

def execVmuli (u : VectorSlot) (ty k : BitVec 4) (sat : Bool) (d x : SliceOp) (imm : BitVec 16) (s : State) :
    Host.Outcome State Fault Refusal :=
  slotExec (.vmuli u ty k sat d x imm) s (lanes1 u 3 (vtypeD ty) k d x (fun a =>
    fit (vtypeD ty) d.w sat (.int (((vtypeD ty).value a).toI * immInt (vtypeD ty) imm))))

/-! ## Logic, shifts, counts (R165 to R167) -/

def execVand (u : VectorSlot) (ty k : BitVec 4) (d x y : SliceOp) (s : State) : Host.Outcome State Fault Refusal :=
  slotExec (.vand u ty k d x y) s (lanes2 u 1 (vtypeD ty) k d x y (fun a b => placePat (vtypeD ty) d.w (a &&& b)))

def execVor (u : VectorSlot) (ty k : BitVec 4) (d x y : SliceOp) (s : State) : Host.Outcome State Fault Refusal :=
  slotExec (.vor u ty k d x y) s (lanes2 u 1 (vtypeD ty) k d x y (fun a b => placePat (vtypeD ty) d.w (a ||| b)))

def execVxor (u : VectorSlot) (ty k : BitVec 4) (d x y : SliceOp) (s : State) : Host.Outcome State Fault Refusal :=
  slotExec (.vxor u ty k d x y) s (lanes2 u 1 (vtypeD ty) k d x y (fun a b => placePat (vtypeD ty) d.w (a ^^^ b)))

def execVnot (u : VectorSlot) (ty k : BitVec 4) (d x : SliceOp) (s : State) : Host.Outcome State Fault Refusal :=
  slotExec (.vnot u ty k d x) s (lanes1 u 1 (vtypeD ty) k d x (fun a =>
    placePat (vtypeD ty) d.w (2 ^ (vtypeD ty).width - 1 - a)))

def execVshl (u : VectorSlot) (ty k : BitVec 4) (d x y : SliceOp) (s : State) : Host.Outcome State Fault Refusal :=
  slotExec (.vshl u ty k d x y) s (lanes2 u 1 (vtypeD ty) k d x y (fun a b =>
    placePat (vtypeD ty) d.w (shlPat (vtypeD ty) (b % 64) a)))

def execVshr (u : VectorSlot) (ty k : BitVec 4) (d x y : SliceOp) (s : State) : Host.Outcome State Fault Refusal :=
  slotExec (.vshr u ty k d x y) s (lanes2 u 1 (vtypeD ty) k d x y (fun a b =>
    placePat (vtypeD ty) d.w (shrPat (vtypeD ty) (b % 64) a)))

def execVsra (u : VectorSlot) (ty k : BitVec 4) (d x y : SliceOp) (s : State) : Host.Outcome State Fault Refusal :=
  slotExec (.vsra u ty k d x y) s (lanes2 u 1 (vtypeD ty) k d x y (fun a b =>
    placePat (vtypeD ty) d.w (sraPat (vtypeD ty) (b % 64) a)))

def execVshli (u : VectorSlot) (ty k : BitVec 4) (d x : SliceOp) (amt : BitVec 6) (s : State) :
    Host.Outcome State Fault Refusal :=
  slotExec (.vshli u ty k d x amt) s (lanes1 u 1 (vtypeD ty) k d x (fun a =>
    placePat (vtypeD ty) d.w (shlPat (vtypeD ty) amt.toNat a)))

def execVshri (u : VectorSlot) (ty k : BitVec 4) (d x : SliceOp) (amt : BitVec 6) (s : State) :
    Host.Outcome State Fault Refusal :=
  slotExec (.vshri u ty k d x amt) s (lanes1 u 1 (vtypeD ty) k d x (fun a =>
    placePat (vtypeD ty) d.w (shrPat (vtypeD ty) amt.toNat a)))

def execVsrai (u : VectorSlot) (ty k : BitVec 4) (d x : SliceOp) (amt : BitVec 6) (s : State) :
    Host.Outcome State Fault Refusal :=
  slotExec (.vsrai u ty k d x amt) s (lanes1 u 1 (vtypeD ty) k d x (fun a =>
    placePat (vtypeD ty) d.w (sraPat (vtypeD ty) amt.toNat a)))

def execVclz (u : VectorSlot) (ty k : BitVec 4) (d x : SliceOp) (s : State) : Host.Outcome State Fault Refusal :=
  slotExec (.vclz u ty k d x) s (lanes1 u 1 (vtypeD ty) k d x (fun a =>
    fit (vtypeD ty) d.w false (.int (clzBits (vtypeD ty).width a))))

def execVpop (u : VectorSlot) (ty k : BitVec 4) (d x : SliceOp) (s : State) : Host.Outcome State Fault Refusal :=
  slotExec (.vpop u ty k d x) s (lanes1 u 1 (vtypeD ty) k d x (fun a =>
    fit (vtypeD ty) d.w false (.int (popCount (vtypeD ty).width a))))

/-! ## Conversion, moves, broadcast (R168 to R172) -/

def execVcvt (u : VectorSlot) (ty k : BitVec 4) (sat : Bool) (d x : SliceOp) (ts : BitVec 4) (s : State) :
    Host.Outcome State Fault Refusal :=
  slotExec (.vcvt u ty k sat d x ts) s (lanes1 u 4 (vtypeD ts) k d x (fun a =>
    fit (vtypeD ty) d.w sat (convert ((vtypeD ts).value a) (vtypeD ty) sat)))

def execVmov (u : VectorSlot) (ty k : BitVec 4) (sat : Bool) (d x : SliceOp) (s : State) : Host.Outcome State Fault Refusal :=
  slotExec (.vmov u ty k sat d x) s (lanes1 u 1 (vtypeD ty) k d x (fun a => fit (vtypeD ty) d.w sat (patConv (vtypeD ty) a)))

def execVbri (u : VectorSlot) (ty k : BitVec 4) (d : SliceOp) (imm : BitVec 16) (s : State) : Host.Outcome State Fault Refusal :=
  slotExec (.vbri u ty k d imm) s (lanesTo u 1 k d (fun _ =>
    let t := vtypeD ty
    let v := match t with
      | .int _ _ => fit t d.w false (.int (immInt t imm))
      | .flt _ => fit t d.w false (convert ((NumFmt.flt .bf16).value imm.toNat) t false)
    allLanes.map (fun _ => v)))

def execVsplat (u : VectorSlot) (ty k : BitVec 4) (d : SliceOp) (y : BitVec 6) (s : State) : Host.Outcome State Fault Refusal :=
  slotExec (.vsplat u ty k d y) s (lanesTo u 1 k d (fun c =>
    let t := vtypeD ty
    let v := placePat t d.w ((c.sreg y.toNat).toNat % 2 ^ t.width)
    allLanes.map (fun _ => v)))

def execVsel (u : VectorSlot) (ty k : BitVec 4) (d x y : SliceOp) (s : State) : Host.Outcome State Fault Refusal :=
  slotExec (.vsel u ty k d x y) s (fun s =>
    let t := vtypeD ty
    let c := s.core s.cur
    let cl := clusterOf u
    let m := c.mask cl k.toNat
    let vals := List.zipWith (fun i (ab : Nat × Nat) => placePat t d.w (if m.getLsbD i then ab.1 else ab.2)) allLanes
      (List.zip (c.patterns cl t x) (c.patterns cl t y))
    s.record s.cur u.slot.index 1 (sliceResult cl d (BitVec.allOnes 256) vals))

/-! ## Compares and masks (R173 to R176) -/

def execVceq (u : VectorSlot) (ty k : BitVec 4) (m : BitVec 6) (x y : SliceOp) (s : State) : Host.Outcome State Fault Refusal :=
  slotExec (.vceq u ty k m x y) s (compareTo u ty k m x y .eq)

def execVcne (u : VectorSlot) (ty k : BitVec 4) (m : BitVec 6) (x y : SliceOp) (s : State) : Host.Outcome State Fault Refusal :=
  slotExec (.vcne u ty k m x y) s (compareTo u ty k m x y .ne)

def execVclt (u : VectorSlot) (ty k : BitVec 4) (m : BitVec 6) (x y : SliceOp) (s : State) : Host.Outcome State Fault Refusal :=
  slotExec (.vclt u ty k m x y) s (compareTo u ty k m x y .lt)

def execVcle (u : VectorSlot) (ty k : BitVec 4) (m : BitVec 6) (x y : SliceOp) (s : State) : Host.Outcome State Fault Refusal :=
  slotExec (.vcle u ty k m x y) s (compareTo u ty k m x y .le)

def execVcmpu (u : VectorSlot) (k : BitVec 4) (j m : BitVec 6) (s : State) : Host.Outcome State Fault Refusal :=
  slotExec (.vcmpu u k j m) s (fun s =>
    let c := s.core s.cur
    let e := c.mask (clusterOf u) k.toNat
    s.record s.cur u.slot.index 1 (.cond j.toNat (e != 0 && (e &&& c.mask (clusterOf u) m.toNat) == e)))

def execKand (u : VectorSlot) (d x y : BitVec 6) (s : State) : Host.Outcome State Fault Refusal :=
  slotExec (.kand u d x y) s (maskTo u d (fun k => k x.toNat &&& k y.toNat))

def execKor (u : VectorSlot) (d x y : BitVec 6) (s : State) : Host.Outcome State Fault Refusal :=
  slotExec (.kor u d x y) s (maskTo u d (fun k => k x.toNat ||| k y.toNat))

def execKxor (u : VectorSlot) (d x y : BitVec 6) (s : State) : Host.Outcome State Fault Refusal :=
  slotExec (.kxor u d x y) s (maskTo u d (fun k => k x.toNat ^^^ k y.toNat))

def execKandn (u : VectorSlot) (d x y : BitVec 6) (s : State) : Host.Outcome State Fault Refusal :=
  slotExec (.kandn u d x y) s (maskTo u d (fun k => k x.toNat &&& ~~~(k y.toNat)))

def execKnot (u : VectorSlot) (d x : BitVec 6) (s : State) : Host.Outcome State Fault Refusal :=
  slotExec (.knot u d x) s (maskTo u d (fun k => ~~~(k x.toNat)))

/-! ## Cross-lane operations (R177 to R181) -/

def execVredadd (u : VectorSlot) (ty k : BitVec 4) (sat : Bool) (d x : SliceOp) (s : State) : Host.Outcome State Fault Refusal :=
  slotExec (.vredadd u ty k sat d x) s (reduceTo u ty k sat d x 4 12 (· + ·) (fun _ => 0)
    (fun f a b => f.round ((f.value a).add (f.value b))) (fun f => 2 ^ (f.width - 1)))

def execVredmax (u : VectorSlot) (ty k : BitVec 4) (d x : SliceOp) (s : State) : Host.Outcome State Fault Refusal :=
  slotExec (.vredmax u ty k d x) s (reduceTo u ty k false d x 4 6 max typeMin (fun f => maxPat (.flt f))
    (fun f => f.infPattern + 2 ^ (f.width - 1)))

def execVredmin (u : VectorSlot) (ty k : BitVec 4) (d x : SliceOp) (s : State) : Host.Outcome State Fault Refusal :=
  slotExec (.vredmin u ty k d x) s (reduceTo u ty k false d x 4 6 min typeMax (fun f => minPat (.flt f)) FFmt.infPattern)

def execVperm (u : VectorSlot) (ty k : BitVec 4) (d x y : SliceOp) (s : State) : Host.Outcome State Fault Refusal :=
  slotExec (.vperm u ty k d x y) s (lanesTo u 2 k d (fun c =>
    let ps := c.patterns (clusterOf u) (vtypeD ty) x
    (c.lanes (clusterOf u) y).map (fun i => placePat (vtypeD ty) d.w (nth 0 ps (i % 256)))))

def execVrot (u : VectorSlot) (ty k : BitVec 4) (d x : SliceOp) (dist : BitVec 8) (s : State) : Host.Outcome State Fault Refusal :=
  slotExec (.vrot u ty k d x dist) s (lanesTo u 2 k d (fun c =>
    let ps := c.patterns (clusterOf u) (vtypeD ty) x
    allLanes.map (fun l => placePat (vtypeD ty) d.w (nth 0 ps ((l + 256 - dist.toNat) % 256)))))

def execVlane (u : VectorSlot) (ty k : BitVec 4) (d : SliceOp) (s : State) : Host.Outcome State Fault Refusal :=
  slotExec (.vlane u ty k d) s (lanesTo u 1 k d (fun _ => allLanes.map (fun (l : Nat) => fit (vtypeD ty) d.w false (.int (l : Int)))))

def execXmov (u : VectorSlot) (k : BitVec 4) (d x : SliceOp) (s : State) : Host.Outcome State Fault Refusal :=
  slotExec (.xmov u k d x) s (fun s =>
    let c := s.core s.cur
    let cl := clusterOf u
    s.record s.cur u.slot.index 2 (sliceResult (!cl) d (c.mask (!cl) k.toNat) ((c.lanes cl x).map (· % 2 ^ (4 * d.w)))))

def execVpack (u : VectorSlot) (ty k : BitVec 4) (sat : Bool) (d x : SliceOp) (fmt : BitVec 5) (s : State) :
    Host.Outcome State Fault Refusal :=
  slotExec (.vpack u ty k sat d x fmt) s (lanesTo u 4 k d (fun c =>
    (c.lanes (clusterOf u) x).map (packLane (vtypeD ty) (narrowFmt fmt) sat x.w d.w)))

def execVunpk (u : VectorSlot) (ty k : BitVec 4) (d x : SliceOp) (fmt : BitVec 5) (s : State) :
    Host.Outcome State Fault Refusal :=
  slotExec (.vunpk u ty k d x fmt) s (lanesTo u 4 k d (fun c =>
    (c.lanes (clusterOf u) x).map (unpackLane (vtypeD ty) (narrowFmt fmt) x.w d.w)))

/-! ## Long operations on vb (R182, R183) -/

def execVdiv (ty k : BitVec 4) (d x y : SliceOp) (s : State) : Host.Outcome State Fault Refusal :=
  slotExec (.vdiv ty k d x y) s (fun s =>
    lanes2 .vb ((s.core s.cur).divLat ty) (vtypeD ty) k d x y (fun a b => match vtypeD ty with
      | .flt f => fit (.flt f) d.w false (.pat (f.div (f.value a) (f.value b)))
      | .int _ _ => 0) s)

def execVsqrt (ty k : BitVec 4) (d x : SliceOp) (s : State) : Host.Outcome State Fault Refusal :=
  slotExec (.vsqrt ty k d x) s (longTo (fun c => c.divLat ty) ty k d x FFmt.sqrt)

def execVrcp (ty k : BitVec 4) (d x : SliceOp) (s : State) : Host.Outcome State Fault Refusal :=
  slotExec (.vrcp ty k d x) s (longTo (fun _ => 8) ty k d x (viaP12 FFmt.p12.recip))

def execVrsq (ty k : BitVec 4) (d x : SliceOp) (s : State) : Host.Outcome State Fault Refusal :=
  slotExec (.vrsq ty k d x) s (longTo (fun _ => 8) ty k d x (viaP12 FFmt.p12.rsqrt))

def execVexp2 (ty k : BitVec 4) (d x : SliceOp) (s : State) : Host.Outcome State Fault Refusal :=
  slotExec (.vexp2 ty k d x) s (longTo (fun _ => 10) ty k d x (viaP12 FFmt.p12.exp2))

def execVlog2 (ty k : BitVec 4) (d x : SliceOp) (s : State) : Host.Outcome State Fault Refusal :=
  slotExec (.vlog2 ty k d x) s (longTo (fun _ => 10) ty k d x (viaP12 FFmt.p12.log2))

/-! ## Deprecated instructions (R184) -/

def execVrcpl (ty k : BitVec 4) (d x : SliceOp) (s : State) : Host.Outcome State Fault Refusal :=
  slotExec (.vrcpl ty k d x) s (fun s => s.expandFor 4 (longTo (fun _ => 12) ty k d x FFmt.recip))

def execVsumx (u : VectorSlot) (ty k : BitVec 4) (d x : SliceOp) (s : State) : Host.Outcome State Fault Refusal :=
  slotExec (.vsumx u ty k d x) s (fun s => s.expandFor 10 (lanesTo u 12 k d (fun c =>
    let t := vtypeD ty
    let en := c.mask (clusterOf u) k.toNat
    let vals := c.patterns (clusterOf u) t x
    let v := match t with
      | .flt f => fit t d.w false (.pat (f.round (exactSum ((enabled en).map (fun l => f.value (nth 0 vals l))))))
      | .int _ _ => 0
    allLanes.map (fun _ => v))))

end Sys2Proof.Machine
end

