-- ==== Sys2Proof/Machine/Stops.lean ====
section
/-! DEFINITION. Stopping a core: the stop at a mark (R122, R352, R401), the end of a wait (R125, R129, R131, R329), the causes that
meet at a boundary (R307), the fault list (R313, R314), debug stops (R335, R336), the drain (R47) and what the stop then leaves. -/

namespace Sys2Proof.Machine

/-! ## Marks -/

/-- RPID of the seal mark of the open frame (R400, R401). -/
def Core.sealRpid (c : Core) : Option Nat :=
  match c.frameOpen with
  | some e => (c.frames.entries[e]?).map (fun x => bits x.toNat 63 32)
  | none => none

/-- Whether the MARK bundle at an index is the seal mark of the open frame. -/
def State.sealMark (s : State) (n bundle : Nat) : Bool :=
  match (s.core n).sealRpid, s.imageOf n with
  | some r, some i => i.marks.any (fun m => m.bundle == bundle && m.rpid == r)
  | _, _ => false

/-- The stop that a MARK bundle takes when it has committed (R122, R401): an evacuation of an image with regions passes over marks
that hold no STEP (R352). -/
def State.markWhy (s : State) (n bundle : Nat) (isStep : Bool) : Option StopWhy :=
  if s.sealMark n bundle then some .seal
  else
    let bound := match s.imageOf n with
      | some i => !i.regions.isEmpty
      | none => false
    match (s.core n).markReq with
    | some .preempt => some (.mark .preempt)
    | some q => if bound && !isStep then none else some (.mark q)
    | none => none

/-- The access of a core failed to translate and stands in its fault list (R313); PREF never faults (R228). -/
def Core.failed (c : Core) : Bool :=
  c.loads.any (fun l => l.kind != .pref && !l.trans.fails.isEmpty) || c.queue.any (fun e => !e.trans.fails.isEmpty)

/-- A trap comes before a stop at a mark (R307). -/
def Core.trapFirst (c : Core) : Bool := !c.pend.isEmpty || c.failed

/-- The stop that a committed MARK bundle leaves for after a pending trap or an expansion: the seal of a frame stays due (R401), another
request waits for the next MARK bundle (R307). -/
def State.markLater (s : State) (n bundle : Nat) (isStep : Bool) : Option StopWhy :=
  let w := s.markWhy n bundle isStep
  if (s.core n).trapFirst && w != some .seal then none else w

/-- The stop at a mark; `late` is 1 when the bundle after the mark would issue in the next cycle (R37). A pending trap comes first
(R307). -/
def State.stopAtMark (s : State) (n bundle late : Nat) (isStep : Bool) : State :=
  let c := s.core n
  if c.run != .running then s
  else if c.trapFirst then s.setCore n { c with stopNext := c.stopNext <|> s.markLater n bundle isStep }
  else match s.markWhy n bundle isStep with
    | some w => (s.setCore n { c with regs := { c.regs with cycle := c.regs.cycle + late } }).beginStop n w
    | none => s

/-! ## Waits -/

/-- The record of a wait (R329). -/
def State.waitRecord (s : State) (n lost : Nat) : State :=
  let c := s.core n
  match c.wait with
  | some (.step g) => s.deviation n 7 lost c.waitPc c.waitSch g 0
  | some (.clasp k) => s.deviation n 7 lost c.waitPc c.waitSch (256 + k) 0
  | some (.tx a p) => s.deviation n 6 lost c.waitPc c.waitSch p a
  | none => s

/-- CYCLE and the deviation counters of a fresh locket (R320). -/
def Core.fillLocket (c : Core) : Core :=
  match c.locket with
  | some k =>
    if k.awaits then { c with locket := some { k with regs := { k.regs with cycle := c.regs.cycle, devc := c.regs.devc } } } else c
  | none => c

/-- The wait of core n ends in this cycle: its record, and the stop of a MARK that the waiting bundle carries (R122, R125, R129,
R131). On BARW, BARAW and TXWAIT too the stop is judged here, so a request that arrives during the wait is honoured (DESIGN CHOICE,
log 45; R122 says it of STEP alone). -/
def State.endWait (s : State) (n : Nat) : State :=
  let c := s.core n
  let isStep := match c.wait with
    | some (.step _) => true
    | _ => false
  let s := s.waitRecord n (c.schedule - (c.waitSch + c.waitLen))
  let s := s.updCore n (fun c => ({ c with wait := none, wakeAt := none, waitMark := false }).fillLocket)
  if c.waitMark then s.stopAtMark n c.waitPc 0 isStep else s

/-! ## Causes at a boundary -/

/-- Place of a cause in the order of R307. A collision, which R307 does not list, follows FRAME (R125). -/
def PendCause.rank : PendCause → Nat
  | .frame _ => 0
  | .collision _ => 1
  | .data _ => 2
  | .job t => if t.cause = 14 then 2 else 3

/-- The record of a cause. -/
def PendCause.record : PendCause → TrapRec
  | .frame t | .collision t | .data t | .job t => t

/-- The cause of the lowest place, the earliest of equals. -/
def firstPend (l : List PendCause) : Option PendCause :=
  l.foldl (fun m p => match m with
    | none => some p
    | some q => if p.rank < q.rank then some p else some q) none

/-- The cause that core n takes in this cycle: at a boundary any; in a wait FRAME, and in TXWAIT the job fault (R275, R307). -/
def Core.pendNow (c : Core) : Option PendCause :=
  match c.wait with
  | none => firstPend c.pend
  | some w => firstPend (c.pend.filter (fun p => match p, w with
    | .frame _, _ => true
    | .job _, .tx _ _ => true
    | _, _ => false))

/-- Core n takes a pending cause (R48, R302): the index is the next bundle, for a collision the one after the STEP
(R125); a job fault met in TXWAIT names the TXWAIT, which then
issues again, so the wait ends with the cycles beyond the TXWAIT's own schedule. -/
def State.takePend (s : State) (n : Nat) (p : PendCause) : State :=
  let c := s.core n
  let inTx := match c.wait with
    | some (.tx _ _) => p.rank != 0
    | _ => false
  let s := if inTx then s.waitRecord n (c.schedule - c.waitSch) else s
  let s := s.updCore n (fun c => if inTx then
      { c with wait := none, wakeAt := none, waitMark := false, pend := c.pend.erase p,
               regs := { c.regs with pc := BitVec.ofNat 24 c.waitPc, loops := c.markLoops } }
    else { c with pend := c.pend.erase p })
  s.takeTrap n { p.record with index := if p.rank = 1 then c.waitPc + 1 else (s.core n).regs.pc.toNat }

/-- The fault list: bundle, address, kind and reason of each failure (R313). -/
def Core.faultList (c : Core) : List (Nat × Nat × Nat × Nat) :=
  (c.loads.filter (fun l => l.kind != .pref)).flatMap (fun l =>
    l.trans.fails.map (fun f => (l.bundle, f.1, (if l.kind = .atomic then 3 else 1), f.2))) ++
  c.queue.flatMap (fun e => e.trans.fails.map (fun f => (e.bundle, f.1, 2, f.2)))

/-- The reported access: the lowest bundle index, among those the lowest address (R313). -/
def leastFault (l : List (Nat × Nat × Nat × Nat)) : Option (Nat × Nat × Nat × Nat) :=
  l.foldl (fun m f => match m with
    | none => some f
    | some g => if f.1 < g.1 ∨ (f.1 = g.1 ∧ f.2.1 < g.2.1) then some f else some g) none

/-- The TRANSLATE record of a core (R304, R313); WAIT is set in the wait of a STEP. -/
def Core.translateRec (c : Core) : TrapRec :=
  let w := match c.wait with
    | some (.step _) => 1
    | _ => 0
  match leastFault c.faultList with
  | some (b, a, k, r) => ⟨13, 0, b % 2 ^ 24 + w * 2 ^ 25 + r * 2 ^ 26 + k * 2 ^ 28, BitVec.ofNat 64 a, c.regs.pc.toNat⟩
  | none => ⟨13, 0, w * 2 ^ 25, 0, c.regs.pc.toNat⟩

/-- The TRANSLATE stop at a boundary, or at once in a wait, which is kept (R313, R314). The record is completed after the drain. -/
def State.stopTranslate (s : State) (n : Nat) : State := s.takeTrap n (s.core n).translateRec

/-- An expansion is under way: the next boundary follows its last step (R184). -/
def Core.expanding (c : Core) (now : Nat) : Bool :=
  match c.expand with
  | some (t, _) => decide (now < t)
  | none => false

/-- Core n is at a bundle boundary: it runs, waits for nothing and is not inside an expansion. -/
def Core.atBoundary (c : Core) (now : Nat) : Bool := c.run == .running && c.wait.isNone && !c.expanding now

/-! ## Debug stops -/

/-- A debug request that takes effect now: at a boundary any; inside a wait a request or a trigger (R335, R336). -/
def Core.debugNow (c : Core) : Bool := if c.wait.isSome then c.dbg.req / 32 % 4 != 0 else c.dbg.req != 0

/-- A debug stop with the breakpoints that matched (R331, R335, R336). -/
def State.debugStop (s : State) (n hits : Nat) : State :=
  let c := s.core n
  let w2 := hits + c.dbg.req + 128 * b2n c.wait.isSome
  (s.setCore n { c with dbg := { c.dbg with req := 0, bhit := BitVec.ofNat 4 hits } }).beginStop n (.debug w2)

/-- Enabled breakpoints at the pc (R335). -/
def Core.breakHits (c : Core) : Nat :=
  if c.dbg.pass = some c.regs.pc then 0
  else ((List.range 4).filter (fun i => c.dbg.ben.getLsbD i && vget c.dbg.brk i 0 == c.regs.pc)).foldl (fun m i => m + 2 ^ i) 0

/-! ## The drain -/

/-- A translation that has ended in a failure. -/
def Trans.failed (t : Trans) : Bool := t.waits.isEmpty && !t.fails.isEmpty

/-- A perform item cannot go on: its entry or atomic has failed to translate (R313). -/
def Core.itemFailed (c : Core) (p : PerformItem) : Bool :=
  match p with
  | .entry q => c.queue.any (fun e => e.seq == q && e.trans.failed)
  | .atomic id .. => c.loads.any (fun l => l.id == id && l.trans.failed)
  | _ => false

/-- The atomics that stand behind a failed item. -/
def Core.stuckAtomics (c : Core) : List Nat :=
  (c.performs.dropWhile (fun p => !c.itemFailed p)).filterMap (fun p => match p with
    | .atomic id .. => some id
    | _ => none)

/-- The accesses that land nothing before a Resume: failed ones, atomics behind a failed item, and loads whose Read must follow one of
these (R242, R313). -/
def Core.stuck (c : Core) : List Load :=
  let atomics := c.stuckAtomics
  c.loads.foldl (fun acc l =>
    if l.trans.failed || atomics.contains l.id || (l.kind == .load && acc.any l.meets) then acc ++ [l] else acc) []

/-- Every recorded result, tile landing, scale load, buffer write and long-pending result has landed; an access that a failed translation
keeps back is not awaited (R47, R48, R198, R313). -/
def Core.drained (c : Core) : Bool :=
  c.results.isEmpty && c.tiles.isEmpty && c.scales.isEmpty && c.mstcs.isEmpty && c.fills.isEmpty && c.parks.isEmpty &&
    c.csrw.isEmpty && (let ids := c.stuck.map (fun l => l.id)
      c.loads.all (fun l => l.kind == .pref || ids.contains l.id))

/-- No walk of the core's accesses is awaited (R313). -/
def Core.walksDone (c : Core) : Bool :=
  c.loads.all (fun l => l.kind == .pref || l.trans.waits.isEmpty) && c.queue.all (fun e => e.trans.waits.isEmpty)

/-- HMVER and LATCLS take the die's present values (R37, R353). -/
def State.readHallmark (s : State) (n : Nat) : State :=
  let h := (s.die (dieOf n)).hallmark
  s.updCore n (fun c => { c with hmver := h.version, latcls := (s.recOf n).lat })

/-- Deletes the queue entries and the atomics that failed to translate, and the jobs that are not queued yet (R310). -/
def Core.dropFailed (c : Core) : Core :=
  { c with
    performs := c.performs.filter (fun p => match p with
      | .start _ => false
      | p => !c.itemFailed p)
    queue := c.queue.filter (fun e => e.trans.fails.isEmpty) }

/-- Entries that no perform asks for yet. -/
def Core.unasked (c : Core) (e : Entry) : Bool := !c.performs.contains (.entry e.seq)

/-- The record of a stopped core in the fault ring (R310). -/
def State.abortRecord (s : State) (n : Nat) (trapped : Bool) : State :=
  match s.launchOf n with
  | none => s
  | some (_, x) =>
    let c := s.core n
    let idx := if trapped then c.trappc.toNat else c.regs.pc.toNat
    s.faultRecord x.vf (idx % 2 ^ 24 + corexy n * 2 ^ 24 + x.image % 2 ^ 16 * 2 ^ 48 +
      (if trapped then c.trapinfo.toNat else 0) * 2 ^ 64 + (if trapped then c.trapaddr.toNat else 0) * 2 ^ 128 +
      c.regs.cycle % 2 ^ 64 * 2 ^ 192)

/-- One step of an abort on a drained core: failing entries are deleted, the others are performed, and then the record is
written (R310). -/
def State.abortCore (s : State) (n : Nat) (trapped : Bool) : State :=
  let s := s.updCore n Core.dropFailed
  let s := s.perform n (s.core n).unasked []
  let c := s.core n
  if c.performs.isEmpty && c.queue.isEmpty then (s.abortRecord n trapped).updCore n (fun c => { c with run := .stopped }) else s

/-- A stop that performs the queues meets a failed translation: it becomes a TRANSLATE stop, and goes on at the Resume (DEDUCED from
R133, R313, R318; log 24). -/
def State.stopFails (s : State) (n : Nat) (w : StopWhy) : State :=
  let s := (s.updCore n (fun c => { c with stopNext := some w })).writeTrap n (s.core n).translateRec
  s.updCore n (fun c => { c with stop := some (.trap c.translateRec) })

/-- A stop at a mark that waits for its jobs, or HALT in its drain, meets a data error, a job fault or RETIRE: it becomes that trap, and goes
on at the Resume (log 24). -/
def State.stopPends (s : State) (n : Nat) (w : StopWhy) (p : PendCause) : State :=
  let t := { p.record with index := (s.core n).regs.pc.toNat }
  (s.updCore n (fun c => { c with stopNext := some w, stop := some (.trap t), pend := c.pend.erase p })).writeTrap n t

/-- The drain of core n is complete and the stop is reported (R47). After HALT, which selects no next bundle, TRAPPC stays as it was and the pc at
the HALT bundle (DESIGN CHOICE, log 50). -/
def State.finishStop (s : State) (n : Nat) (w : StopWhy) : State :=
  let c := s.core n
  match w with
  | .trap t => (s.readHallmark n).writeTrap n (if t.cause = 13 then { c.translateRec with index := t.index } else t)
  | .debug w2 =>
    let s := (s.readHallmark n).updCore n (fun c => { c with
      run := .stopped
      trappc := c.regs.pc.zeroExtend 64 })
    s.emit n 8 c.regs.pc.toNat c.schedule [w2, 0, c.regs.cycle]
  | .mark _ | .seal =>
    let s := ((s.readHallmark n).perform n (s.core n).unasked []).closeWin n
    s.updCore n (fun c => { c with run := .stopped, trappc := c.regs.pc.zeroExtend 64 })
  | .halt => (s.readHallmark n).updCore n (fun c => { c with run := .halted, stop := none, regs := { c.regs with loops := [] } })
  | .abort trapped => (s.readHallmark n).abortCore n trapped
  | .rollback => (s.readHallmark n).updCore n (fun c => { c with run := .stopped })

/-- The cause that a stop at a mark or HALT gives way to after its drain, in the order of R307. -/
def Core.stopPend (c : Core) : Option PendCause := firstPend (c.pend.filter (fun p => p.rank != 0))

/-- What a stop but HALT waits for: its drain, and for TRANSLATE the other walks (R47, R313). -/
def Core.stopReady (c : Core) (w : StopWhy) : Bool :=
  c.drained && (match w with
    | .trap t => t.cause != 13 || c.walksDone
    | .halt => false
    | _ => true)

/-- DRAIN_COMPLETE: the last recorded result of a stopping core has landed (R47, R48). HALT also waits for its queues to be performed
(R133); a pending cause comes before a failed translation (R307). -/
def execDrainComplete (core : Nat) (s : State) : Host.Outcome State Fault Refusal :=
  let c := s.core core
  match c.run, c.stop with
  | .draining, some w =>
    if w = .halt ∧ c.drained = true then
      match c.stopPend with
      | some p => .next (s.stopPends core w p)
      | none => if c.performs.isEmpty && c.queue.isEmpty then .next (s.finishStop core w)
        else if c.failed && c.walksDone then .next (s.stopFails core w)
        else .next s
    else if c.stopReady w then .next (s.finishStop core w)
    else .next s
  | .stopped, some w =>
    match w, c.stopNext with
    | .trap _, some (.abort _) =>
      .next (s.setCore core { c with run := .draining, stop := some (.abort true), stopNext := none })
    | .mark _, _ | .seal, _ =>
      match c.stopPend with
      | some p => .next (s.stopPends core w p)
      | none => if c.failed && c.walksDone then .next (s.stopFails core w) else .next s
    | _, _ => .next s
  | _, _ => .next s

/-- MARK_OVERDUE: the mark-distance count has reached BOUND + 1 (R33). -/
def execMarkOverdue (core : Nat) (s : State) : Host.Outcome State Fault Refusal :=
  let c := s.core core
  if c.atBoundary s.now ∧ c.pend = [] ∧ c.failed = false ∧ c.stopNext = none then
    match s.verdict core with
    | .trap t => if t.cause = 11 then .next (s.takeTrap core t) else .next s
    | _ => .next s
  else .next s

/-- TRANSLATE: a failed translation stops the core at its next bundle boundary (R313). -/
def execTranslate (core : Nat) (s : State) : Host.Outcome State Fault Refusal :=
  let c := s.core core
  if c.run = .running ∧ c.expanding s.now = false ∧ c.failed = true ∧ c.pendNow = none then .next (s.stopTranslate core) else .next s

/-- DEBUG_STOP: a requested or triggered stop takes effect at the next boundary, or at once inside a wait (R336); a trap of the
next bundle comes first (R307). -/
def execDebugStop (core : Nat) (s : State) : Host.Outcome State Fault Refusal :=
  let c := s.core core
  if c.run = .running ∧ c.expanding s.now = false ∧ c.debugNow = true ∧ c.pendNow = none ∧ c.failed = false then
    if c.wait.isSome then .next (s.debugStop core 0)
    else match s.verdict core with
      | .trap _ => .next s
      | _ => .next (s.debugStop core 0)
  else .next s

end Sys2Proof.Machine
end

