-- ==== Sys2Proof/Machine/Landings.lean ====
section
/-! DEFINITION. What lands in a core after issue: results (R38), long-pending results (R41), sector reads (R243), tiles, MSTC,
scales (R194, R205), fills and parks (R232, R233); page walks (R311 to R313); errors met by data (R185, R305, R325). -/

namespace Sys2Proof.Machine

/-- RESULT_LANDING: a recorded result lands in its cycle (R38). -/
def execResultLanding (core id : Nat) (s : State) : Host.Outcome State Fault Refusal := .next (s.landResult core id)

/-- LONG_PENDING_LANDING: a long-pending result whose bytes have all arrived lands and releases its destination (R41); one with an
error lands nothing (R305), and one whose bytes wait for an exhausted stream lands later (R407). -/
def execLongPendingLanding (core id : Nat) (s : State) : Host.Outcome State Fault Refusal :=
  let c := s.core core
  match c.loads.find? (fun l => l.id == id) with
  | none => .next s
  | some l =>
    match l.land with
    | none => .next s
    | some t =>
      if decide (s.now < t) || (!l.err && (!l.trans.ready || s.wayState core l.trans != .active)) then .next s
      else
        let c := { c with loads := c.loads.filter (fun m => m.id != id) }
        let v := if l.err then ResVal.nothing else l.dest.result (fun a n => l.got.readN a n)
        .next (s.setCore core (c.land s.now id v))

/-- GLOBAL_LOAD_READ: part `part` of a global load takes its values from the queues and the store, `back` writes before the present
where the view allows (R214, R243). -/
def execGlobalLoadRead (core id part back : Nat) (s : State) : Host.Outcome State Fault Refusal :=
  match ((s.core core).loads.find? (fun l => l.id == id)).bind (fun l => l.parts[part]?) with
  | some p => if s.now < p.due then .next s else .next (s.readPart core id part back false)
  | none => .next s

/-- TILE_LANDING: a matrix result lands whole on its tile (R194). -/
def execTileLanding (core id : Nat) (s : State) : Host.Outcome State Fault Refusal :=
  let c := s.core core
  match c.tiles.find? (fun l => l.id == id) with
  | none => .next s
  | some l =>
    if s.now < l.land then .next s
    else .next ((s.setCore core { c with tiles := c.tiles.filter (fun m => m.id != id) }).lateWrite core .c
      ⟨id, l.land, 32768 * l.tile + l.off, l.len, l.val, l.bundle, l.sch⟩)

/-- MSTC_LANDING: the converted tile lands in the A buffer (R204). -/
def execMstcLanding (core id : Nat) (s : State) : Host.Outcome State Fault Refusal :=
  let c := s.core core
  match c.mstcs.find? (fun w => w.id == id) with
  | none => .next s
  | some w =>
    if s.now < w.due then .next s
    else .next ((s.setCore core { c with mstcs := c.mstcs.filter (fun m => m.id != id) }).lateWrite core .a w)

/-- Groups of a scale register (R205). -/
def Regs.landScale (r : Regs) (b : Bool) (n val : Nat) : Regs :=
  let put := fun (x : BitVec 2048) => BitVec.ofNat 2048 (mergeBits x.toNat val (allBits n))
  if b then { r with scaleB := put r.scaleB } else { r with scaleA := put r.scaleA }

/-- SCALE_LANDING: an SLDA or SLDB result lands (R205); one from before a release lands in the locket too (R320). -/
def execScaleLanding (core id : Nat) (s : State) : Host.Outcome State Fault Refusal :=
  let c := s.core core
  match c.scales.find? (fun w => w.id == id) with
  | none => .next s
  | some w =>
    if s.now < w.due then .next s
    else
      let c := { c with scales := c.scales.filter (fun m => m.id != id), regs := c.regs.landScale w.b w.n w.val }
      let c := if c.before id then
          { c with locket := c.locket.map (fun k => { k with regs := k.regs.landScale w.b w.n w.val }) } else c
      .next (s.setCore core c)

/-- FILL_COMPLETE: the bytes of a FILL become visible as a whole (R232). -/
def execFillComplete (core id : Nat) (s : State) : Host.Outcome State Fault Refusal :=
  let c := s.core core
  match c.fills.find? (fun w => w.id == id) with
  | none => .next s
  | some w =>
    if s.now < w.due then .next s
    else .next ((s.setCore core { c with fills := c.fills.filter (fun m => m.id != id) }).lateWrite core .a w)

/-- PARK_WRITE: a PARK writes its units (R233). -/
def execParkWrite (core id : Nat) (s : State) : Host.Outcome State Fault Refusal :=
  let c := s.core core
  match c.parks.find? (fun w => w.id == id) with
  | none => .next s
  | some w =>
    if s.now < w.due then .next s
    else .next ((s.setCore core { c with parks := c.parks.filter (fun m => m.id != id) }).lateWrite core .c w)

/-! ## Page walks -/

/-- A load that has just been translated reads and lands no earlier than the next cycle. -/
def Load.afterWalk (l : Load) (now : Nat) : Load :=
  if l.trans.ready then { l with
    parts := l.parts.map (fun p => { p with due := max p.due (now + 1) }), land := l.land.map (fun t => max t (now + 1)) } else l

/-- A walk that was for page number v, and found page p or none, serves page number u (R311). -/
def walkServes (v : Nat) (p : Option Page) (u : Nat) : Bool :=
  u == v || (match p with
    | some q => decide (q.vbase ≤ 4096 * u) && decide (4096 * u < q.vbase + q.size)
    | none => false)

/-- The page numbers of an access that a walk serves are settled. -/
def Trans.settleAll (t : Trans) (k : AccessKind) (as : List Nat) (v : Nat) (p : Option Page) : Trans :=
  (t.waits.filter (walkServes v p)).foldl (fun t u => t.settle k as u p) t

/-- A core's accesses to the page of a walk take its translation, or fail (R312, R313), and its arriving lines go on (R370). A PREF ends with
its walk (R228). -/
def Core.settlePage (c : Core) (now v : Nat) (p : Option Page) : Core :=
  let hit := fun (t : Trans) => t.waits.any (walkServes v p)
  { c with
    istore := { c.istore with
      waits := c.istore.waits.filter (fun e => !walkServes v p e.1)
      noPage := if p.isNone && c.istore.waits.any (fun e => e.1 == v) then distinct (c.istore.noPage ++ [v]) else c.istore.noPage }
    loads := (c.loads.map (fun l => if hit l.trans then
        { l with trans := l.trans.settleAll l.kind l.addrs v p }.afterWalk now else l)).filter (fun l =>
          l.kind != .pref || !l.trans.waits.isEmpty)
    queue := c.queue.map (fun e => if hit e.trans then
        { e with trans := e.trans.settleAll .store (e.bytes.map (fun b => b.1)) v p } else e)
    tlb := match p with
      | some q => if c.loads.any (fun l => hit l.trans) || c.queue.any (fun e => hit e.trans) then tlbInsert 256 c.tlb q else c.tlb
      | none => c.tlb }

/-- A range of a shootdown that has not completed covers a page (R315). -/
def State.shotDown (s : State) (vf v : Nat) : Bool :=
  match (s.vf vf).shoot with
  | some x => decide (x.base ≤ 4096 * v + 4095) && decide (4096 * v < x.base + x.len)
  | none => false

/-- PAGE_WALK: a walk ends (R311); every access of the die that waits for its page goes on or fails, and the performs behind it
run (R312). -/
def execPageWalk (die id : Nat) (s : State) : Host.Outcome State Fault Refusal :=
  match (s.die die).walks.find? (fun w => w.id == id) with
  | none => .next s
  | some w =>
    if s.now < w.due then .next s
    else
      let p := s.pageOf w.vf (4096 * w.vpn)
      let s := s.updDie die (fun d => { d with
        walks := d.walks.filter (fun x => x.id != id)
        tlb := match p with
          | some q => tlbInsert 16384 d.tlb q
          | none => d.tlb
        jobs := d.jobs.map (fun j => if (j.wvpn.map (walkServes w.vpn p)).getD false && s.vfOf j.core == w.vf then
          { j with wvpn := none, walked := j.wvpn, due := max j.due (s.now + 1) } else j) })
      let on := (s.cores.filter (fun e => dieOf e.1 == die && s.vfOf e.1 == w.vf)).map (fun e => e.1)
      let (on, s) := s.shuffle on
      .next (on.foldl (fun s n =>
        let s := s.updCore n (fun c => c.settlePage s.now w.vpn p)
        s.runPerforms (s.core n).performs.length n) s)

/-! ## Errors -/

/-- A DATAERR record (R305). -/
def dataRec (e : DataErr) (slots idx : Nat) : TrapRec := ⟨14, slots, errDetail e.source.toNat e.unit.toNat, e.addr, idx⟩

/-- The DATAERR of a core that takes it later: it waits for the next boundary (R305, R307). -/
def State.pendData (s : State) (n : Nat) (e : DataErr) : State :=
  (s.updCore n (fun c => { c.meetErr n e with pend := c.pend ++ [.data (dataRec e 0 0)] })).unitEvent n e.source.toNat
    e.unit.toNat true

/-- A result that carries an error lands nothing (R305). -/
def Core.spoil (c : Core) (id : Nat) : Core :=
  { c with
    results := c.results.map (fun r => if r.id = id then { r with val := .nothing } else r)
    tiles := c.tiles.map (fun l => if l.id = id then { l with len := 0 } else l)
    mstcs := c.mstcs.map (fun w => if w.id = id then { w with len := 0 } else w)
    scales := c.scales.map (fun w => if w.id = id then { w with n := 0 } else w)
    fills := c.fills.map (fun w => if w.id = id then { w with len := 0 } else w)
    parks := c.parks.map (fun w => if w.id = id then { w with len := 0 } else w) }

/-- Work in flight with a given id. -/
def Core.carries (c : Core) (id : Nat) : Bool :=
  c.results.any (fun r => r.id == id) || c.tiles.any (fun l => l.id == id) || c.mstcs.any (fun w => w.id == id) ||
    c.scales.any (fun w => w.id == id) || c.fills.any (fun w => w.id == id) || c.parks.any (fun w => w.id == id)

/-- A job stops: its channel or queue with it; its core takes the record, DATAERR in place of the job fault for an error on a sector (R275,
R305). -/
def State.stopJob (s : State) (die id : Nat) (f : Option TrapRec) : State :=
  s.updDie die (fun d => { d with jobs := d.jobs.map (fun j => if j.id = id then { j with state := .stopped, fault := f } else j) })

/-- A data error on a sector of a job: SOURCE 0x0A and the queue of the job stand for what the data met (R305), for a bank-product queue its own
number (DESIGN CHOICE, log 50). -/
def State.errJob (s : State) (die : Nat) (j : Job) (e : DataErr) : State :=
  let e := { e with source := 10, unit := BitVec.ofNat 16 j.queueNo }
  let s := (s.stopJob die j.id (some (dataRec e 0 0))).updCore j.core (fun c => c.meetErr j.core e)
  s.unitEvent j.core 10 j.queueNo true

/-- DATA_ERROR: an uncorrectable error in data that the core reads or carries (R185, R305). An expansion fault holds CYCLE at the
issue of the deprecated bundle, twelve cycles before its result would land (R37, R184). An uncorrectable line of the instruction store
is reported as FETCH with SUB ECC when it would issue (R304, R305). -/
def execDataError (core : Nat) (e : DataErr) (site : ErrSite) (s : State) : Host.Outcome State Fault Refusal :=
  let c := s.core core
  match site with
  | .atIssue slots =>
    if e.source = 6 then
      .next (s.setCore core { c with istore := { c.istore with broken := put c.istore.broken c.regs.pc.toNat 1 } })
    else if c.atBoundary s.now ∧ c.pend = [] ∧ c.failed = false ∧ c.stopNext = none ∧ slots ≠ 0 then
      match s.verdict core with
      | .issue _ =>
        .next (((s.setCore core (c.meetErr core e)).unitEvent core e.source.toNat e.unit.toNat true).takeTrap core
          (dataRec e slots.toNat c.regs.pc.toNat))
      | _ => .next s
    else .next s
  | .onResult id => if c.carries id then .next ((s.setCore core (c.spoil id)).pendData core e) else .next s
  | .onLoad id =>
    match c.loads.find? (fun l => l.id == id) with
    | some l =>
      if l.kind = .pref ∨ l.trans.ready = false ∨ l.err = true ∨ (l.kind = .atomic ∧ l.land = none) then .next s
      else .next ((s.setCore core { c with loads := c.loads.map (fun m => if m.id = id then
          { m with err := true, parts := m.parts.map (fun p => { p with got := true }), land := some s.now } else m) }).pendData
            core e)
    | none => .next s
  | .onJob id =>
    match (s.die (dieOf core)).jobs.find? (fun j => j.id == id && j.core == core) with
    | some j =>
      if j.state = .running then .next (s.errJob (dieOf core) j e) else .next s
    | none => .next s
  | .inExpansion k =>
    match c.expand with
    | some (t, id) =>
      let (slot, back, last) := match c.results.find? (fun r => r.id == id) with
        | some r => (r.slot, s.now + 12 - r.land, t + 11 - r.land)
        | none => (0, 0, 9)
      if c.run = .running ∧ s.now < t ∧ k ≠ 0 ∧ k ≤ last then
        let s := s.setCore core { c.meetErr core e with
          expand := none
          results := c.results.filter (fun r => r.id != id)
          regs := { c.regs with pc := BitVec.ofNat 24 c.markPc, loops := c.markLoops, cycle := c.regs.cycle - back } }
        .next ((s.unitEvent core e.source.toNat e.unit.toNat true).takeTrap core
          ⟨6, 2 ^ slot, k % 256 + e.source.toNat * 2 ^ 8 + e.unit.toNat * 2 ^ 16, e.addr, c.markPc⟩)
      else .next s
    | none => .next s

/-- CORRECTED_EVENT: a corrected read or a retried transfer is counted and recorded (R325, R328). -/
def execCorrectedEvent (core source unit : Nat) (s : State) : Host.Outcome State Fault Refusal :=
  .next (s.unitEvent core source unit false)

end Sys2Proof.Machine
end

