-- ==== Sys2Proof/Machine/Engines.lean ====
section
/-! DEFINITION. The engines: edges between jobs (R247), copies and bank products sector by sector (R248, R254, R266 to R274), their
faults (R275), decryption (R271, R404, R405), and the barrier monitor at the end of a cycle (R229, R230). -/

namespace Sys2Proof.Machine

/-! ## Jobs of a die -/

/-- The user of the reservation table that a job is. -/
def Job.user (j : Job) : User := if 16 ≤ j.queue then .bank (j.queue - 16) else .copy j.queue

/-- Two footprints meet (R247): global ones within a launch's address space, buffers within a core, commons within the die. -/
def footMeet (sameVf sameCore : Bool) (a b : Nat × Nat) : Bool :=
  rangesMeet a b && decide (0 < a.2) && decide (0 < b.2) &&
    (if a.1 < 2 ^ 52 then sameVf else if commonsBase ≤ a.1 then true else sameCore)

/-- The edge of R247 from an incomplete earlier job. -/
def State.edge (s : State) (a b : Job) : Bool :=
  let meet := footMeet (s.vfOf a.core == s.vfOf b.core) (a.core == b.core)
  meet a.writeFoot b.readFoot || meet a.writeFoot b.writeFoot || meet a.readFoot b.writeFoot

/-- The jobs of a die that started before one of them. -/
def jobsBefore (id : Nat) : List Job → List Job
  | [] => []
  | j :: rest => if j.id = id then [] else j :: jobsBefore id rest

/-- A job may run: its predecessor on its channel or queue is complete and no edge holds it (R247, R266). -/
def State.jobFree (s : State) (die : Nat) (j : Job) : Bool :=
  (jobsBefore j.id (s.die die).jobs).all (fun a =>
    a.state == .complete || (!(a.core == j.core && a.queue == j.queue) && !s.edge a j))

def State.updJob (s : State) (die id : Nat) (f : Job → Job) : State :=
  s.updDie die (fun d => { d with jobs := d.jobs.map (fun j => if j.id = id then f j else j) })

/-- The job fault of R275. -/
def Job.faultRec (j : Job) (kind addr : Nat) : TrapRec :=
  ⟨9, 0, kind * 2 ^ 16 + j.template * 2 ^ 8 + b2n j.bp * 2 ^ 4 + j.queueNo, BitVec.ofNat 64 addr, 0⟩

/-- A job meets a fault and stops with its channel (R275); code 10 is no job fault but a data error on a sector, which a stream in ERROR
has lost (R305, R407). -/
def State.failJob (s : State) (die : Nat) (j : Job) (kind addr : Nat) : State :=
  if kind = 10 then s.errJob die j ⟨10, 0, BitVec.ofNat 64 addr, 0⟩ else s.stopJob die j.id (some (j.faultRec kind addr))

/-- The world of the frame that a core runs; 0 outside a frame (R400). -/
def Core.world (c : Core) : Nat :=
  match c.frameOpen with
  | some e => match c.frames.entries[e]? with
    | some x => bits x.toNat 7 4
    | none => 0
  | none => 0

/-- The key slot that a job latches; none is the fault KEY (R404). -/
def Core.keyFor (c : Core) (slot : Nat) : Option (BitVec 512) :=
  match find? c.keys slot with
  | none => none
  | some k =>
    let w := bits k.toNat 503 500
    if bit k.toNat 504 && (w == 0 || w == c.world) then some k else none

/-- JOB_BEGIN: a queued job begins to run and latches its key (R266, R404). An empty key slot is the fault KEY at the job's source base
(R271, log 45). -/
def execJobBegin (die id : Nat) (s : State) : Host.Outcome State Fault Refusal :=
  match (s.die die).jobs.find? (fun j => j.id == id) with
  | none => .next s
  | some j =>
    if j.state = .waiting ∧ j.due ≤ s.now ∧ s.jobFree die j = true then
      if tplKey j.tpl = 0 then .next (s.updJob die id (fun j => { j with state := .running }))
      else match (s.core j.core).keyFor (tplKey j.tpl) with
        | some k => .next (s.updJob die id (fun j => { j with state := .running, key := k }))
        | none => .next (s.failJob die j 4 j.srcBase)
    else .next s

/-! ## One access of a job -/

/-- What an access of a job comes to. -/
inductive Access (α : Type) where
  | done (a : α) (s : State)
  | wait (s : State)
  | fault (kind addr : Nat)

/-- An access of a job whose translation is known: its ways carry it, delay it, or lose it as a data error (R407). -/
def State.jobReach (s : State) (j : Job) (pa a : Nat) : Access Nat :=
  match s.reach j.core pa with
  | .active => .done pa s
  | .exhausted => .wait s
  | .error => .fault 10 a

/-- The physical address of a sector of a job: through the die's TLB, a walk, or the fault TRANS (R275, R311). -/
def State.jobPhys (s : State) (die : Nat) (j : Job) (k : AccessKind) (a : Nat) : Access Nat :=
  let vf := s.vfOf j.core
  match findPage (s.die die).tlb vf a with
  | some p =>
    let pa := 4096 * pageFrame p (vpn a) + a % 4096
    if !pageAllows p k then .fault 1 a else if p.dev = 0 then s.jobReach j pa a else .done pa s
  | none =>
    if j.walked = some (vpn a) ∧ (s.pageOf vf a).isNone then .fault 1 a
    else .wait (s.updJob die j.id (fun j => { j with wvpn := some (vpn a), walked := none }))

/-- The bank set of a template (R254, R267). -/
def tplAllows (t : BitVec 1024) (b : Buf) (bank : Nat) : Bool :=
  match b with
  | .a => bit t.toNat (768 + bank)
  | .w => bit t.toNat (800 + bank)
  | .c => bit t.toNat (832 + bank)

/-- Buffer accesses that the jobs of a core have made in this cycle (R266). -/
def Core.jobAccesses (c : Core) (now : Nat) : Nat :=
  (c.rsv.filter (fun r => r.last == now && (match r.user with
    | .copy _ | .bank _ => true
    | _ => false))).length

/-- A buffer sector access of a job: the bank set, the four accesses of a cycle, the banks (R254, R266). -/
def State.jobBank (s : State) (j : Job) (b : Buf) (off addr : Nat) (read : Bool) : Access Unit :=
  let c := s.core j.core
  let bank := b.bank off
  if !tplAllows j.tpl b bank then .fault 3 addr
  else
    let rsv := if read && b == .c then c.rsv.filter (fun r => r.user != .matrix) else c.rsv
    let mine := c.rsv.any (fun r => r.last == s.now && r.user == j.user)
    if 4 ≤ c.jobAccesses s.now || mine || ({ c with rsv := rsv }).bankHeld s.now j.user [(b, bank)] then .wait s
    else .done () (s.setCore j.core (c.reserve s.now j.user [(b, bank, 0)]))

/-- The bytes of a global sector for a job: from one point of the history at or after V_J, which stays where it is (R248). -/
def State.jobRead (s : State) (j : Job) (pa len : Nat) : Nat × State :=
  let (back, s) := s.draw
  (s.histReadN (max (s.least j.view ((List.range len).map (pa + ·))) (s.writes - back)) pa len, s)

/-- A sector of a protected line (R405): the line and its tag are read and authenticated once, whole, and its sectors are released 24 cycles
later. -/
def State.jobDecrypt (s : State) (die : Nat) (j : Job) (a : Nat) : Access Nat :=
  let line := 256 * (a / 256)
  match find? j.lines (a / 256) with
  | some p => .done (p.toNat / 2 ^ (8 * (a % 256)) % 2 ^ 256) s
  | none =>
  let k := j.key.toNat
  let tagA := (bits k 447 384 + 16 * ((line - bits k 383 320) / 256)) % 2 ^ 64
  match s.jobPhys die j .load line with
  | .fault kind x => .fault kind x
  | .wait s => .wait s
  | .done pl s =>
    match s.jobPhys die j .load tagA with
    | .fault kind x => .fault kind x
    | .wait s => .wait s
    | .done pt s =>
      let (ct, s) := s.jobRead j pl 256
      let (tag, s) := s.jobRead j pt 16
      match Config.gcmOpen (BitVec.ofNat 256 k) (BitVec.ofNat 96 (bits k 499 448 * 2 ^ 44 + bits line 51 8))
          (BitVec.ofNat 128 tag) (BitVec.ofNat 2048 ct) with
      | some p => .done (p.toNat / 2 ^ (8 * (a % 256)) % 2 ^ 256)
          (s.updJob die j.id (fun j => { j with lines := put j.lines (a / 256) p, due := s.now + 24 }))
      | none => .fault 5 a

/-- Reads one source sector of a job (R248, R254). The faulting address of R275 is the sector's first byte (DESIGN CHOICE, log 45). A source that
the parameter moves out of its template's space is read where it lies, and undecrypted also where KEY is not 0 (DESIGN CHOICE, log 50). -/
def State.jobSource (s : State) (die : Nat) (j : Job) (sct : Nat) : Access Nat :=
  let a := 32 * sct
  match s.win j.core a with
  | some .global =>
    if tplKey j.tpl ≠ 0 then s.jobDecrypt die j a
    else match s.jobPhys die j .load a with
      | .done pa s =>
        if tplBank j.tpl && j.bp && pa / 2 ^ 36 != j.queueNo then .fault 6 a
        else
          let (v, s) := s.jobRead j pa 32
          .done v s
      | .wait s => .wait s
      | .fault k x => .fault k x
  | some .commons =>
    if (s.regionAt j.core (a - commonsBase)).isNone then .fault 2 a
    else .done ((s.die die).commons.readN (a - commonsBase) 32) s
  | _ =>
    match bufOf 0 a with
    | some (b, off) =>
      match s.jobBank j b off a true with
      | .done _ s => .done ((s.core j.core).bufRead b off 32) s
      | .wait s => .wait s
      | .fault k x => .fault k x
    | none => .fault 2 a

/-- Changed bytes of a sector from its value and mask. -/
def sectorCells (a v m : Nat) : List (Nat × Byte × Byte) :=
  ((List.range 32).map (fun i => (a + i, BitVec.ofNat 8 (v / 2 ^ (8 * i)), BitVec.ofNat 8 (m / 2 ^ (8 * i))))).filter
    (fun e => e.2.2 != 0)

/-- The first byte that a sector's byte mask names. -/
def firstByte (a m : Nat) : Nat := a + ctzBits 32 m

/-- The last byte that a sector's byte mask names. -/
def lastByte (a m : Nat) : Nat := a + m.log2

/-- A job's address lies in the notify page, to which a job makes no notify store (R388). -/
def State.jobNotifies (s : State) (die : Nat) (j : Job) (a : Nat) : Bool :=
  match findPage (s.die die).tlb (s.vfOf j.core) a with
  | some p => p.dev != 0
  | none => false

/-- Writes one destination sector of a job (R248, R270). The faulting address of R275 is the first byte of the sector that the job writes
(DESIGN CHOICE, log 45). A job with KEY ≠ 0 writes no byte outside the typed buffers (R405): where its parameter moves the destination
there, it takes the fault WINDOW (DESIGN CHOICE, log 46). -/
def State.jobWrite (s : State) (die : Nat) (j : Job) (sct bm v m : Nat) : Access Unit :=
  let a := 32 * sct
  let at0 := firstByte a bm
  if tplKey j.tpl ≠ 0 ∧ (bufOf 0 a).isNone = true then .fault 2 at0
  else match s.win j.core a with
  | some .global =>
    match s.jobPhys die j .store at0 with
    | .done pa s =>
      if s.jobNotifies die j at0 then .done () (s.badNotify (s.vfOf j.core) (at0 % 4096) (lastByte a bm + 1 - at0))
      else
      let cells := sectorCells (pa / 32 * 32) v m
      let s := s.gwrite cells
      .done () (s.updJob die j.id (fun j => { j with view := j.view.moveAll (cells.map (fun e => e.1)) s.writes }))
    | .wait s => .wait s
    | .fault k x => .fault k x
  | some .commons =>
    match s.regionAt j.core (a - commonsBase) with
    | none => .fault 2 at0
    | some r => .done () (s.updDie die (fun d => { d with stores := d.stores ++
        [⟨r.launch, r.group, j.core, j.pos, sct + 1, sectorCells (a - commonsBase) v m⟩] }))
  | _ =>
    match bufOf 0 a with
    | some (b, off) =>
      if b = .c ∧ tplBank j.tpl = false then .fault 2 at0
      else match s.jobBank j b off at0 false with
        | .done _ s =>
          let pre := match (s.core j.core).locket with
            | some k => decide (j.release < k.release)
            | none => false
          .done () (s.bufWrite j.core pre b off 32 v m j.bundle j.sch)
        | .wait s => .wait s
        | .fault k x => .fault k x
    | none => .fault 2 at0

/-! ## Sector moves -/

/-- Source sectors of a list that the job has not read. -/
def Job.unread (j : Job) (l : List Nat) : List Nat := l.filter (fun x => (find? j.src x).isNone)

/-- Source sectors of later destination sectors that have not been read: Sector moves have no order among them (R242). -/
def Job.ahead (j : Job) : List Nat :=
  j.unread ((j.todo.drop (j.done + 1)).flatMap (fun e => j.needs (32 * e.1)))

/-- A barrier's jobs with one that has left the die, whose view is joined (R242). -/
def TxJobs.settle (x : TxJobs) (j : Job) : TxJobs :=
  if x.jobs.contains j.id then ⟨x.jobs.erase j.id, x.view.join j.view⟩ else x

/-- A job leaves its die; the barriers of its core keep its view (R242). -/
def State.dropJob (s : State) (die : Nat) (j : Job) : State :=
  let k := ((s.die die).jobs.find? (fun x => x.id == j.id)).getD j
  (s.updDie die (fun x => { x with jobs := x.jobs.filter (fun y => y.id != j.id) })).updCore j.core (fun c => { c with
    txViews := c.txViews.map (fun e => (e.1, e.2.settle k)), txDone := c.txDone.map (fun e => (e.1, e.2.settle k)) })

/-- The destination sector in hand has been written: its records, its barrier, the job's completion (R230, R270, R330). A job of an
aborted launch ends here (R310). -/
def State.jobAdvance (s : State) (die : Nat) (j : Job) : State :=
  let cycle := (s.core j.core).regs.cycle
  let s := if j.first then s else s.emit j.core 3 j.bundle j.sch (j.payload cycle)
  let s := if tplTxen j.tpl then
      s.updCore j.core (fun c =>
        let off := tplTxb j.tpl
        let x := getD TxJobs.none c.txViews off
        { c.txKnow off with
          txDecs := c.txDecs ++ [⟨off, j.release, j.bundle, j.sch⟩]
          txViews := put c.txViews off (if x.jobs.contains j.id then x else { x with jobs := x.jobs ++ [j.id] }) })
    else s
  if j.todo.length ≤ j.done + 1 then (s.dropJob die j).emit j.core 4 j.bundle j.sch (j.payload cycle)
  else if ((s.launch? j.launch).map (fun x => x.aborted)).getD false then s.dropJob die j
  else
    let (todo, s) := s.drawNext j.todo (j.done + 1)
    s.updJob die j.id (fun x => { x with todo, done := j.done + 1, first := true, due := max x.due (s.now + 1) })

/-- A job reads one source sector; each is one access, whatever destination sectors it is for (R248, R254). -/
def State.jobTake (s : State) (die : Nat) (j : Job) (x : Nat) : State :=
  match s.jobSource die j x with
  | .done v s => s.updJob die j.id (fun y => { y with src := put y.src x (BitVec.ofNat 256 v) })
  | .wait s => s
  | .fault k a => s.failJob die j k a

/-- The source sector that a job reads in this move, `k` being the choice drawn: any unread one that the destination sector in hand needs or,
with k ≠ 0, a later one needs; none when the sector in hand is written, which can be once all that it needs has been read (R242). -/
def Job.readNow (j : Job) (k : Nat) (sct : Nat) : Option Nat :=
  let here := j.unread (j.needs (32 * sct))
  let reads := here ++ (if k = 0 then [] else j.ahead)
  if here.isEmpty then reads[k % (reads.length + 1)]? else reads[k % reads.length]?

/-- One move of a running job: it reads a source sector, or writes the destination sector in hand (R242, R248, R254, R269, R274). -/
def State.jobMove (s : State) (die ahead : Nat) (j : Job) : State :=
  match j.todo[j.done]? with
  | none => s
  | some (sct, bm) =>
    match j.readNow ahead sct with
    | some x => s.jobTake die j x
    | none =>
      let (v, m) := j.sectorBits (readerOf j.src) (32 * sct)
      match s.jobWrite die j sct bm v m with
      | .done _ s => s.jobAdvance die j
      | .wait s => s
      | .fault k a => s.failJob die j k a

/-- A job may move: it runs, its time has come and no walk or edge holds it. -/
def State.jobReady (s : State) (die : Nat) (j : Job) : Bool :=
  j.state == .running && decide (j.due ≤ s.now) && j.wvpn.isNone && s.jobFree die j

/-- A move of a running job of either kind; which source sector it reads is drawn (R242). -/
def State.moveNext (s : State) (die : Nat) (j : Job) : State :=
  let (ahead, s) := s.draw
  s.jobMove die ahead j

/-- COPY_SECTOR: a copy job makes its next move (R269, R270). -/
def execCopySector (die id : Nat) (s : State) : Host.Outcome State Fault Refusal :=
  match (s.die die).jobs.find? (fun j => j.id == id) with
  | some j => if !tplBank j.tpl && s.jobReady die j then .next (s.moveNext die j) else .next s
  | none => .next s

/-- BANK_PRODUCT_SECTOR: a bank-product job makes its next move (R274). -/
def execBankProductSector (die id : Nat) (s : State) : Host.Outcome State Fault Refusal :=
  match (s.die die).jobs.find? (fun j => j.id == id) with
  | some j => if tplBank j.tpl && s.jobReady die j then .next (s.moveNext die j) else .next s
  | none => .next s

/-! ## The barrier monitor -/

/-- A barrier's 16 bytes from its fields (R229). -/
def txWord (phase arrivals sectors reload : Nat) : Nat :=
  phase % 16 + arrivals % 2 ^ 20 * 2 ^ 4 + sectors % 2 ^ 40 * 2 ^ 24 + reload % 2 ^ 20 * 2 ^ 64

/-- TXINIT or TXARV on a barrier (R231). -/
def txApply (w : Nat) (o : TxOp) : Nat :=
  if o.init then txWord 0 o.val.toNat 0 o.val.toNat
  else
    let fixed := w - bits w 63 4 * 2 ^ 4
    fixed + (bits w 23 4 + (2 ^ 20 - 1)) % 2 ^ 20 * 2 ^ 4 + (bits w 63 24 + o.val.toNat) % 2 ^ 40 * 2 ^ 24

/-- n decrements of SECTORS (R230). -/
def txDecrement (w n : Nat) : Nat :=
  w - bits w 63 24 * 2 ^ 24 + (bits w 63 24 + 2 ^ 40 - n % 2 ^ 40) % 2 ^ 40 * 2 ^ 24

/-- The completion test: PHASE advances and ARRIVALS reloads (R229). -/
def txTest (w : Nat) : Nat × Bool :=
  if bits w 63 4 = 0 then (w / 2 ^ 64 * 2 ^ 64 + bits w 83 64 * 2 ^ 4 + (w % 16 + 1) % 16, true) else (w, false)

/-- The updates of one barrier in this cycle (R229); decrements of jobs from before the release are noted in the locket (R323). -/
def State.txUpdate (s : State) (n off : Nat) : State :=
  let c := s.core n
  let decs := c.txDecs.filter (fun d => d.off == off)
  let w := c.bufRead .a off 16
  let by_ := match decs with
    | d :: _ => (d.bundle, d.sch)
    | [] => (0, 0)
  let (w, bundle, sch) := match c.txOp with
    | some o => if o.off = off then (txApply w o, o.bundle, o.sch) else (w, by_)
    | none => (w, by_)
  let (w, done) := txTest (txDecrement w decs.length)
  let s := s.updCore n (fun c => { c with locket := c.locket.map (fun k =>
    { k with decs := k.decs ++ (decs.filter (fun d => decide (d.release < k.release))).map (fun d => d.off) }) })
  let s := if w = c.bufRead .a off 16 then s else s.bufWrite n false .a off 16 w (allBits 16) bundle sch
  if done then s.updCore n (fun c => { c with
    txDone := put c.txDone off (getD TxJobs.none c.txViews off) })
  else s

/-- The end of a cycle for the barriers of core n (R229). -/
def State.txEnd (s : State) (n : Nat) : State :=
  let c := s.core n
  let offs := distinct (c.txTouch ++ (match c.txOp with
    | some o => [o.off]
    | none => []) ++ c.txDecs.map (fun d => d.off))
  if offs = [] ∧ c.oldA = none then s
  else (offs.foldl (fun s o => s.txUpdate n o) s).updCore n (fun c => { c with
    txTouch := [], txOp := none, txDecs := [], oldA := none })

end Sys2Proof.Machine
end

