-- ==== Sys2Proof/Machine/Sync.lean ====
section
/-! DEFINITION. Synchronisation across cores: the end of a clasp wait and of a TXWAIT (R129, R131, R242), and the release of a step
group (R124, R125, R245) with the swap of its commons regions (R108, R109, R261 to R264) and its lockets (R320). -/

namespace Sys2Proof.Machine

/-! ## Waits -/

/-- WAKE: a phase's completion reaches a core that waits in BARW or BARAW; the core joins the view of that phase (R129, R242). -/
def execWake (core : Nat) (s : State) : Host.Outcome State Fault Refusal :=
  let c := s.core core
  match c.run, c.wait, c.wakeAt with
  | .running, some (.clasp k), some t =>
    if t ≤ s.now then .next ((s.setCore core { c with view := c.view.join (c.clasp k).view }).endWait core) else .next s
  | _, _, _ => .next s

/-- TXWAKE: the barrier's phase has changed; the core joins the views of the jobs that had decremented it (R131, R242). -/
def execTxwake (core : Nat) (s : State) : Host.Outcome State Fault Refusal :=
  let c := s.core core
  match c.run, c.wait with
  | .running, some (.tx a phase) =>
    if c.txPhase (a - aBase) ≠ phase then
      .next ((s.setCore core { c with view := c.view.join (s.txView core (a - aBase)) }).endWait core)
    else .next s
  | _, _ => .next s

/-! ## The swap -/

/-- Bytes of a region's word (R108, R261). -/
def Region.word (r : Region) : Nat :=
  match r.rule, r.fmt with
  | 0, _ => 1
  | 3, _ => 4
  | _, 1 => 8
  | _, 3 => 2
  | _, _ => 4

/-- A byte offset lies in a region. -/
def Region.covers (r : Region) (a : Nat) : Bool := decide (4096 * r.base ≤ a) && decide (a < 4096 * (r.base + r.count))

/-- The addition of R108. -/
def sumAdd (fmt x y : Nat) : Nat :=
  match fmt with
  | 0 => (x + y) % 2 ^ 32
  | 1 => (x + y) % 2 ^ 64
  | 2 => FFmt.round .f32 ((FFmt.value .f32 x).add (FFmt.value .f32 y))
  | _ => FFmt.round .bf16 ((FFmt.value .bf16 x).add (FFmt.value .bf16 y))

/-- The stored value of a store in the word of k bytes from w on, over the present bytes (R261; one value for each word, log 25). -/
def CStore.value (x : CStore) (present w k : Nat) : Option Nat :=
  let l := x.bytes.filter (fun b => decide (w ≤ b.1) && decide (b.1 < w + k) && b.2.2 != 0)
  if l.isEmpty then none
  else some (l.foldl (fun v b => mergeBits v (b.2.1.toNat * 2 ^ (8 * (b.1 - w))) (b.2.2.toNat * 2 ^ (8 * (b.1 - w)))) present)

/-- The stored values of a word with the ranks of their cores, in order. -/
def storedValues (l : List (Nat × CStore)) (present w k : Nat) : List (Nat × Nat) :=
  l.filterMap (fun e => (e.2.value present w k).map (fun v => (e.1, v)))

/-- The next-plane value of a written word (R109, R262). -/
def Region.resolve (r : Region) (present : Nat) (vals : List (Nat × Nat)) : Nat :=
  match r.rule, vals with
  | 1, v :: rest => rest.foldl (fun a e => sumAdd r.fmt a e.2) v.2
  | 2, vs => vs.foldl (fun a e => sumAdd r.fmt a e.2) present
  | _, vs => vs.foldl (fun _ e => e.2) present

/-- Words of a region that some store touches, rising. -/
def Region.words (r : Region) (l : List (Nat × CStore)) : List Nat :=
  sortBy (fun a b => decide (a ≤ b)) (distinct (l.flatMap (fun e => (e.2.bytes.filter (fun b => r.covers b.1 && b.2.2 != 0)).map
    (fun b => b.1 / r.word * r.word))))

/-- A core that has executed HALT (R124). -/
def Core.halting (c : Core) : Bool := c.run == .halted || c.stop == some .halt || c.stopNext == some .halt

/-- The stores of the superstep of group g on die d with the ranks of their cores: by rank, then in program order (R109, R263). A member that
has halted takes part with no stores of its own (R124); what its jobs have written in the superstep counts (R263). -/
def State.storesOf (s : State) (d l g : Nat) (members : List Nat) : List (Nat × CStore) :=
  sortBy (fun a b => decide (a.1 < b.1) || (a.1 == b.1 &&
      (decide (a.2.pos < b.2.pos) || (a.2.pos == b.2.pos && decide (a.2.sub ≤ b.2.sub)))))
    (((s.die d).stores.filter (fun x => x.launch == l && x.group == g && (x.sub != 0 || !(s.core x.core).halting))).map
      (fun x => (members.idxOf x.core, x)))

/-- The lowest rank and the lowest rank beside it in a list of stored values, if two cores stored. -/
def twoRanks : List (Nat × Nat) → Option (Nat × Nat)
  | [] => none
  | v :: rest => (rest.find? (fun e => e.1 != v.1)).map (fun e => (v.1, e.1))

/-- The regions of a launch bound to group g on die d. -/
def State.groupRegions (s : State) (d l g : Nat) : List Region :=
  (s.die d).regions.filter (fun r => r.launch == l && r.group == g)

/-- The lowest colliding word of group g with its two lowest ranks (R262, R264). -/
def State.collision (s : State) (d l g : Nat) (members : List Nat) : Option (Nat × Nat × Nat) :=
  let st := s.storesOf d l g members
  (sortBy (fun a b => decide (a.base ≤ b.base)) ((s.groupRegions d l g).filter (fun r => r.rule == 3))).findSome? (fun r =>
    (r.words st).findSome? (fun w => (twoRanks (storedValues st 0 w 4)).map (fun e => (w, e.1, e.2))))

/-- One region swaps: every written word takes its next-plane value (R262). -/
def State.swapRegion (s : State) (d : Nat) (st : List (Nat × CStore)) (r : Region) : State :=
  (r.words st).foldl (fun s w => s.updDie d (fun x =>
    let p := x.commons.readN w r.word
    { x with commons := Memory.writeN x.commons w r.word (r.resolve p (storedValues st p w r.word)) })) s

/-- The store lists of group g are emptied. -/
def State.clearStores (s : State) (l g : Nat) : State :=
  [0, 1, 2, 3].foldl (fun s d => s.updDie d (fun x =>
    { x with stores := x.stores.filter (fun y => !(y.launch == l && y.group == g)) })) s

/-- Step 2 of R245. -/
def State.swap (s : State) (l g : Nat) (members : List Nat) : State :=
  ([0, 1, 2, 3].foldl (fun s d =>
    let st := s.storesOf d l g members
    (s.groupRegions d l g).foldl (fun s r => s.swapRegion d st r) s) s).clearStores l g

/-! ## The release -/

/-- The locket taken at a release (R320). -/
def Core.takeLocket (c : Core) (g release : Nat) : Core :=
  let stat := { c.regs.stat with window := true, replay := false, noreplay := false }
  { c with
    regs := { c.regs with stat }
    locket := some { regs := { c.regs with stat }, before := c.markLoops, stepPc := c.waitPc, stepMark := c.waitMark, group := g,
                     release, firstId := c.nextId, slices := [], sectors := [], decs := [], lastErrs := [], awaits := true } }

/-- Every mapped member of group g has arrived at its STEP or halted (R124). -/
def State.allArrived (s : State) (x : Launch) (g : Nat) (members : List Nat) : Bool :=
  members.any (fun n => x.arrived.contains (g, n)) &&
    members.all (fun n => x.arrived.contains (g, n) || (s.core n).halting)

/-- A release reaches each arrived member after a time of its own (R124). -/
def State.wakeMembers (s : State) (arrived : List Nat) : State :=
  arrived.foldl (fun (s : State) n =>
    let (d, s) := s.draw
    s.updCore n (fun c => { c with wakeAt := some (s.now + d) })) s

/-- Release(g): the steps of R245, or the collision stop of R125 and R264. The members that have arrived take the CORESTAT update and a
locket; a halted one takes neither, so its group is not in its window again (DESIGN CHOICE, log 45). -/
def State.release (s : State) (l g : Nat) (x : Launch) (members : List Nat) : State :=
  let arrived := members.filter (fun n => x.arrived.contains (g, n))
  let s := s.setLaunch l { x with
    arrived := x.arrived.filter (fun e => e.1 != g), relAt := x.relAt.filter (fun e => e.1 != g) }
  let s : State := match [0, 1, 2, 3].findSome? (fun d => s.collision d l g members) with
    | some (w, a, b) =>
      arrived.foldl (fun (s : State) n => s.updCore n (fun c => { c with
        pend := c.pend ++ [.collision ⟨8, 1, a + b * 2 ^ 8 + g * 2 ^ 16, BitVec.ofNat 64 (commonsBase + w), 0⟩] }))
        (s.clearStores l g)
    | none =>
      let s := members.foldl (fun (s : State) n => s.perform n (s.core n).unasked []) s
      let s := s.swap l g members
      let view := members.foldl (fun (v : View) n => v.join (s.core n).view) View.initial
      let s := members.foldl (fun (s : State) n => s.updCore n (fun c => { c with view := c.view.join view })) s
      let s := { s with releases := s.releases + 1 }
      arrived.foldl (fun (s : State) n => s.updCore n (fun c => c.takeLocket g s.releases)) s
  s.wakeMembers arrived

/-- RELEASE: every mapped member has arrived, the release is due, every member's entries are translated, their streams carry
or lose them, and none of its performs waits (R124, R245, R314, R407). -/
def execRelease (launch g : Nat) (s : State) : Host.Outcome State Fault Refusal :=
  match s.launch? launch with
  | none => .next s
  | some x =>
    let members := s.members x g
    let due := x.relAt.any (fun e => e.1 == g && decide (e.2 ≤ s.now))
    if due && s.allArrived x g members && members.all (fun n =>
        (s.core n).queue.all (fun e => e.trans.ready && s.wayState n e.trans != .exhausted) && (s.core n).performs.isEmpty) then
      .next (s.release launch g x members)
    else .next s

/-- At the end of a cycle: a group whose last member has arrived is due from the next cycle on (R124). -/
def State.dueReleases (s : State) (l : Nat) : State :=
  match s.launch? l with
  | none => s
  | some x =>
    (distinct (x.arrived.map (fun e => e.1))).foldl (fun s g =>
      if x.relAt.any (fun e => e.1 == g) || !s.allArrived x g (s.members x g) then s
      else
        let (d, s) := s.draw
        s.updLaunch l (fun y => { y with relAt := y.relAt ++ [(g, s.now + 1 + d)] })) s

end Sys2Proof.Machine
end

