-- ==== Sys2Proof/Machine/Reports.lean ====
section
/-! DEFINITION. What the command processors read, write and report: global memory (R280, R287), packets (R277 to R279, R292, R293),
the device identity (R397), residency reports (R299), completion records (R290) and queue errors (R383, R384, R417). -/

namespace Sys2Proof.Machine

/-! ## Global memory -/

/-- n bytes of a virtual function's memory, page by page; `none` when a byte has no readable memory page (R311). -/
def vfReadRun : Nat → State → Nat → Nat → Nat → Option Nat
  | 0, _, _, _, n => if n = 0 then some 0 else none
  | fuel + 1, s, v, a, n =>
    if n = 0 then some 0
    else match s.pageOf v a with
      | some p =>
        if p.r && p.dev == 0 then
          let k := min n (p.vbase + p.size - a)
          match vfReadRun fuel s v (a + k) (n - k) with
          | some r => some (s.mem.readN (p.pbase + (a - p.vbase)) k + r * 2 ^ (8 * k))
          | none => none
        else none
      | none => none

/-- An untorn read by a command processor: the last writes performed (R280, R287, R291). -/
def State.vfRead (s : State) (v a n : Nat) : Option Nat := vfReadRun (n / 4096 + 2) s v a n

/-- A write by a command processor, performed as one write; bytes without a writable memory page are not written (log 26). -/
def State.vfWrite (s : State) (v a n x : Nat) : State :=
  let cells := (List.range n).filterMap (fun i =>
    match s.pageOf v (a + i) with
    | some p => if p.w && p.dev == 0 then some (p.pbase + (a + i - p.vbase), BitVec.ofNat 8 (x / 2 ^ (8 * i)), 0xFF#8) else none
    | none => none)
  if cells = [] then s else s.gwrite cells

/-- The state of the way from the instance of die d to n bytes of a virtual function's memory (R407). -/
def State.vfWay (s : State) (d v a n : Nat) : StreamState :=
  ((s.vf v).pages.filter (fun p => p.dev == 0 && decide (0 < n) && rangesMeet (p.vbase, p.size) (a, n))).foldl
    (fun st p => st.worse (if d = homeOf p.pbase then .active else s.pathState d (homeOf p.pbase))) .active

/-- A read by the instance of die d: nothing comes back over a stream in ERROR (R407; DESIGN CHOICE, log 40). -/
def State.cpRead (s : State) (d v a n : Nat) : Option Nat := if s.vfWay d v a n = .active then s.vfRead v a n else none

/-- A write by the instance of die d: a stream in ERROR loses it (R407). -/
def State.cpWrite (s : State) (d v a n x : Nat) : State := if s.vfWay d v a n = .active then s.vfWrite v a n x else s

/-! ## Packets -/

/-- Bits [hi:lo] of a packet. -/
def pk (p : Line) (hi lo : Nat) : Nat := bits p.toNat hi lo

/-- TYPE, WAITADDR, WAITVAL and SIGADDR (R277). -/
def pkType (p : Line) : Nat := pk p 7 0
def pkWaitAddr (p : Line) : Nat := pk p 383 320
def pkWaitVal (p : Line) : Nat := pk p 447 384
def pkSig (p : Line) : Nat := pk p 511 448

/-- Fields of a launch packet (R278). -/
def pkIndirect (p : Line) : Bool := bit p.toNat 8
def pkIrq (p : Line) : Bool := bit p.toNat 9
def pkMreq (p : Line) : Nat := pk p 11 10
def pkImage (p : Line) : Nat := pk p 31 16
def pkArgLen (p : Line) : Nat := pk p 44 32
def pkBindN (p : Line) : Nat := pk p 55 48
def pkCol0 (p : Line) : Nat := pk p 68 64
def pkRow0 (p : Line) : Nat := pk p 76 72
def pkWm1 (p : Line) : Nat := pk p 84 80
def pkHm1 (p : Line) : Nat := pk p 92 88
def pkExpver (p : Line) : Nat := pk p 127 96
def pkArgAddr (p : Line) : Nat := pk p 191 128
def pkBindAddr (p : Line) : Nat := pk p 255 192
def pkCountAddr (p : Line) : Nat := pk p 319 256

/-- The bits [hi:lo] of a list of fields are all zero. -/
def zeroFields (p : Line) (l : List (Nat × Nat)) : Bool := l.all (fun f => pk p f.1 f.2 == 0)

/-- The reserved fields of a packet type, as (high, low) (R277, R278, R279, R292, R293). -/
def reservedFields (type : Nat) : List (Nat × Nat) :=
  match type with
  | 0 => [(319, 8)]
  | 1 => [(15, 12), (47, 45), (63, 56), (71, 69), (79, 77), (87, 85), (95, 93)]
  | 2 => [(15, 8), (319, 64)]
  | 3 => [(127, 8)]
  | 4 => [(15, 8), (129, 48), (511, 224)]
  | _ => []

/-- No reserved bit is set; MREQ 3 is reserved (R278). -/
def packetClean (p : Line) : Bool :=
  zeroFields p (reservedFields (pkType p)) && !(pkType p == 1 && pkMreq p == 3)

/-- ERR of a packet in a queue; 0 for one that runs (R277, R383). -/
def packetErr (p : Line) : Nat := if 4 ≤ pkType p then 1 else if packetClean p then 0 else 2

/-! ## Identity -/

/-- The bytes of a label as a little-endian number. -/
def ascii (t : String) : Nat := packBits 8 (t.toList.map Char.toNat)

/-- The key seed of a layer for a label (R397). -/
def keySeed (secret : BitVec 256) (label : String) : BitVec 256 := Config.hkdf secret label.length (ascii label)

/-- The layer-0 key pairs are the device identity; PKGID is bytes 0 to 7 of the digest of its public keys (R397). -/
def pkgId : Nat :=
  let ed := (Config.edPublic (keySeed Config.uds "TQ4 id Ed")).toNat
  let ml := (Config.mldsaPublic (keySeed Config.uds "TQ4 id MLDSA")).toNat
  (Config.sha256 1984 (ed + ml * 2 ^ 256)).toNat % 2 ^ 64

/-! ## Images and hallmarks -/

/-- An image was compiled against the hallmark of a die, or re-stamped to it (R345). -/
def Image.compiledFor (i : Image) (h : Hallmark) : Bool :=
  i.serial == h.serial && (i.version == h.version || i.stamps.contains (h.die.toNat, h.version.toNat))

/-- Positions (package column, row, column offset, row offset) of a rectangle in row-major order. -/
def rectCells (col0 row0 w h : Nat) : List (Nat × Nat × Nat × Nat) :=
  (List.range h).flatMap (fun r => (List.range w).map (fun c => (col0 + c, row0 + r, c, r)))

/-- Mapped cores of a rectangle with their offsets (R282). -/
def State.mapped (s : State) (col0 row0 w h : Nat) : List (Nat × Nat × Nat) :=
  (rectCells col0 row0 w h).filterMap (fun e =>
    let n := coreAt e.1 e.2.1
    if s.present n then some (n, e.2.2.1, e.2.2.2) else none)

/-- Dies that a rectangle touches. -/
def rectDies (col0 row0 w h : Nat) : List Nat := distinct ((rectCells col0 row0 w h).map (fun e => dieOf (coreAt e.1 e.2.1)))

/-- IMST: not loaded, loaded and interlocked only, or native-valid on every die of its rectangle (R299, R353). -/
def State.imst (s : State) (v h : Nat) : Nat :=
  match s.image? v h with
  | none => 0
  | some i =>
    if !i.valid && !i.latOnly then 0
    else if (rectDies i.rectc i.rectr i.rectw i.recth).all (fun d => i.compiledFor (s.die d).hallmark) then 2 else 1

/-! ## Reports -/

/-- A residency report (R299). -/
def State.residency (s : State) (kind code image imst depth seq : Nat) : Line :=
  let ver := fun d => (s.die d).hallmark.version.toNat
  BitVec.ofNat 512 (kind + code % 256 * 2 ^ 16 + imst * 2 ^ 24 + image * 2 ^ 32 + s.ns % 2 ^ 64 * 2 ^ 192 + depth % 2 ^ 32 * 2 ^ 256 +
    ver 0 * 2 ^ 288 + ver 1 * 2 ^ 320 + ver 2 * 2 ^ 352 + ver 3 * 2 ^ 384 + seq * 2 ^ 416 + pkgId * 2 ^ 448)

/-- Sends a report to the rack scheduler, over the rack link (R299, R410). -/
def State.sendReport (s : State) (r : Line) : State := s.toLink rackLink (.report r)

/-! ## Queues -/

/-- A queue that firmware has not created. -/
def Queue.absent : Queue :=
  { vf := 0, prio := 0, base := 0, log2n := 0, vec := 0, en := false, prod := 0, cons := 0, err := 0, state := .idle, hand := .none,
    packet := none, ready := false, idx := 0, since := 0, polled := 0, due := false, fwd := [] }

/-- Key of queue q of the instance on die d. -/
def qKey (d q : Nat) : Nat := 32 * d + q

def State.queue (s : State) (d q : Nat) : Queue := getD Queue.absent s.queues (qKey d q)

def State.setQueue (s : State) (d q : Nat) (x : Queue) : State := { s with queues := put s.queues (qKey d q) x }

def State.updQueue (s : State) (d q : Nat) (f : Queue → Queue) : State :=
  match find? s.queues (qKey d q) with
  | some x => s.setQueue d q (f x)
  | none => s

/-- Packets waiting in a queue. -/
def Queue.depth (x : Queue) : Nat := (x.prod - x.cons).toNat

/-- A packet comes to the head of the queue (R280, R298). -/
def Queue.atHead (x : Queue) (now ns : Nat) : Queue := { x with since := now, polled := ns, due := false }

/-- A retirement on a die: the wait words of its queues are read again (R280). -/
def State.rewatch (s : State) (dies : List Nat) : State :=
  { s with queues := s.queues.map (fun e => if dies.contains (e.1 / 32) then (e.1, { e.2 with due := true }) else e) }

/-- The SEQ under which the packet at an index was forwarded (R299). -/
def Queue.forwarded (x : Queue) (i : BitVec 32) : Option (BitVec 32 × Line) :=
  (x.fwd.find? (fun e => e.1 == i)).map (fun e => e.2)

/-- The report on a forwarded packet (R299). -/
def State.reportOn (s : State) (d q kind code : Nat) (i : BitVec 32) : State :=
  let x := s.queue d q
  match x.forwarded i with
  | some (seq, p) =>
    let image := if pkType p = 1 then pkImage p else 0
    s.sendReport (s.residency kind code image (s.imst x.vf image) x.depth seq.toNat)
  | none => s

/-- A queue enters ERROR: one queue-error record (R384, R417). -/
def State.queueError (s : State) (d q err : Nat) : State :=
  let x := s.queue d q
  let s := s.setQueue d q { x with state := .error, err := BitVec.ofNat 8 err, packet := none, ready := false }
  s.eventRecord x.vf 1 (d + q * 2 ^ 8 + err * 2 ^ 16 + x.cons.toNat * 2 ^ 32)

/-! ## Completion -/

/-- STATUS of a completion record (R290). -/
inductive Status where
  | done | refused | aborted | skipped
  deriving DecidableEq, Repr

def Status.code : Status → Nat
  | .done => 1 | .refused => 2 | .aborted => 3 | .skipped => 4

/-- A stream of the way of a packet's completion record is exhausted: its retirement waits, since the record comes before all that
follows (R290, R407). -/
def State.sigWaits (s : State) (d v : Nat) (p : Line) : Bool := pkSig p != 0 && s.vfWay d v (pkSig p) 16 == .exhausted

/-- The completion record of a packet, written by the instance of die d, then the interrupt of its launch on vector `vec` (R290, R387).
SIGADDR is used as it stands (DESIGN CHOICE, log 50). -/
def State.complete (s : State) (d v : Nat) (p : Line) (vec : Nat) (st : Status) (code cycles : Nat) : State :=
  let s := if pkSig p = 0 then s
    else s.cpWrite d v (pkSig p) 16 (st.code + code % 256 * 2 ^ 40 + cycles % 2 ^ 64 * 2 ^ 64)
  if pkType p = 1 && pkIrq p then s.vecEvent v vec else s

/-- The packet in hand of a queue has retired: its report, and the next packet becomes examinable (R276, R290, R299, R383). CONS stays
where the host has put it past the packet, and a queue in ERROR stays there (R384). DEPTH of the report still counts the packet that
retires (log 49). -/
def State.queueNext (s : State) (d q : Nat) (st : Status) (code : Nat) : State :=
  let s := s.reportOn d q (if st = .refused then 3 else 2) (if st = .refused then code else 0) (s.queue d q).idx
  (s.updQueue d q (fun x => { x.atHead s.now s.ns with
    fwd := x.fwd.filter (fun e => e.1 != x.idx)
    cons := if x.cons = x.idx then x.cons + 1 else x.cons
    hand := .none
    packet := none
    ready := false
    state := if !x.en && x.state == .run then .idle else x.state })).rewatch [d]

end Sys2Proof.Machine
end

