-- ==== Sys2Proof/Machine/Launching.lean ====
section
/-! DEFINITION. Launches: the refusal checks and the mode (R259, R282, R285, R286, R291), the order of starts (R281, R289, R296, R348,
R400), the state a core starts with (R50, R287, R298, R300), pre-emption and retirement (R290, R318). -/

namespace Sys2Proof.Machine

/-! ## Code lines -/

/-- What reading a line under a page finds: SUB 0x02 without a memory page, 0x03 without execute (R304, R370). -/
def State.lineOf (s : State) (a : Nat) (p : Option Page) : Fetched :=
  match p with
  | some p => if p.x && p.dev == 0 then .line (BitVec.ofNat 512 (s.mem.readN (p.pbase + (a - p.vbase)) 64)) else .broken 3
  | none => .broken 2

/-- What reading a line from global memory finds under the present tables. -/
def State.codeLine (s : State) (v a : Nat) : Fetched := s.lineOf a (s.pageOf v a)

/-- The fetched line of bundle p takes its place in the store. -/
def IStore.settle (st : IStore) (p : Nat) (f : Fetched) : IStore :=
  match f with
  | .line l => { st with invalid := st.invalid.filter (· != p), broken := erase st.broken p, lines := put st.lines p l }
  | .broken sub => { st with invalid := st.invalid.filter (· != p), broken := put st.broken p sub }
  | .absent => st

/-- The 4 KiB pages that the lines of an image touch. -/
def Image.codePages (i : Image) : List Nat := distinct ((List.range i.nlines).map (fun p => vpn (i.lineAddr p)))

/-- A shootdown of a code page of an image has not completed (R368). -/
def State.codeShot (s : State) (v : Nat) (i : Image) : Bool :=
  (s.vf v).shoot.isSome && i.codePages.any (fun g => s.shotDown v g)

/-- What the loader copies into a store at a start or a resume (R368 to R370): lines whose page has changed since the image was loaded are
read anew; lines of a page whose shootdown is open stay absent. -/
def State.copyStale (s : State) (v : Nat) (i : Image) (st : IStore) : IStore :=
  let st := (i.stale.filter (st.here i)).foldl (fun st p => st.settle p (s.codeLine v (i.lineAddr p))) st
  if (s.vf v).shoot.isNone then st
  else { st with invalid := distinct (st.invalid ++ (List.range i.nlines).filter (fun p => st.here i p && s.shotDown v (vpn (i.lineAddr p)))) }


/-! ## Mode and refusal -/

/-- The rectangle of a launch as origin, width and height. -/
abbrev Rect := Nat × Nat × Nat × Nat

/-- A rectangle holds cores of two neighbouring dies whose link is DOWN (R286, R411). -/
def State.linkDown (s : State) (dies : List Nat) : Bool :=
  [(0, 1), (2, 3), (0, 2), (1, 3)].any (fun e => dies.contains e.1 && dies.contains e.2 && s.linkLanes e.1 e.2 == 0)

/-- native_ok of R285. -/
def State.nativeOk (s : State) (i : Image) (r : Rect) : Bool :=
  r == (i.rectc, i.rectr, i.rectw, i.recth) &&
    (rectDies r.1 r.2.1 r.2.2.1 r.2.2.2).all (fun d => i.compiledFor (s.die d).hallmark)

/-- inter_ok of R285. -/
def State.interOk (s : State) (i : Image) (r : Rect) (mapped : List (Nat × Nat × Nat)) : Bool :=
  r.2.2.1 == i.rectw && r.2.2.2 == i.recth &&
    mapped.all (fun m => nth 0 i.latency (m.2.2 * i.rectw + m.2.1) &&& ~~~(s.recOf m.1).lat == 0)

/-- The mode of a launch, or the refusal VERSION or LATENCY (R285). -/
def State.modeOf (s : State) (i : Image) (r : Rect) (mapped : List (Nat × Nat × Nat)) (mreq : Nat) : Except Nat Bool :=
  let native := s.nativeOk i r
  match mreq with
  | 0 => if native then .ok false else .error 3
  | 1 => if native then .ok false else if s.interOk i r mapped then .ok true else .error 4
  | _ => if s.interOk i r mapped then .ok true else .error 4

/-- A region descriptor of an image bound to a launch (R259). -/
def regionOf (l : Nat) (x : BitVec 64) : Region :=
  let v := x.toNat
  { launch := l, group := bits v 59 56, rule := bits v 55 54, fmt := bits v 53 52, count := bits v 45 32, base := bits v 13 0 }

/-- The die of a group: that of its mapped members, of its origin when it has none (DESIGN CHOICE, log 45); `none` when they lie on several
dies. -/
def groupDie (i : Image) (g : Nat) (r : Rect) (mapped : List (Nat × Nat × Nat)) : Option Nat :=
  match i.groups.find? (fun e => e.1 == g) with
  | none => none
  | some e =>
    match distinct ((mapped.filter (fun m => i.inGroup g m.2.1 m.2.2)).map (fun m => dieOf m.1)) with
    | [] => some (dieOf (coreAt (r.1 + e.2.1) (r.2.1 + e.2.2.1)))
    | [d] => some d
    | _ => none

/-- Two regions share a granule. -/
def Region.overlaps (a b : Region) : Bool := decide (a.base < b.base + b.count) && decide (b.base < a.base + a.count)

/-- The regions that a launch installs, with their dies; `none` when R259 refuses. A die whose table of 64 descriptors is full refuses as
well (DESIGN CHOICE, log 45). -/
def State.regionsFor (s : State) (l : Nat) (i : Image) (r : Rect) (mapped : List (Nat × Nat × Nat)) : Option (List (Nat × Region)) :=
  i.regions.foldl (fun acc x =>
    match acc with
    | none => none
    | some rs =>
      let g := regionOf l x
      match groupDie i g.group r mapped with
      | none => none
      | some d =>
        let old := (s.die d).regions.filter (fun o => o.launch != l) ++ (rs.filter (fun e => e.1 == d)).map (fun e => e.2)
        if 64 * (s.die d).hallmark.npresent < g.base + g.count || old.any (fun o => o.overlaps g) || 64 ≤ old.length then none
        else some (rs ++ [(d, g)])) (some [])

/-- The image places bytes in A-buffer offsets 0x7_F000 to 0x7_FFFF (R286). -/
def Image.argClash (i : Image) : Bool := i.data.any (fun e => rangesMeet (aBase + 0x7F000, 0x1000) (e.1, e.2.1))

/-- Entries of a binding table: (clasp, colour), or `none` for an entry with LEN 0 (R288). -/
def bindEntries (n v : Nat) : Option (List (Nat × Nat)) :=
  let es := (List.range n).map (fun k => v / 2 ^ (128 * k) % 2 ^ 128)
  if es.any (fun e => bits e 115 64 == 0) then none else some (es.map (fun e => (bits e 122 116, bits e 125 123)))

/-- The rectangle of a packet with a given HM1. -/
def pkRect (p : Line) (hm1 : Nat) : Rect := (pkCol0 p, pkRow0 p, pkWm1 p + 1, hm1 + 1)

/-- A rectangle lies in the mesh (R278). -/
def Rect.inMesh (r : Rect) : Bool := decide (r.1 + r.2.2.1 ≤ 32) && decide (r.2.1 + r.2.2.2 ≤ 20)

/-- RECT, VERSION and LATENCY, with the mode (R286). -/
def State.checkPlace (s : State) (v : Nat) (i : Image) (p : Line) (r : Rect) (mapped : List (Nat × Nat × Nat)) : Except Nat Bool :=
  let dies := rectDies r.1 r.2.1 r.2.2.1 r.2.2.2
  if dies.any (fun d => !(s.vf v).dies.contains d) || mapped.isEmpty ||
      s.linkDown dies then .error 2
  else if pkExpver p ≠ 0 ∧ dies.any (fun d => (s.die d).hallmark.version.toNat != pkExpver p) then .error 3
  else s.modeOf i r mapped (pkMreq p)

/-- ARGS (R286). -/
def State.argsBad (s : State) (v : Nat) (i : Image) (p : Line) : Bool :=
  decide (4096 < pkArgLen p) || (decide (240 < pkArgLen p) && i.argClash) ||
    (decide (pkArgLen p ≠ 0) && (s.vfRead v (pkArgAddr p) (pkArgLen p)).isNone)

/-- The binding table of a packet; `none` is BIND (R286, R288). -/
def State.bindsOf (s : State) (v : Nat) (p : Line) : Option (List (Nat × Nat)) :=
  if 64 < pkBindN p then none
  else if pkBindN p = 0 then some []
  else (s.vfRead v (pkBindAddr p) (16 * pkBindN p)).bind (bindEntries (pkBindN p))

/-- The refusal checks of R286 in the order of its table, for launch number l with the count of an indirect launch (R291); the mode
when none fails. -/
def State.checkLaunch (s : State) (v l : Nat) (p : Line) (hm1 : Nat) (count : Option Nat) : Except Nat Bool :=
  match s.image? v (pkImage p) with
  | none => .error 1
  | some i =>
    let r := pkRect p hm1
    if !r.inMesh then .error (if count.isSome && (pkRect p (pkHm1 p)).inMesh then 8 else 2)
    else
      let mapped := s.mapped r.1 r.2.1 r.2.2.1 r.2.2.2
      match s.checkPlace v i p r mapped with
      | .error e => .error e
      | .ok mode =>
        if (s.regionsFor l i r mapped).isNone then .error 5
        else if s.argsBad v i p then .error 6
        else if (s.bindsOf v p).isNone then .error 7
        else match count with
          | some n => if 20 < n then .error 8 else .ok mode
          | none => .ok mode

/-- The state of the ways of a launch's arguments and bindings from the instance of die d (R407). -/
def State.blockWay (s : State) (d v : Nat) (p : Line) : StreamState :=
  (s.vfWay d v (pkArgAddr p) (pkArgLen p)).worse (s.vfWay d v (pkBindAddr p) (16 * pkBindN p))

/-- The refusal checks as the instance of die d makes them: a block that a stream in ERROR keeps from it is unreadable (R286, R407; DESIGN
CHOICE, log 40). -/
def State.checkFrom (s : State) (d v l : Nat) (p : Line) (hm1 : Nat) (count : Option Nat) : Except Nat Bool :=
  let lost := if s.vfWay d v (pkArgAddr p) (pkArgLen p) = .error then 6 else if s.vfWay d v (pkBindAddr p) (16 * pkBindN p) = .error then 7 else 0
  match s.checkLaunch v l p hm1 count with
  | .error c => .error (if lost ≠ 0 ∧ lost < c ∧ 6 ≤ c then lost else c)
  | .ok m => if lost = 0 then .ok m else .error lost

/-! ## Order of starts -/

/-- Two rectangles share a position (R289). -/
def Rect.meets (a b : Rect) : Bool :=
  decide (a.1 < b.1 + b.2.2.1) && decide (b.1 < a.1 + a.2.2.1) && decide (a.2.1 < b.2.1 + b.2.2.2) && decide (b.2.1 < a.2.1 + a.2.2.2)

def Launch.rect (x : Launch) : Rect := (x.col0, x.row0, x.wm1 + 1, x.hm1 + 1)

/-- Priority of a launch that waits: an evacuated launch whose claim has ended stands before all (R348), a slot's above every queue
(R296). -/
def Launch.claim (x : Launch) : Nat :=
  if x.evac then 5
  else match x.origin with
    | .slot .. => 4
    | _ => x.prio

/-- The die and queue number that a launch came from; a graph's node stands for its packet's queue. -/
def State.sourceQueue (s : State) (x : Launch) : Nat × Nat :=
  match x.origin with
  | .queue d q => (d, q)
  | .node i _ => match find? s.runs i with
    | some g => (g.die, g.q)
    | none => (0, 0)
  | .slot d n => (d, n)
  | .world n _ => (dieOf n, 0)

/-- Place of a waiting launch in the order of R289 (R294): smaller first. Queues of different instances stand by their distance to their
own instance's last queue, then by die (log 49). -/
def State.startKey (s : State) (x : Launch) : Nat :=
  let (d, q) := s.sourceQueue x
  let last := vget (s.die d).robin x.prio 0
  let node := match x.origin with
    | .node _ k => k
    | _ => 0
  ((((7 - x.claim) * 2 + (if x.state = .saved then 0 else 1)) * 32 + (q + 64 - last - 1) % 32) * 4 + d) * 2048 + node

/-- Waiting launches: ready to start, or saved and eligible again. -/
def Launch.waits (x : Launch) : Bool :=
  match x.state with
  | .ready | .saved => true
  | _ => false

/-- A slot's launch starts or resumes only in an open occurrence (R296, R297). -/
def State.occurs (s : State) (l : Nat) (x : Launch) : Bool :=
  match x.origin with
  | .slot d n => match (find? (s.die d).table.slots n).bind (fun t => t.opened) with
    | some (o, _) => o == l
    | none => false
  | _ => true

/-- A map change has an image in hand: from step 3 until it has been recompiled (R355, R356). -/
def State.imageChanging (s : State) (v h : Nat) : Bool :=
  [0, 1, 2, 3].any (fun d =>
    let c := (s.die d).change
    decide (3 ≤ c.step) && decide (c.step ≤ 5) && c.affected.contains (v, h)) ||
  (match s.image? v h with
    | some i => !i.valid
    | none => false)

/-- An image may run interlocked in its old version at an origin: a latency-only change has been published, no other is under way, and every
assumption of the image is at most the present classes (R354). -/
def State.imageSlower (s : State) (v h c0 r0 : Nat) : Bool :=
  [0, 1, 2, 3].all (fun d =>
    let c := (s.die d).change
    !(decide (3 ≤ c.step) && decide (c.step ≤ 5) && c.affected.contains (v, h))) &&
  (match s.image? v h with
    | some i => i.valid || (i.latOnly && s.interOk i (c0, r0, i.rectw, i.recth) (s.mapped c0 r0 i.rectw i.recth))
    | none => true)

/-- A map change holds back a packet of an affected image at an origin (R355): until the image has been recompiled, or, when R354 lets the
old version go on, until the publication (DESIGN CHOICE, log 47: the permission is used from step 5 on). -/
def State.imageHeldAt (s : State) (v : Nat) (p : Line) (c0 r0 : Nat) : Bool :=
  s.imageChanging v (pkImage p) && !(pkMreq p == 1 && s.imageSlower v (pkImage p) c0 r0)

/-- A map change holds back a packet at its own origin. -/
def State.imageHeld (s : State) (v : Nat) (p : Line) : Bool := s.imageHeldAt v p (pkCol0 p) (pkRow0 p)

/-- A launch stays saved for a unit whose raised class or retirement has not been published (R348, R378). -/
def State.launchHeld (s : State) (l : Nat) : Bool :=
  s.units.any (fun e => e.2.evac.contains l && (match e.2.state with
    | .raised | .failed => true
    | _ => false))

/-- A saved launch waits for the classification of a map change of a die of its rectangle, so that it is evacuated and resumed once
(R355). -/
def State.changeAhead (s : State) (x : Launch) : Bool :=
  x.state == .saved && (rectDies x.col0 x.row0 (x.wm1 + 1) (x.hm1 + 1)).any (fun d =>
    let c := (s.die d).change
    c.step == 1 || (c.step == 2 && c.affected.contains (x.vf, x.image)))

/-- Launches become eligible: the package is not at WARN or TRIP (R416). -/
def State.cool (s : State) : Bool := s.pkg.therm == 0

/-- A launch of a slot of a time-triggered table. -/
def Launch.ofSlot (x : Launch) : Bool :=
  match x.origin with
  | .slot .. => true
  | _ => false

/-- A launch waits and is eligible (R280, R289, R355); a saved one of a queue becomes eligible again at NORMAL only (R416). -/
def State.contends (s : State) (l : Nat) (x : Launch) : Bool :=
  x.waits && !x.aborted && s.occurs l x && !s.imageHeldAt x.vf x.packet x.col0 x.row0 && !s.launchHeld l && !s.changeAhead x &&
    (x.state != .saved || x.ofSlot || s.cool)

/-- The order of two waiting launches (R289). -/
def State.goesFirst (s : State) (a b : Nat × Launch) : Bool :=
  decide (s.startKey a.2 < s.startKey b.2) || (s.startKey a.2 == s.startKey b.2 && decide (a.1 ≤ b.1))

/-- The launches that are next at one claim: each meets no earlier one of them, and holds every core of its rectangle (R289 item 4). -/
def State.nextOnes (s : State) (claim : Nat) : List (Nat × Launch) :=
  (sortBy s.goesFirst (s.launches.filter (fun e => s.contends e.1 e.2 && e.2.claim == claim))).foldl
    (fun acc e => if acc.any (fun a => a.2.rect.meets e.2.rect) then acc else acc ++ [e]) []

/-- Another waiting launch that meets this one goes first: one of higher claim, or one that is next at the same claim (R289). -/
def State.outranked (s : State) (l : Nat) (x : Launch) : Bool :=
  s.launches.any (fun e => e.1 != l && s.contends e.1 e.2 && decide (x.claim < e.2.claim) && e.2.rect.meets x.rect) ||
    (s.nextOnes x.claim).any (fun e => e.1 != l && e.2.rect.meets x.rect && s.goesFirst e (l, x))

/-- A core whose frame table has an active entry serves no queue and no slot (R400). -/
def Core.framed (c : Core) : Bool := c.frames.entries.any (fun e => bit e.toNat 0)

/-- A unit of one core, apart from links, HBM channels and lanes (R305, R348). -/
def onCore (u : UnitId) : Bool := !(u.source == 8 || u.source == 11 || u.source == 12)

/-- The management complex holds the core from the claim or the start of a test until the test ends, and with it the other cores of the
launch that the claim evacuated (R348). -/
def State.coreClaimed (s : State) (n : Nat) : Bool :=
  s.units.any (fun e => onCore e.1 && e.2.claimed && (e.1.core == n || e.2.evac.any (fun l => match s.launch? l with
    | some x => x.cores.any (fun m => m.1 == n)
    | none => false)))

/-- Live launches that meet one. -/
def State.meetLive (s : State) (l : Nat) (x : Launch) : List (Nat × Launch) :=
  s.launches.filter (fun e => e.1 != l && e.2.live && e.2.rect.meets x.rect)

/-- A slot's open occurrence claims its rectangle above every queue (R296). -/
def State.slotClaims (s : State) (l : Nat) (x : Launch) : Bool :=
  [0, 1, 2, 3].any (fun d => (s.die d).table.slots.any (fun e =>
    match e.2.opened with
    | some (o, _) => o != l && (match s.launch? o with
      | some y => y.rect.meets x.rect
      | none => false)
    | none => false))

/-- Every core of the rectangle is free for a launch (R281, R296, R348, R400). -/
def State.coresFree (s : State) (l : Nat) (x : Launch) : Bool :=
  s.occurs l x && (s.meetLive l x).isEmpty && !s.outranked l x && (decide (4 ≤ x.claim) || !s.slotClaims l x) &&
    (rectCells x.col0 x.row0 (x.wm1 + 1) (x.hm1 + 1)).all (fun e =>
      let n := coreAt e.1 e.2.1
      !s.coreClaimed n && !(s.core n).framed)

/-- Every mapped core of a launch is asked to stop at its next MARK (R122, R289, R296, R353). -/
def State.askStop (s : State) (l : Nat) (q : MarkReq) : State :=
  match s.launch? l with
  | some x => x.cores.foldl (fun s m => s.updCore m.1 (fun c =>
      if c.launch = some l then { c with markReq := some q } else c)) s
  | none => s

/-- A launch of a world's frame. -/
def Launch.ofWorld (x : Launch) : Bool :=
  match x.origin with
  | .world _ _ => true
  | _ => false

/-- An eligible launch asks for the pre-emption of the running launches of lower priority that it meets (R289, R296), but of no frame, whose
core serves no queue and no slot (R400). -/
def State.preemptFor (s : State) (l : Nat) (x : Launch) : State :=
  (s.meetLive l x).foldl (fun s e =>
    if e.2.claim < x.claim && e.2.state == .running && !e.2.ofWorld then s.askStop e.1 .preempt else s) s

/-! ## The state a core starts with -/

/-- R50 on core n, apart from what belongs to no launch: the TLB, the debug registers with a STOPREQ that is pending (R334; not into or out of
a frame, whose core no debug command reaches, R402), the key slots and the frame table. -/
def State.blankCore (s : State) (n : Nat) : State :=
  let h := (s.die (dieOf n)).hallmark
  let lat := (s.recOf n).lat
  s.updCore n (fun c => { Core.fresh with
    tlb := c.tlb, dbg := { c.dbg with req := if c.framed then 0 else c.dbg.req &&& 32, pass := none, stepping := false },
    keys := c.keys, frames := c.frames, frameOpen := c.frameOpen, nextId := c.nextId, pos := c.pos,
    hmver := h.version, latcls := lat, view := ⟨s.writes, []⟩ })

/-- A byte range of a typed buffer takes a value. -/
def Core.placeData (c : Core) (a n v : Nat) : Core :=
  match bufOf 0 a with
  | some (b, off) => c.setBuf b (Memory.writeN (c.buf b) off n v)
  | none => c

/-- What an image gives a core: entry, BOUND, PARKMAP, templates, `.data` in the buffers, the first segment (R27, R32, R34, R50, R267,
R298, R300). -/
def Core.loadImage (c : Core) (i : Image) (imode : Bool) (pc : Nat) : Core :=
  let c := { c with
    imode, bound := i.bound, parkmap := i.parkmap, templates := i.templates
    regs := { c.regs with pc := BitVec.ofNat 24 pc }
    istore := { IStore.empty with frame0 := (i.segOf pc).map (fun e => e.1) } }
  i.data.foldl (fun c e => c.placeData e.1 e.2.1 e.2.2) c

/-- Argument words 0 to 29 in s1 to s30 and the rows in s31 (R287). -/
def Regs.setArgs (r : Regs) (len v rows : Nat) : Regs :=
  let r := (List.range 30).foldl (fun r k => r.setS (k + 1) (BitVec.ofNat 64 (v % 2 ^ (8 * len) / 2 ^ (64 * k)))) r
  r.setS 31 (BitVec.ofNat 64 rows)

/-- A mapped core of a launch holds R50, the image and the arguments (R281, R287). -/
def State.prepareCore (s : State) (l : Nat) (x : Launch) (i : Image) (m : Nat × Nat × Nat) (pc : Nat) (run : Run) : State :=
  (s.blankCore m.1).updCore m.1 (fun c =>
    let c := c.loadImage i x.imode pc
    { c with
      launch := some l, rcol := m.2.1, rrow := m.2.2, run
      istore := s.copyStale x.vf i c.istore
      regs := c.regs.setArgs x.args.1 x.args.2 (x.hm1 + 1) })

/-- An argument block above 240 bytes stands in the A buffer too (R287). -/
def State.placeBlock (s : State) (x : Launch) (n : Nat) : State :=
  if 240 < x.args.1 then s.updCore n (fun c => c.placeData (aBase + 0x7F000) x.args.1 x.args.2) else s

/-- The `.data` ranges of the commons (R50). -/
def State.placeCommons (s : State) (i : Image) (dies : List Nat) : State :=
  i.data.foldl (fun s e =>
    if commonsBase ≤ e.1 ∧ e.1 < commonsBase + 2 ^ 32 then
      dies.foldl (fun s d => s.updDie d (fun y => { y with commons := Memory.writeN y.commons (e.1 - commonsBase) e.2.1 e.2.2 })) s
    else s) s

/-- t_first of R298 in ns; t_seg is 0 where the first segment stands and the state was prepared. -/
def State.tFirst (s : State) (x : Launch) (i : Image) (prepared : Bool) : Nat :=
  let (d, _) := s.sourceQueue x
  let c0 := 16 * (d % 2)
  let r0 := 10 * (d / 2)
  let far := x.cores.foldl (fun (m : Nat × Nat) e =>
    let h := absDiff (colOf e.1) c0 + absDiff (rowOf e.1) r0
    let b := b2n (colOf e.1 / 16 != c0 / 16) + b2n (rowOf e.1 / 10 != r0 / 10)
    if m.1 < h ∨ (m.1 = h ∧ m.2 < b) then (h, b) else m) (0, 0)
  let seg := match i.segOf i.entry with
    | some (_, g) => g.len
    | none => i.nlines
  140 + 8 * far.1 + 25 * ceilDiv (pkArgLen x.packet) 256 + 30 * far.2 + (if prepared then 0 else 200 + seg)

/-- The first segment of a launch's image stands in the store of every mapped core (R298). -/
def State.resident (s : State) (x : Launch) : Bool := x.cores.all (fun m => (s.core m.1).kept == some (x.vf, x.image))

/-- The start cycle of a launch: the next cycle or later, and no later than t_first after it became eligible (R298). Where the image is
resident, the choice drawn says whether the state of R50 was prepared. -/
def State.startCycle (s : State) (x : Launch) (i : Image) : Nat × State :=
  let (k, s) := if s.resident x then s.draw else (1, s)
  let (d, s) := s.draw
  (s.now + 1 + min d (x.since + s.tFirst x i (k == 0) * 11 / 10 - (s.now + 1)), s)

/-- A schedule-slot record on die d, at the attachment point of its command processor (R327, R331). -/
def State.slotRecord (s : State) (d slot kind ns : Nat) : State :=
  s.emitLine d (160 * d) (recordLine [recordW0 0 (corexy (160 * d)) 9, 0, slot % 32 + kind * 2 ^ 8, ns, s.ns])

/-- The opening time of the occurrence in which a slot's launch starts (R296). -/
def State.openedAt (s : State) (x : Launch) : Option (Nat × Nat × Nat) :=
  match x.origin with
  | .slot d n => ((find? (s.die d).table.slots n).bind (fun t => t.opened)).map (fun o => (d, n, o.2))
  | _ => none

/-- The delay from a slot's opening to the start cycle t is logged (R296). -/
def State.logOpening (s : State) (x : Launch) (t : Nat) : State :=
  match s.openedAt x with
  | some (d, n, o) => s.slotRecord d n 1 (s.ns + (t - s.now) * 10 / 11 - o)
  | none => s

/-- The cycle from which the launch's time counts: the start cycle, for a slot's launch the opening (R290, R296). -/
def State.countFrom (s : State) (x : Launch) (t : Nat) : Nat :=
  match s.openedAt x with
  | some (_, _, o) => s.now - (s.ns - o) * 11 / 10
  | none => t

/-- A launch starts anew: regions, templates, R50, arguments and the start cycle (R281). -/
def State.startNew (s : State) (l : Nat) (x : Launch) (i : Image) : State :=
  let args := if pkArgLen x.packet = 0 then 0 else (s.vfRead x.vf (pkArgAddr x.packet) (pkArgLen x.packet)).getD 0
  let (t, s) := s.startCycle x i
  let s := s.logOpening x t
  let x := { x with state := .running, args := (pkArgLen x.packet, args), binds := (s.bindsOf x.vf x.packet).getD [],
                    start := some t, began := s.countFrom x t }
  let s := ((s.regionsFor l i x.rect x.cores).getD []).foldl (fun s e =>
    s.updDie e.1 (fun d => { d with regions := d.regions ++ [e.2] })) s
  let s := s.placeCommons i (distinct (x.cores.map (fun m => dieOf m.1)))
  let s := s.setLaunch l x
  x.cores.foldl (fun s m => (s.prepareCore l x i m i.entry (.starting t)).placeBlock x m.1) s

/-- A saved launch starts again: cores with a record wait for it to be loaded, the others had halted (R289, R319). -/
def State.startSaved (s : State) (l : Nat) (x : Launch) (i : Image) : State :=
  let (t, s) := s.startCycle x i
  let s := s.logOpening x t
  let x := { x with state := .running, evac := false }
  let s := s.setLaunch l x
  x.cores.foldl (fun s m =>
    s.prepareCore l x i m i.entry (if (find? x.saves (32 * m.2.2 + m.2.1)).isSome then .starting t else .halted)) s

/-- A launch starts (R281, R289): the queue is remembered for the round robin. -/
def State.startLaunch (s : State) (l : Nat) (x : Launch) : State :=
  match s.image? x.vf x.image with
  | none => s
  | some i =>
    let s := match x.origin with
      | .queue .. | .node .. =>
        let (d, q) := s.sourceQueue x
        s.updDie d (fun y => { y with robin := vset y.robin x.prio q })
      | _ => s
    if x.state = .saved then s.startSaved l x i else s.startNew l x i

/-! ## Retirement -/

/-- A core of a launch has ended: halted, or stopped by the abort (R290, R310). -/
def Core.ended (c : Core) (l : Nat) : Bool :=
  c.launch != some l || (c.performs.isEmpty && c.queue.isEmpty && (c.run == .halted || (c.run == .stopped && (match c.stop with
    | some (.abort _) => true
    | _ => false))))

/-- What retirement waits for (R290). -/
def State.mayRetire (s : State) (l : Nat) (x : Launch) : Bool :=
  (x.live || x.aborted) && x.cores.all (fun m => (s.core m.1).ended l && (x.aborted || (s.core m.1).run == .halted)) &&
    [0, 1, 2, 3].all (fun d => (s.die d).jobs.all (fun j => j.launch != l || (x.aborted && j.state == .stopped)))

/-- CYCLES of a completion record (R290, R296). -/
def State.launchCycles (s : State) (x : Launch) : Nat :=
  match x.start with
  | some _ => s.now - x.began
  | none => 0

/-- The first segment of an image stands whole in a store. -/
def IStore.keeps (st : IStore) (i : Image) : Bool :=
  st.invalid.isEmpty && st.broken.isEmpty && (match i.segOf i.entry with
    | some (k, _) => st.frame0 == some k || st.frame1 == some k
    | none => true)

/-- A launch leaves its cores, which are idle (R290); their stores keep its first segment where they hold it (R298). -/
def State.freeCores (s : State) (l : Nat) (x : Launch) : State :=
  let i := s.image? x.vf x.image
  x.cores.foldl (fun s m => s.updCore m.1 (fun c =>
    if c.launch = some l then
      { c with
        run := .idle, launch := none, kept := if (i.map c.istore.keeps).getD false then some (x.vf, x.image) else none
        stop := none, stopNext := none, markReq := none, wait := none, wakeAt := none, waitMark := false, pend := [], locket := none }
    else c)) s

/-- Step 1 of R290: the region descriptors are cleared and the clasps released. -/
def State.dropLaunch (s : State) (l : Nat) (x : Launch) : State :=
  let s := [0, 1, 2, 3].foldl (fun s d => s.updDie d (fun y => { y with
    regions := y.regions.filter (fun r => r.launch != l)
    stores := y.stores.filter (fun r => r.launch != l)
    jobs := y.jobs.filter (fun j => j.launch != l) })) s
  { s.freeCores l x with launches := erase s.launches l }

/-- All mapped cores have been saved or had halted: the launch is saved and its cores are free (R289, R318). -/
def State.settleSaved (s : State) (l : Nat) : State :=
  match s.launch? l with
  | some x =>
    if x.state == .running && !x.aborted && !x.saves.isEmpty &&
        x.cores.all (fun m => (s.core m.1).run == .halted || (s.core m.1).run == .idle) then
      (s.freeCores l x).setLaunch l { x with state := .saved }
    else s
  | none => s

end Sys2Proof.Machine
end

