-- ==== Sys2Proof/Machine/Graphs.lean ====
section
/-! DEFINITION. Eligibility (R280, R355, R391, R416), the submission of a launch (R286, R291), the copies of a command processor (R279)
and command graphs (R292 to R294). -/

namespace Sys2Proof.Machine

/-! ## Eligibility -/

/-- The controller of die d examines packets: it is not being replaced, and the package is booted (R391, R396). -/
def State.serves (s : State) (d : Nat) : Bool :=
  (getD Firmware.first s.firmware d).state == .committed && !s.boot.recovery

/-! ## Submission of a launch -/

/-- What becomes of a launch packet that is eligible. -/
inductive Submitted where
  | waits
  | ready (id : Nat) (s : State)
  | ends (st : Status) (code : Nat)

/-- The launch of a packet that is eligible since a cycle, ready to start. -/
def State.newLaunch (s : State) (v : Nat) (origin : Origin) (prio : Nat) (p : Line) (hm1 : Nat) (imode : Bool) (since : Nat) : Launch :=
  { vf := v, origin, prio, packet := p, image := pkImage p, col0 := pkCol0 p, row0 := pkRow0 p, wm1 := pkWm1 p, hm1,
    cores := s.mapped (pkCol0 p) (pkRow0 p) (pkWm1 p + 1) (hm1 + 1), imode, state := .ready, start := none, began := s.now, since,
    binds := [], clasps := [], arrived := [], relAt := [], code := 0, aborted := false, saves := [], evac := false, args := (0, 0) }

/-- A launch packet waits for an exhausted stream on the way of what the instance of die d reads for it, or of its record (R407). -/
def State.linkWaits (s : State) (d v : Nat) (p : Line) : Bool := s.blockWay d v p == .exhausted || s.sigWaits d v p

/-- A launch packet that is eligible since a cycle is checked, refused, skipped or made ready by the instance of die d (R286, R291); what it
reads or writes over an exhausted stream waits (R407). COUNTADDR and BINDADDR are used as they stand (DESIGN CHOICE, log 50). -/
def State.submit (s : State) (d v : Nat) (origin : Origin) (prio : Nat) (p : Line) (since : Nat) : Submitted :=
  if s.imageHeld v p || s.linkWaits d v p then .waits
  else
    let go := fun (hm1 : Nat) (count : Option Nat) =>
      let (id, s) := s.fresh
      match s.checkFrom d v id p hm1 count with
      | .error code => Submitted.ends .refused code
      | .ok mode =>
        let x := s.newLaunch v origin prio p hm1 mode since
        .ready id ((s.setLaunch id x).preemptFor id x)
    if pkIndirect p then
      match s.cpRead d v (pkCountAddr p) 4 with
      | none => .waits
      | some 0 => .ends .skipped 0
      | some n => if n ≤ 20 then go (n - 1) (some n) else go (pkHm1 p) (some n)
    else go (pkHm1 p) none

/-! ## Copies -/

/-- SRC, DST and LENGTH (R279). -/
def pkSrc (p : Line) : Nat := pk p 191 128
def pkDst (p : Line) : Nat := pk p 255 192
def pkLength (p : Line) : Nat := pk p 319 256

/-- The copy of R279 by the instance of die d in ascending address order, piece by piece; bytes without a page, and bytes that a stream in
ERROR loses (R407), are left out (log 26). LENGTH 0 copies nothing, and one above 2^40 copies that many bytes (log 49). -/
def copyRun (d : Nat) : Nat → State → Nat → Nat → Nat → Nat → State
  | 0, s, _, _, _, _ => s
  | fuel + 1, s, v, a, b, n =>
    if n = 0 then s
    else
      let k := min n (min (4096 - a % 4096) (4096 - b % 4096))
      let k := if a < b ∧ b - a < k then b - a else k
      let s := match s.cpRead d v a k with
        | some x => s.cpWrite d v b k x
        | none => s
      copyRun d fuel s v (a + k) (b + k) (n - k)

/-- A copy begins (R279). -/
def State.beginCopy (s : State) (d q v : Nat) (node : Option (Nat × Nat)) (p : Line) : Nat × State :=
  let (id, s) := s.fresh
  let (t, s) := s.draw
  (id, { s with copies := put s.copies id ⟨d, q, node, v, p, s.now + 1 + t⟩ })

/-! ## Graphs -/

/-- The graph of a run. -/
def State.graphOf (s : State) (v id version : Nat) : Option Graph :=
  s.graphs.find? (fun g => g.vf == v && g.id == id && g.version == version)

/-- THEN, ELSE, REARMMAX and CONDADDR of a conditional node (R293). -/
def cnThen (p : Line) : Nat := pk p 31 16
def cnElse (p : Line) : Nat := pk p 47 32
def cnRearmMax (p : Line) : Nat := pk p 223 192
def cnAddr (p : Line) : Nat := pk p 191 128

/-- The states at the start of an instance: nodes without predecessors are active (R294). -/
def firstNodes (nodes : List GraphNode) : List NodeState :=
  nodes.map (fun n => if n.preds.isEmpty then .active else .inactive)

/-- Node k retires: every inactive successor by edge becomes active, the nodes that a conditional node names apart (R294, log 27). -/
def retireNode (nodes : List GraphNode) (st : List NodeState) (k : Nat) : List NodeState :=
  let p := (nth ⟨0, []⟩ nodes k).packet
  let named := if pkType p = 4 then [cnThen p, cnElse p] else []
  ((List.range nodes.length).zip (st.zip nodes)).map (fun e =>
    if e.1 = k then .retired
    else if e.2.1 == .inactive && e.2.2.preds.contains k && !named.contains e.1 then .active else e.2.1)

/-- Every predecessor of node k has retired. -/
def predsDone (nodes : List GraphNode) (st : List NodeState) (k : Nat) : Bool :=
  (nth ⟨0, []⟩ nodes k).preds.all (fun j => nth .inactive st j == .retired)

def State.setNodes (s : State) (rid : Nat) (st : List NodeState) : State :=
  match find? s.runs rid with
  | some r => { s with runs := put s.runs rid { r with nodes := st } }
  | none => s

/-- Node k of a run gets its turn: an active launch or copy whose predecessors have retired begins; a node that no retired node has made
active is skipped (R294). -/
def State.graphNode (s : State) (rid k : Nat) (g : Graph) (x : Queue) : State :=
  match find? s.runs rid with
  | none => s
  | some r =>
    if !predsDone g.nodes r.nodes k || !s.serves r.die then s
    else
      let p := (nth ⟨0, []⟩ g.nodes k).packet
      match nth .retired r.nodes k with
      | .inactive => (s.setNodes rid (setNth r.nodes k .retired)).rewatch [r.die]
      | .active =>
        match pkType p with
        | 1 =>
          if !s.cool then s
          else match s.submit r.die x.vf (.node rid k) x.prio p s.now with
          | .waits => s
          | .ready id s => s.setNodes rid (setNth r.nodes k (.running id))
          | .ends st code =>
            ((s.setNodes rid (retireNode g.nodes r.nodes k)).complete r.die x.vf p x.vec.toNat st code 0).rewatch [r.die]
        | 3 =>
          let (id, s) := s.beginCopy r.die r.q x.vf (some (rid, k)) p
          s.setNodes rid (setNth r.nodes k (.running id))
        | _ => s
      | _ => s

/-- Every node gets its turn, in ascending index, as often as nodes can follow one another. -/
def State.graphPasses : Nat → State → Nat → Graph → Queue → State
  | 0, s, _, _, _ => s
  | fuel + 1, s, rid, g, x =>
    State.graphPasses fuel ((List.range g.nodes.length).foldl (fun s k => s.graphNode rid k g x) s) rid g x

/-- A node is waiting or running. -/
def NodeState.open : NodeState → Bool
  | .active | .running _ => true
  | _ => false

/-- A run goes on: nodes begin; an instance without an open node retires, and a marked new instance begins or the packet retires
(R294). -/
def State.graphAdvance (s : State) (rid : Nat) : State :=
  match find? s.runs rid with
  | none => s
  | some r =>
    let x := s.queue r.die r.q
    match s.graphOf x.vf r.id r.version with
    | none => s
    | some g =>
      let s := s.graphPasses (g.nodes.length + 1) rid g x
      match find? s.runs rid with
      | none => s
      | some r =>
        if r.nodes.any NodeState.open || (!r.again && s.sigWaits r.die x.vf r.packet) then s
        else if r.again then
          let s := { s with runs := put s.runs rid { r with nodes := firstNodes g.nodes, again := false } }
          s.graphPasses (g.nodes.length + 1) rid g x
        else
          let s := { s with runs := erase s.runs rid }
          (s.complete r.die x.vf r.packet x.vec.toNat .done 0 (s.now - r.began)).queueNext r.die r.q .done 0

/-- Node k of a run has retired (R294). -/
def State.nodeRetired (s : State) (rid k : Nat) : State :=
  match find? s.runs rid with
  | none => s
  | some r =>
    match s.graphOf (s.queue r.die r.q).vf r.id r.version with
    | none => s
    | some g => (s.setNodes rid (retireNode g.nodes r.nodes k)).graphAdvance rid

/-- GRAPH_REGISTER checks: ids, node types, clean packets, no wait, good predecessors, and a conditional node as the only predecessor of
the nodes it names (R292, R293). -/
def graphOk (id version : Nat) (nodes : List GraphNode) : Bool :=
  decide (1 ≤ id) && decide (id < 2 ^ 16) && decide (1 ≤ version) && decide (version < 2 ^ 32) && decide (nodes.length ≤ 1024) &&
    nodes.all (fun n => [1, 3, 4].contains (pkType n.packet) && packetClean n.packet &&
      (pkType n.packet == 4 || pkWaitAddr n.packet == 0) && n.preds.all (fun j => decide (j < nodes.length))) &&
    (List.range nodes.length).all (fun k =>
      let p := (nth ⟨0, []⟩ nodes k).packet
      pkType p != 4 || [cnThen p, cnElse p].all (fun j =>
        decide (0xFFFE ≤ j) || (decide (j < nodes.length) && (nth ⟨0, []⟩ nodes j).preds == [k])))

/-- GRAPH_REGISTER: a graph is registered and sealed; a version that is registered already stays as it is (R292). -/
def execGraphRegister (die id version : Nat) (nodes : List GraphNode) (s : State) : Host.Outcome State Fault Refusal :=
  let v := ([0, 1, 2, 3].find? (fun v => (s.vf v).dies.contains die)).getD 4
  let ok := decide (v < 4) && graphOk id version nodes && (s.graphOf v id version).isNone
  let s := { s with out := { s.out with answers := ok :: s.out.answers } }
  .next (if ok then { s with graphs := s.graphs ++ [⟨id, version, v, nodes⟩] } else s)

/-- CONDITIONAL_NODE: the condition word is read once every predecessor has retired, and THEN, ELSE or a re-arm follows (R294). -/
def execConditionalNode (inst node : Nat) (s : State) : Host.Outcome State Fault Refusal :=
  match find? s.runs inst with
  | none => .next s
  | some r =>
    let x := s.queue r.die r.q
    match s.graphOf x.vf r.id r.version with
    | none => .next s
    | some g =>
      let p := (nth ⟨0, []⟩ g.nodes node).packet
      if pkType p = 4 ∧ nth .retired r.nodes node = .active ∧ predsDone g.nodes r.nodes node = true ∧ s.serves r.die = true then
        match s.cpRead r.die x.vf (cnAddr p) 4 with
        | none => .next s
        | some w =>
          let succ := if w ≠ 0 then cnThen p else cnElse p
          let arm := decide (succ = 0xFFFF) && decide (r.rearms < cnRearmMax p)
          let st := retireNode g.nodes r.nodes node
          let st := if succ < 0xFFFE then setNth st succ .active else st
          let r := { r with nodes := st, rearms := r.rearms + b2n arm, again := r.again || arm }
          .next ((State.graphAdvance { s with runs := put s.runs inst r } inst).rewatch [r.die])
      else .next s

end Sys2Proof.Machine
end

