-- ==== Sys2Proof/Machine/TimeTable.lean ====
section
/-! DEFINITION. The time-triggered table of a die (R295 to R297, R356). -/

namespace Sys2Proof.Machine

/-- Fields of a slot (R295). -/
def TSlot.packet (t : TSlot) : Line := BitVec.ofNat 512 (bits t.entry.toNat 575 64)
def TSlot.length (t : TSlot) : Nat := bits t.entry.toNat 63 34
def TSlot.offset (t : TSlot) : Nat := bits t.entry.toNat 33 4
def TSlot.finish (t : TSlot) : Bool := bit t.entry.toNat 1
def TSlot.en (t : TSlot) : Bool := bit t.entry.toNat 0

/-- The own opening time of a slot's next occurrence (R295). -/
def TTable.own (b : TTable) (t : TSlot) : Nat := b.epoch + t.next * b.period + t.offset

/-- The end of the period of a slot's next occurrence. -/
def TTable.periodEnd (b : TTable) (t : TSlot) : Nat := b.epoch + (t.next + 1) * b.period

/-- The first occurrence whose opening is not past. -/
def firstOccurrence (now epoch period offset : Nat) : Nat := if now ≤ epoch + offset then 0 else ceilDiv (now - epoch - offset) period

/-- Two intervals of a period overlap. -/
def intervalsMeet (period : Nat) (a b : Nat × Nat) : Bool :=
  let g := fun (x y : Nat × Nat) => decide ((y.1 + period - x.1) % period < x.2)
  g a b || g b a

/-- A slot's interval under a period: OFFSET and LENGTH (R295). -/
def TSlot.span (t : TSlot) : Nat × Nat := (t.offset, t.length)

/-- The rectangle of a slot's packet. -/
def TSlot.rect (t : TSlot) : Rect := pkRect t.packet (pkHm1 t.packet)

/-- The fields of a slot under a period (R295). -/
def TSlot.fieldsOk (t : TSlot) (period : Nat) : Bool :=
  bits t.entry.toNat 3 2 == 0 && decide (1 ≤ t.length) && decide (t.length ≤ period) && decide (t.offset < period) &&
    (!t.en || (pkType t.packet == 1 && packetClean t.packet && pkWaitAddr t.packet == 0 && !pkIndirect t.packet))

/-- A slot's image may be pre-empted, or the slot runs to retirement (R295). A handle without an image makes no refusal here: its
occurrences are refused by R286. -/
def State.slotBound (s : State) (v : Nat) (t : TSlot) : Bool :=
  t.finish || (match s.image? v (pkImage t.packet) with
    | some i => i.bound != 0
    | none => true)

/-- Two slots meet in a rectangle and in an interval of a period. -/
def slotsMeet (period : Nat) (a b : TSlot) : Bool := a.rect.meets b.rect && intervalsMeet period a.span b.span

/-- The slots of a table, each with its fields in range and none meeting another (R295). A slot that was never written, all zero, is no
slot. -/
def slotsOk (period : Nat) : List (Nat × TSlot) → Bool
  | [] => true
  | e :: r => e.2.fieldsOk period && r.all (fun x => !slotsMeet period e.2 x.2) && slotsOk period r

/-- The checks of an installation (R295): the slot itself, and under the new PERIOD every slot of this instance's table (log 49). An entry
of zeros empties the slot. -/
def State.slotOk (s : State) (d n period : Nat) (t : TSlot) : Bool :=
  let v := ([0, 1, 2, 3].find? (fun v => (s.vf v).dies.contains d)).getD 4
  let slots := (put (s.die d).table.slots n t).filter (fun e => e.2.entry != 0)
  decide (n < 32) && decide (1000 ≤ period) && decide (period ≤ 1000000000) && (t.entry == 0 || s.slotBound v t) && slotsOk period slots

/-- SLOT_INSTALL: firmware writes a slot with the table's EPOCH and PERIOD, or refuses (R295). A saved launch of the slot stays (R356). -/
def execSlotInstall (die slot epoch period : Nat) (entry : BitVec 576) (s : State) : Host.Outcome State Fault Refusal :=
  let old := find? (s.die die).table.slots slot
  let t : TSlot := ⟨entry, 0, old.bind (fun o => o.opened), old.bind (fun o => o.saved)⟩
  let ok := s.slotOk die slot period t
  let s := { s with out := { s.out with answers := ok :: s.out.answers } }
  .next (if ok then
    s.updDie die (fun d => { d with table := { d.table with
      epoch, period
      slots := (put d.table.slots slot t).map (fun e =>
        (e.1, { e.2 with next := firstOccurrence s.ns epoch period e.2.offset })) } })
  else s)

def State.updSlot (s : State) (d n : Nat) (f : TSlot → TSlot) : State :=
  s.updDie d (fun y => match find? y.table.slots n with
    | some t => { y with table := { y.table with slots := put y.table.slots n (f t) } }
    | none => y)

/-- A slot runs on past the end of its occurrence (R297, FINISH = 1). -/
def TSlot.overruns (t : TSlot) (now : Nat) : Bool :=
  t.finish && (match t.opened with
    | some (_, o) => decide (o + t.length ≤ now)
    | none => false)

/-- The active slot whose next occurrence comes first. -/
def TTable.nextSlot (b : TTable) : Option (Nat × TSlot) :=
  (b.slots.filter (fun e => e.2.en)).foldl (fun m e => match m with
    | none => some e
    | some x => if b.own e.2 < b.own x.2 then some e else some x) none

/-- The next occurrence in time order is held by an overrun of the same period until that retires (R297). -/
def TTable.heldBy (b : TTable) (now n : Nat) (t : TSlot) : Bool :=
  b.slots.any (fun e => e.1 != n && e.2.overruns now && e.2.next == t.next + 1) &&
    (match b.nextSlot with
      | some (m, _) => m == n
      | none => false)

/-- An occurrence is skipped, with its record (R297, R356). -/
def State.skipSlot (s : State) (d n : Nat) : State :=
  (s.updSlot d n (fun t => { t with next := t.next + 1 })).slotRecord d n 3 0

/-- The occurrence opens at time o: the saved launch goes on, or the packet starts anew; the cores are claimed (R296). -/
def State.openSlot (s : State) (d n o : Nat) (t : TSlot) (v : Nat) : State :=
  match t.saved.bind (fun l => (s.launch? l).map (fun x => (l, x))) with
  | some (l, x) =>
    if s.imageChanging v (pkImage x.packet) then s.skipSlot d n
    else (s.updSlot d n (fun t => { t with next := t.next + 1, opened := some (l, o), saved := none })).preemptFor l x
  | none =>
    if s.imageChanging v (pkImage t.packet) then s.skipSlot d n
    else match s.submit d v (.slot d n) 3 t.packet (s.now - (s.ns - o) * 11 / 10) with
    | .waits => s
    | .ends st code => ((s.updSlot d n (fun t => { t with next := t.next + 1, saved := none })).complete d v t.packet 0 st code 0).rewatch [d]
    | .ready id s => s.updSlot d n (fun t => { t with next := t.next + 1, opened := some (id, o), saved := none })

/-- SLOT_OPEN: an occurrence opens at its own time or at the retirement that shifted it (R295 to R297); one that would open at or after
the end of its period is skipped, one that an overrun still holds then too, and so is one whose image is being recompiled (R356). While the slot's own launch of FINISH 1 runs, its
next occurrence waits (log 49). What the launch reads or writes over an exhausted stream delays the opening (R407). -/
def execSlotOpen (die slot : Nat) (s : State) : Host.Outcome State Fault Refusal :=
  let b := (s.die die).table
  match find? b.slots slot with
  | none => .next s
  | some t =>
    let own := b.own t
    let v := ([0, 1, 2, 3].find? (fun v => (s.vf v).dies.contains die)).getD 4
    if !t.en || decide (s.ns < own) || t.opened.isSome || (b.heldBy s.ns slot t && decide (s.ns < b.periodEnd t)) || 4 ≤ v then .next s
    else
      let shifted := match b.shift, b.nextSlot with
        | some r, some (m, _) => if m = slot ∧ own < r then some r else none
        | _, _ => none
      let o := shifted.getD own
      let waits := t.saved.isNone && s.linkWaits die v t.packet
      let unshifted := if shifted.isSome then s.updDie die (fun d => { d with table := { d.table with shift := none } }) else s
      if b.periodEnd t ≤ o ∨ b.periodEnd t ≤ s.ns then .next (unshifted.skipSlot die slot)
      else if waits then .next s
      else
        let s := unshifted
        let s := if shifted.isSome then s.slotRecord die slot 2 (o - own) else s
        .next (s.openSlot die slot o t v)

/-- SLOT_OVERRUN: the launch has not retired at opening + LENGTH: with FINISH 0 it is pre-empted and resumes at the next occurrence; with
FINISH 1 it runs on (R297). -/
def execSlotOverrun (die slot : Nat) (s : State) : Host.Outcome State Fault Refusal :=
  match find? (s.die die).table.slots slot with
  | none => .next s
  | some t =>
    match t.opened with
    | some (l, o) =>
      if s.ns < o + t.length || t.finish then .next s
      else .next ((s.updSlot die slot (fun t => { t with opened := none, saved := some l })).askStop l .preempt)
    | none => .next s

/-- The launch of a slot has retired: the claim ends, and an overrun shifts the next occurrence of its period (R296, R297). -/
def State.slotRetired (s : State) (d n : Nat) : State :=
  match find? (s.die d).table.slots n with
  | none => s
  | some t =>
    let b := (s.die d).table
    let late := t.overruns s.ns && (match b.nextSlot with
      | some (_, m) => t.next == m.next + 1 && decide (b.own m < s.ns)
      | none => false)
    let s := s.updSlot d n (fun t => { t with opened := none, saved := none })
    if late then s.updDie d (fun y => { y with table := { y.table with shift := some s.ns } }) else s

end Sys2Proof.Machine
end

