-- ==== Sys2Proof/Machine/Saves.lean ====
section
/-! DEFINITION. Save records: their formation at a mark (R317, R318), their loading (R319), and abort (R310). -/

namespace Sys2Proof.Machine

/-! ## Items -/

/-- CL, START and COUNT of a slice item (R317). -/
def sliceItem (loc : Nat) : Bool × Nat × Nat := (bit loc 36, bits loc 35 24, bits loc 11 0 + 1)

/-- The typed buffer of a buffer item. -/
def bufItem (loc : Nat) : Buf :=
  match bits loc 49 48 with
  | 0 => .a
  | 1 => .c
  | _ => .w

/-- Payload length of an item in bits (R317). -/
def itemBits (kind loc : Nat) : Nat :=
  match kind with
  | 1 => 1024 * (sliceItem loc).2.2
  | 2 => 64
  | 3 => 32
  | 4 => 256
  | 5 => 8 * bits loc 23 0
  | 6 => 4096
  | _ => 0

/-- The payload of an item as it stands on a core (R317). -/
def Core.itemValue (c : Core) (kind loc : Nat) : Nat :=
  match kind with
  | 1 => let (cl, start, n) := sliceItem loc
         packBits 1024 ((c.sliceLines cl start n).map BitVec.toNat)
  | 2 => (c.sreg (bits loc 5 0)).toNat
  | 3 => let j := bits loc 3 0
         (if bit loc 5 then (c.target j).toNat else 0) + (if bit loc 4 then b2n (c.cond j) * 2 ^ 24 else 0)
  | 4 => (c.mask (bit loc 4) (bits loc 3 0)).toNat
  | 5 => c.bufRead (bufItem loc) (bits loc 47 24) (bits loc 23 0)
  | 6 => c.regs.scaleA.toNat + c.regs.scaleB.toNat * 2 ^ 2048
  | _ => 0

/-- Every lane. -/
def allLanesOn : LaneMask := BitVec.allOnes 256

/-- Puts a payload at an item's location (R319). -/
def Core.putItem (c : Core) (kind loc v : Nat) : Core :=
  match kind with
  | 1 => let (cl, start, n) := sliceItem loc
         (List.range n).foldl (fun c i => c.putSlice cl (start + i) (BitVec.ofNat 1024 (elemAt 1024 v i)) allLanesOn) c
  | 2 => { c with regs := c.regs.setS (bits loc 5 0) (BitVec.ofNat 64 v) }
  | 3 => let j := bits loc 3 0
         let r := if bit loc 4 then { c.regs with jc := vset c.regs.jc j (bit v 24) } else c.regs
         { c with regs := if bit loc 5 then { r with jt := vset r.jt j (BitVec.ofNat 24 v) } else r }
  | 4 => { c with regs := c.regs.setMask (bit loc 4) (bits loc 3 0) (BitVec.ofNat 256 v) allLanesOn }
  | 5 => let b := bufItem loc
         c.setBuf b (Memory.writeN (c.buf b) (bits loc 47 24) (bits loc 23 0) v)
  | 6 => { c with regs := { c.regs with scaleA := BitVec.ofNat 2048 v, scaleB := BitVec.ofNat 2048 (v / 2 ^ 2048) } }
  | _ => c

/-! ## Save records -/

/-- The clasp file of core n (R126, R318). -/
def State.claspFile (s : State) (n : Nat) : List (Nat × BitVec 64) :=
  match s.launchOf n with
  | some (_, x) => (List.range 128).filterMap (fun k =>
      let w := claspWord (x.clasp k) ((s.core n).clasp k)
      if w = 0 then none else some (k, w))
  | none => []

/-- The mark-table entry of a bundle of the image of core n. -/
def State.markAt (s : State) (n bundle : Nat) : Option MarkEntry :=
  (s.imageOf n).bind (fun i => i.marks.find? (fun m => m.bundle == bundle))

/-- The save record of a core at a mark (R318): `loops` is the loop stack at the issue of the MARK bundle. -/
def Core.saveOf (c : Core) (e : MarkEntry) (loops : List LoopEntry) (clasps : List (Nat × BitVec 64)) : Saved :=
  { rpid := e.rpid, depth := loops.length, stat := c.regs.stat, cycle := c.regs.cycle
    levels := loops.reverse.map (fun x => (x.trip, x.iter))
    devc := c.regs.devc, clasps
    items := (sortBy (fun a b => decide (a.vid ≤ b.vid)) (e.items.filter (fun i => i.kind != 7))).map (fun i =>
      (i.kind, i.vid, itemBits i.kind i.loc.toNat, c.itemValue i.kind i.loc.toNat))
    replay := none }

/-! ## The bytes of a record -/

/-- The 64-byte head (R318): RPID, DEPTH, CORESTAT[4:0], CYCLE, then TRIP and ITER of L0 to L5. -/
def Saved.head (r : Saved) : Nat :=
  r.rpid % 2 ^ 32 + r.depth % 2 ^ 8 * 2 ^ 32 + coreStatByte r.stat * 2 ^ 40 + r.cycle % 2 ^ 64 * 2 ^ 64 +
    packBits 64 ((List.range 6).map (fun i => match r.levels[i]? with
      | some e => e.1.toNat + e.2.toNat * 2 ^ 32
      | none => 0)) * 2 ^ 128

/-- The counter block: DEVC1 to DEVC7 (R318, R338). -/
def Saved.counters (r : Saved) : Nat := packBits 64 (r.devc.toList.map (fun x => x % 2 ^ 64))

/-- The clasp file: 128 words of R126. -/
def Saved.claspBytes (r : Saved) : Nat := packBits 64 ((List.range 128).map (fun k => (getD 0 r.clasps k).toNat))

/-- Bytes of a data item: its tag and its payload padded to 32 bytes (R318). -/
def itemLen (t : Nat × Nat × Nat × Nat) : Nat := 16 + ceilDiv t.2.2.1 256 * 32

/-- The tag repeats KIND and VID where R317 has them and holds the payload's length in bits; then the payload. -/
def itemBytes (t : Nat × Nat × Nat × Nat) : Nat :=
  t.2.2.1 % 2 ^ 32 * 2 ^ 64 + t.2.1 % 2 ^ 16 * 2 ^ 104 + t.1 % 2 ^ 8 * 2 ^ 120 + t.2.2.2 % 2 ^ t.2.2.1 * 2 ^ 128

/-- Data items one after another: length in bytes and value. -/
def itemsBytes (l : List (Nat × Nat × Nat × Nat)) : Nat × Nat :=
  l.foldl (fun a t => (a.1 + itemLen t, a.2 + itemBytes t * 2 ^ (8 * a.1))) (0, 0)

/-- The save record as the command processor writes it: length in bytes and value (R318). -/
def Saved.bytes (r : Saved) : Nat × Nat :=
  let (n, v) := itemsBytes r.items
  (1152 + n, r.head + r.counters * 2 ^ 512 + r.claspBytes * 2 ^ 1024 + v * 2 ^ (8 * 1152))

/-- No job that core n started is left (R318). -/
def State.noJobs (s : State) (n : Nat) : Bool := (s.die (dieOf n)).jobs.all (fun j => j.core != n)

/-- The core is saved: its launch holds the record, and it waits for nothing more (R318). -/
def State.storeSave (s : State) (n l : Nat) (r : Saved) : State :=
  let c := s.core n
  let s := s.updLaunch l (fun x => { x with saves := put x.saves (32 * c.rrow + c.rcol) r })
  (s.setCore n { c with run := .idle, stop := none, stopNext := none, markReq := none, wait := none, wakeAt := none,
                        waitMark := false }).settleSaved l

/-- The entry of an image with an RPID. -/
def Image.entryOf (i : Image) (rpid : Nat) : Option MarkEntry := i.marks.find? (fun m => m.rpid == rpid)

/-- START and END of a level from its loop item (R317). -/
def MarkEntry.level (e : MarkEntry) (i : Nat) : BitVec 24 × BitVec 24 :=
  match e.items.find? (fun t => t.kind == 7 && bits t.loc.toNat 63 60 == i) with
  | some t => (BitVec.ofNat 24 t.loc.toNat, BitVec.ofNat 24 (t.loc.toNat / 2 ^ 24))
  | none => (0, 0)

/-- The restored loop stack, innermost first (R319). -/
def restoredLoops (e : MarkEntry) (r : Saved) : List LoopEntry :=
  (((List.range r.depth).zip r.levels).map (fun x =>
    ⟨x.2.1, x.2.2, (e.level x.1).2, (e.level x.1).1⟩)).reverse

/-- Whether R319 accepts a record under an entry. -/
def saveFits (e : MarkEntry) (r : Saved) : Bool :=
  e.depth == r.depth && (e.items.filter (fun i => i.kind != 7)).all (fun i =>
    r.items.any (fun x => x.2.1 == i.vid && x.1 == i.kind && x.2.2.1 == itemBits i.kind i.loc.toNat))

/-- A core's own part of a clasp from its word; the view starts with the core's (R251). -/
def ownOf (w : BitVec 64) : ClaspOwn := ⟨bit w.toNat 42, bit w.toNat 41, bit w.toNat 40, View.initial⟩

/-- The shared part of a clasp from a word of R126. -/
def sharedOf (w : BitVec 64) : Clasp :=
  ⟨bit w.toNat 39, bit w.toNat 38, bits w.toNat 31 16, bits w.toNat 15 0, View.initial⟩

/-- The core with a record loaded under an entry of its image (R319). -/
def Core.restore (c : Core) (e : MarkEntry) (r : Saved) (i : Image) : Core :=
  let c := (e.items.filter (fun t => t.kind != 7)).foldl (fun c t =>
    match r.items.find? (fun x => x.2.1 == t.vid) with
    | some x => c.putItem t.kind t.loc.toNat x.2.2.2
    | none => c) c
  let before := restoredLoops e r
  let (pc, loops) := stepOn e.bundle before
  let stat := if r.replay.isSome then { r.stat with replay := true, window := true, noreplay := false } else r.stat
  let regs := { c.regs with
    pc := BitVec.ofNat 24 pc, loops, stat, cycle := r.cycle, devc := r.devc
    clasps := r.clasps.map (fun x => (x.1, ownOf x.2)) }
  { c with
    regs
    istore := { c.istore with frame0 := (i.segOf pc).map (fun g => g.1), captured := captureOf loops }
    locket := r.replay.map (fun x => { regs := { regs with stat := r.stat }, before, stepPc := e.bundle, stepMark := true, group := x.1,
                                       release := x.2.1, firstId := c.nextId, slices := [], sectors := [], decs := [],
                                       lastErrs := x.2.2, awaits := false }) }

/-! ## Abort -/

/-- Core n of an aborted launch stops (R310); one that is saved already, and idle, has stopped at its mark and is recorded there. -/
def State.abortStop (s : State) (n : Nat) : State :=
  let c := s.core n
  match c.run with
  | .running =>
    if c.expanding s.now then s.updCore n (fun c => { c with stopNext := some (.abort false) })
    else
      let s := if c.wait.isSome then s.waitRecord n (c.schedule - (c.waitSch + c.waitLen)) else s
      (s.updCore n (fun c => { c with wait := none, wakeAt := none, waitMark := false })).beginStop n (.abort false)
  | .starting _ | .resuming =>
    (s.updCore n (fun c => { c with wait := none, wakeAt := none })).beginStop n (.abort false)
  | .idle => s.updCore n (fun c => { c with run := .draining, stop := some (.abort false) })
  | .draining => s.updCore n (fun c => match c.stop with
    | some (.trap _) => { c with stopNext := some (.abort true) }
    | _ => { c with stop := some (.abort false), wait := none, wakeAt := none })
  | .stopped => s.updCore n (fun c => match c.stop with
    | some (.trap _) => { c with run := .draining, stop := some (.abort true), wait := none, wakeAt := none, stopNext := none }
    | _ => { c with run := .draining, stop := some (.abort false), wait := none, wakeAt := none })
  | .halted => s

/-- A job of an aborted launch has not begun its current sector (R310). -/
def Job.between (j : Job) : Bool := match j.todo[j.done]? with
  | some e => (j.needs (32 * e.1)).all (fun x => (find? j.src x).isNone)
  | none => true

/-- The trap at which a core is stopped. -/
def Core.trapped (c : Core) : Option TrapRec :=
  match c.run, c.stop with
  | .stopped, some (.trap t) => some t
  | _, _ => none

/-- The erring unit is out of service for good, so the rollback goes through the map change (R323, R378). -/
def State.unitFailed (s : State) (n : Nat) (e : DataErr) : Bool :=
  match (s.unitRec (s.unitOf n e.source.toNat e.unit.toNat)).state with
  | .failed | .retired => true
  | _ => false

/-- A DATAERR that the core takes: its stop, while it drains too, or a cause that it still holds. -/
def Core.dataStop (c : Core) : Bool :=
  (match c.stop with
    | some (.trap t) => t.cause == 14
    | _ => false) || c.pend.any (fun p => p.record.cause == 14)

/-- A core whose own DATAERR took its unit to FAILED (R378). -/
def State.failedHere (s : State) (n : Nat) : Bool :=
  (s.core n).dataStop && (s.core n).errs.any (fun e => e.1 == n && s.unitFailed n e.2)

/-- The cause of the first trap among a launch's cores, 0 without one (R290, R310); DATAERR where its unit has FAILED (R378). -/
def State.firstTrap (s : State) (x : Launch) : Nat :=
  if x.cores.any (fun e => s.failedHere e.1) then 14
  else match x.cores.foldl (fun (m : Option (Nat × Nat)) e =>
      let c := s.core e.1
      match c.run, c.stop with
      | .stopped, some (.trap t) => match m with
        | none => some (c.stopAt, t.cause)
        | some k => if c.stopAt < k.1 then some (c.stopAt, t.cause) else m
      | _, _ => m) none with
  | some k => k.2
  | none => 0

/-- The launch ends (R310): its cores stop, its arrivals are gone, so that no commons region swaps, queued jobs are discarded, and running
ones end after their current sector. -/
def State.abortLaunch (s : State) (l code : Nat) : State :=
  match s.launch? l with
  | none => s
  | some x =>
    if x.aborted then s
    else
      let s := s.setLaunch l { x with
        aborted := true, code, state := if x.live then .stopping else x.state, arrived := [], relAt := [] }
      let s := [0, 1, 2, 3].foldl (fun s d => s.updDie d (fun y => { y with
        jobs := y.jobs.filter (fun j => j.launch != l || (j.state == .running && !j.between)) })) s
      x.cores.foldl (fun s m => if (s.core m.1).launch = some l then s.abortStop m.1 else s) s

end Sys2Proof.Machine
end

