-- ==== Sys2Proof/Machine/Context.lean ====
section
/-! DEFINITION. Service of stopped cores and their context: SAVE_RECORD and RESUME (R318, R319, R401), the job fault (R275), Resume, Skip
and Abort (R308, R310, R314, R390), Rollback (R323, R378), and shootdowns (R315, R369). -/

namespace Sys2Proof.Machine

/-! ## Save and resume -/

/-- The key of a world (R401). -/
def worldKey (vf world : Nat) : Nat := 16 * vf + world

/-- The seal counter of a world on core n. -/
def State.sealCounter (s : State) (vf world n : Nat) : Nat :=
  match find? s.worlds (worldKey vf world) with
  | some k => getD 0 k.counters n
  | none => 0

/-- A core is cleared to R50 and idles; its queue entries are deleted with it (R401, R402). Its frame stays open until the closing edge. -/
def State.clearCore (s : State) (n : Nat) : State :=
  let l := (s.core n).launch
  let s := (s.blankCore n).updCore n (fun c => { c with dbg := Debug.zero })
  match l with
  | some l => { s with launches := erase s.launches l }
  | none => s

/-- The IV of a seal: WORLD, the die, the core's physical index, the seal counter, from the high bits down (R401). -/
def sealIv (world n ctr : Nat) : BitVec 96 :=
  BitVec.ofNat 96 (world % 16 * 2 ^ 92 + dieOf n % 4 * 2 ^ 90 + localOf n % 256 * 2 ^ 82 + ctr % 2 ^ 82)

/-- A record sealed with AES-256-GCM under the key of a generation of a world (R401). -/
def sealRecord (vf world gen n ctr : Nat) (r : Saved) : Sealed :=
  let (len, v) := r.bytes
  let iv := sealIv world n ctr
  let (ct, tag) := Config.gcmSeal (Config.worldKey vf world gen) iv len v
  ⟨vf, world, gen, ctr, r, iv, len, ct, tag⟩

/-- The tag of a sealed record verifies under a generation of its world's key (R401, R402): always under the key that sealed it, and under
another key as the cipher gives. -/
def Sealed.opens (x : Sealed) (gen : Nat) : Bool :=
  Config.gcmSeal (Config.worldKey x.vf x.world gen) x.iv x.len x.record.bytes.2 == (x.ct, x.tag) ||
    Config.gcmUnseal (Config.worldKey x.vf x.world gen) x.iv x.tag x.len x.ct == some x.record.bytes.2

/-- The seal mark: the record is sealed under the world key, the counter advances, and the core is cleared (R401). -/
def State.sealSave (s : State) (n : Nat) (r : Saved) : State :=
  let vf := s.vfOf n
  let w := (s.core n).world
  let k := getD ⟨0, []⟩ s.worlds (worldKey vf w)
  let ctr := getD 0 k.counters n
  let s := { s with
    worlds := put s.worlds (worldKey vf w) { k with counters := put k.counters n (ctr + 1) }
    seals := (s.seals.filter (fun (e : Nat × Sealed) => !(e.1 == n && e.2.vf == vf && e.2.world == w))) ++ [(n, sealRecord vf w k.gen n ctr r)] }
  s.clearCore n

/-- SAVE_RECORD: the queues are performed and the jobs complete; the record goes to the launch's save area, or is sealed (R318, R401). -/
def execSaveRecord (core : Nat) (s : State) : Host.Outcome State Fault Refusal :=
  let c := s.core core
  match c.run, c.stop, c.launch with
  | .stopped, some w, some l =>
    if c.performs.isEmpty && c.queue.isEmpty && s.noJobs core then
      match w, s.markAt core c.markPc with
      | .mark _, some e => .next (s.storeSave core l (c.saveOf e c.markLoops (s.claspFile core)))
      | .seal, some e => .next (s.sealSave core (c.saveOf e c.markLoops (s.claspFile core)))
      | _, _ => .next s
    else .next s
  | _, _, _ => .next s

/-- RESUME: the core of a launch that starts again loads its record; a refusal aborts the launch with CODE 0x10 (R319, R353). -/
def execResume (core : Nat) (s : State) : Host.Outcome State Fault Refusal :=
  let c := s.core core
  match c.run, s.launchOf core, s.imageOf core with
  | .starting _, some (l, x), some i =>
    let off := 32 * c.rrow + c.rcol
    match find? x.saves off with
    | none => .next s
    | some r =>
      match i.entryOf r.rpid with
      | some e =>
        if saveFits e r then
          let c := c.restore e r i
          .next ((s.setLaunch l { x with saves := erase x.saves off }).setCore core { c with istore := s.copyStale x.vf i c.istore })
        else .next (s.abortLaunch l 0x10)
      | none => .next (s.abortLaunch l 0x10)
  | _, _, _ => .next s

/-! ## The job fault -/

/-- A stopped job of core n with a fault that has not been raised. -/
def State.faultedJob (s : State) (n : Nat) : Option Job :=
  (s.die (dieOf n)).jobs.find? (fun j => j.core == n && j.state == .stopped && j.fault.isSome)

/-- JOB_FAULT: the starting core takes the job fault, or the DATAERR of an error on a sector (R305), at its next boundary; a core that has
halted reports it, and its launch ends (R275). -/
def execJobFault (core : Nat) (s : State) : Host.Outcome State Fault Refusal :=
  match s.faultedJob core with
  | none => .next s
  | some j =>
    match j.fault with
    | none => .next s
    | some t =>
      let s := s.updJob (dieOf core) j.id (fun j => { j with fault := none })
      let c := s.core core
      if c.run = .halted then
        let t := { t with index := c.regs.pc.toNat }
        let s := (s.setCore core { c with stop := some (.trap t) }).writeTrap core t
        match c.launch with
        | some l => .next (s.abortLaunch l t.cause)
        | none => .next s
      else .next (s.setCore core { c with pend := c.pend ++ [.job t] })

/-! ## Service -/

/-- The scheduler's firmware serves stops: it is not being replaced (R391, R413). -/
def State.schedules (s : State) : Bool := (getD Firmware.first s.firmware 4).state == .committed

/-- Causes for which R302 lists Resume: JOB with KIND TRANS, FETCH with SUB ECC, TRANSLATE with REASON ABSENT. -/
def Core.resumes (c : Core) (t : TrapRec) : Bool :=
  let d := c.trapinfo.toNat
  (t.cause == 9 && bits d 51 48 == 1) || (t.cause == 12 && bits d 39 32 == 1) || (t.cause == 13 && bits d 59 58 == 1)

/-- Resume may serve the stop: R302 lists it and no rollback is under way. -/
def Core.mayResume (c : Core) (t : TrapRec) : Bool := c.stopNext != some .rollback && c.resumes t

/-- A failed access is walked again (R314). -/
def Trans.rewalk (t : Trans) : Trans := { t with waits := distinct (t.waits ++ t.fails.map (fun f => vpn f.1)), fails := [] }

/-- Every access of the fault list is walked again (R314). -/
def Core.rewalk (c : Core) : Core :=
  { c with
    loads := c.loads.map (fun l => if l.kind = .pref then l else { l with trans := l.trans.rewalk })
    queue := c.queue.map (fun e => { e with trans := e.trans.rewalk }) }

/-- A stopped job at its position: the first sector in the order of R269 that it has not written comes next (R316). -/
def Job.resumed (j : Job) (now : Nat) : Job :=
  let written := j.todo.take j.done
  { j with
    state := .running, walked := none, due := max j.due (now + 1)
    todo := written ++ j.sectors.filter (fun e => !written.any (fun w => w.1 == e.1)) }

/-- The channel or queue that a job fault names goes on (R316). -/
def State.restartJobs (s : State) (n : Nat) (info : Word) : State :=
  let q := bits info.toNat 35 32 + (if bit info.toNat 36 then 16 else 0)
  s.updDie (dieOf n) (fun d => { d with jobs := d.jobs.map (fun j =>
    if j.core = n ∧ j.queue = q ∧ j.state = .stopped ∧ j.fault = none then
      j.resumed s.now else j) })

/-- Resume (R308): issue continues at TRAPPC.INDEX; failed accesses are walked first, an unreadable line is reloaded and counted, a
stopped channel goes on (R314, R316, R325, R390). -/
def State.service (s : State) (n : Nat) (t : TrapRec) : State :=
  let c := s.core n
  let i := c.trappc.toNat
  if t.cause = 13 then s.setCore n { c.rewalk with run := .resuming, stop := none }
  else
    let s := if t.cause = 9 then s.restartJobs n c.trapinfo
      else (s.updCore n (fun c => { c with istore := { c.istore with broken := erase c.istore.broken i } })).unitEvent n 6 0 false
    if c.stopNext.isSome || c.wait.isSome then s.updCore n (fun c => { c with run := .resuming, stop := none })
    else s.returnTo n i

/-- ABORT: firmware ends a launch with the cause of its first trap (R310). -/
def execAbort (launch : Nat) (s : State) : Host.Outcome State Fault Refusal :=
  match s.launch? launch with
  | some x => if s.schedules then .next (s.abortLaunch launch (s.firstTrap x)) else .next s
  | none => .next s

/-! ## Rollback -/

/-- SOURCE and UNIT in the DETAIL of a trap record: for EXPANSION where R185 puts them, else where R305 does. -/
def TrapRec.erring (t : TrapRec) : Nat × Nat :=
  if t.cause = 6 then (bits t.detail 15 8, bits t.detail 31 16) else (bits t.detail 23 16, bits t.detail 15 0)

/-- The record names a data error: by the SOURCE and UNIT of its DETAIL and its address, for RETIRE the error that caused the retirement by
SOURCE and UNIT (R185, R323). -/
def TrapRec.names (t : TrapRec) (e : DataErr) : Bool :=
  (t.cause == 14 || t.cause == 6 || t.cause == 16) && (e.source.toNat, e.unit.toNat) == t.erring && (t.cause == 16 || e.addr == t.addr)

/-- The data error behind a stop, with the core that met it. -/
def State.errorOf (s : State) (n : Nat) : Option (Nat × DataErr) :=
  let c := s.core n
  c.trapped.bind (fun t => c.errs.find? (fun e => t.names e.2))

/-- The window offset and buffer that an erring read names. -/
def errSector (e : DataErr) : Option (Buf × Nat) := (bufOf 0 e.addr.toNat).map (fun x => (x.1, x.2 / 32))

/-- The sources from which R323 recovers: transport and logic, registers, and what the journal holds. -/
def Core.recovers (c : Core) (e : DataErr) : Bool :=
  match e.source.toNat, c.locket with
  | 8, some _ | 9, some _ | 10, some _ | 12, some _ | 2, some _ => true
  | 1, some k => (find? k.slices (96 * (e.unit.toNat % 2) + e.line)).isSome
  | 3, some k | 4, some k | 5, some k => match errSector e with
    | some (b, sct) => (find? k.sectors (sectorKey b sct)).isSome
    | none => false
  | _, _ => false

/-- Two data errors have one SOURCE, UNIT and address (R323). -/
def sameError (x e : DataErr) : Bool := x.source == e.source && x.unit == e.unit && x.addr == e.addr

/-- An error that a rollback has served has come up again in a replay (R323). -/
def Core.repeats (c : Core) (e : DataErr) : Bool :=
  c.regs.stat.replay && ((c.locket.map (fun k => k.lastErrs)).getD []).any (fun x => sameError x e)

/-- The group of a member's locket with its members, when the group is in its window (R322). -/
def State.windowOf (s : State) (n : Nat) : Option (Nat × List Nat) :=
  match (s.core n).locket, s.launchOf n with
  | some k, some (_, x) =>
    let ms := s.members x k.group
    if ms.contains n && ms.all (fun m => (s.core m).regs.stat.window && (match (s.core m).locket with
        | some y => y.group == k.group && y.release == k.release
        | none => false)) then some (k.group, ms) else none
  | _, _ => none

/-- The stop of a member does not stand in the way of a rollback of its group: it has not stopped at a trap, or its data error is one from
which R323 recovers, or R302 lists Resume or Skip for its cause, which the replay raises again. A stop for which only Abort or Clear is listed
stands in the way (DEDUCED, log 24). -/
def State.yields (s : State) (m : Nat) : Bool :=
  match (s.core m).trapped with
  | none => true
  | some t =>
    if t.cause = 14 ∨ t.cause = 6 ∨ t.cause = 16 then
      match s.errorOf m with
      | some (k, e) => (s.core k).recovers e && !(s.core m).repeats e
      | none => false
    else t.cause == 4 || t.cause == 5 || (s.core m).resumes t

/-- A job that core n started stands at a fault of R275, raised or not. -/
def State.jobFaulted (s : State) (n : Nat) : Bool :=
  (s.die (dieOf n)).jobs.any (fun j => j.core == n && j.state == .stopped && (match j.fault with
    | some t => t.cause == 9
    | none => (s.core n).pend.any (fun p => match p with
      | .job t => t.cause == 9 && bits t.detail 4 0 == j.queue
      | _ => false)))

/-- A rollback of members may go through their save records, as it must for RETIRE and for an error that took its unit to FAILED (R378): the
STEP of every member's locket carries MARK, since each is reloaded through it, no job fault keeps a member's record from being formed
(DEDUCED, log 24), and the launch is no world's, whose record leaves its core only under its seal (R401; DEDUCED, log 24). -/
def State.savable (s : State) (n : Nat) (ms : List Nat) : Bool :=
  ms.all (fun m => ((s.core m).locket.map (fun k => k.stepMark)).getD false && !s.jobFaulted m) &&
    (match s.launchOf n with
      | some (_, x) => !x.ofWorld
      | none => false)

/-- The data errors at which members stand, each with the core that met it. -/
def State.errorsOf (s : State) (ms : List Nat) : List (Nat × DataErr) := ms.filterMap s.errorOf

/-- Whether R323 allows Rollback for the stop of core n: the group, its members, and the data errors that the rollback serves. -/
def State.rollbackFor (s : State) (n : Nat) : Option (Nat × List Nat × List (Nat × DataErr)) :=
  match s.windowOf n with
  | some (g, ms) =>
    let es := s.errorsOf ms
    let retire := es.any (fun e => s.unitFailed e.1 e.2) || ms.any (fun m => ((s.core m).trapped.map (fun t => t.cause == 16)).getD false)
    if (s.errorOf n).isSome && ms.all s.yields && (!retire || s.savable n ms) then some (g, ms, es) else none
  | none => none

/-- The group of core n may roll back for the stop of a member. -/
def State.rolls (s : State) (n : Nat) : Bool :=
  match s.windowOf n with
  | some (_, ms) => ms.any (fun m => (s.rollbackFor m).isSome)
  | none => false

/-- Step 1 of R323: a member stops at its next boundary; a wait in STEP or at a clasp ends without a record (R378). -/
def State.rollbackStop (s : State) (n : Nat) : State :=
  let c := s.core n
  match c.run with
  | .running =>
    if c.expanding s.now then (if c.stopNext.isSome then s else s.updCore n (fun c => { c with stopNext := some .rollback }))
    else
      let s := match c.wait with
        | some (.tx _ _) => s.waitRecord n (c.schedule - (c.waitSch + c.waitLen))
        | _ => s
      (s.updCore n (fun c => { c with wait := none, wakeAt := none, waitMark := false })).beginStop n .rollback
  | .resuming => s.updCore n (fun c => { c with run := .stopped, stop := some .rollback })
  | .draining => s.updCore n (fun c => match c.stop with
    | some (.trap _) => c
    | _ => { c with stop := some .rollback })
  | .stopped => s.updCore n (fun c => if c.trapped.isSome then { c with stopNext := some .rollback } else c)
  | _ => s

/-- A member has stopped. -/
def Core.atRest (c : Core) : Bool := c.run == .stopped

/-- The barrier decrements of jobs from before the release are applied again (R323 step 4). -/
def State.redoDecs (s : State) (n : Nat) (offs : List Nat) : State :=
  offs.foldl (fun s off =>
    let (w, done) := txTest (txDecrement ((s.core n).bufRead .a off 16) 1)
    s.updCore n (fun c =>
      let c := c.setBuf .a (Memory.writeN c.bufA off 16 w)
      if done then { c with txDone := put c.txDone off (getD TxJobs.none c.txViews off) } else c)) s

/-- The core as its locket and journal give it (R323 step 4): registers, journalled slice lines and buffer sectors. -/
def Core.rewind (c : Core) (k : Locket) : Core :=
  let c := { c with regs := { k.regs with stat := { k.regs.stat with replay := true, window := true, noreplay := false } } }
  let c := k.slices.foldl (fun c e =>
    ((List.range 32).zip e.2).foldl (fun c x => c.putSlice (decide (96 ≤ e.1)) (32 * (e.1 % 96) + x.1) x.2 allLanesOn) c) c
  k.sectors.foldl (fun c e =>
    let b := match e.1 / 65536 with
      | 0 => Buf.a
      | 1 => .c
      | _ => .w
    c.setBuf b (Memory.writeN (c.buf b) (32 * (e.1 % 65536)) 32 e.2.toNat)) c

/-- The causes that core n has not recorded stay pending through a rollback (R307), but for those of the errors that it serves. -/
def Core.pendAfter (c : Core) (es : List DataErr) : List PendCause := c.pend.filter (fun p => !es.any (fun e => p.record.names e))

/-- Steps 3, 4 and 6 of R323 on one member; `es` are the errors served, which every member remembers. Accesses issued after the release are
gone with the bundles that made them. -/
def State.rewindCore (s : State) (n : Nat) (es : List DataErr) : State :=
  let c := s.core n
  match c.locket with
  | none => s
  | some k =>
    let pend := c.pendAfter es
    let s := s.setCore n { c.rewind k with
      queue := [], performs := [], loads := c.loads.filter (fun l => decide (l.id < k.firstId))
      sLand := Vector.replicate 64 none, jReady := Vector.replicate 12 none
      run := .running, stop := none, stopNext := none, wait := none, wakeAt := none, waitMark := false
      pend, errs := c.errs.filter (fun e => pend.any (fun p => p.record.names e.2))
      expand := none, markDist := 0, held := Held.zero, dbg := { c.dbg with pass := none }
      istore := { c.istore with captured := captureOf k.regs.loops }
      locket := some { k with lastErrs := k.lastErrs ++ es } }
    s.redoDecs n k.decs

/-- The member's save record, formed from its restored locket (R378); data errors still pending on it are gone with the state that met them
(DEDUCED, log 24). -/
def State.rewindSave (s : State) (n l : Nat) : State :=
  let c := s.core n
  match c.locket with
  | none => s
  | some k =>
    match s.markAt n k.stepPc with
    | some e =>
      let r := { c with regs := { c.regs with stat := k.regs.stat } }.saveOf e k.before (s.claspFile n)
      (s.setCore n { c with pend := [], errs := [] }).storeSave n l { r with replay := some (k.group, k.release, k.lastErrs) }
    | none => s

/-- Steps 3 to 6 of R323, once every member has stopped and the jobs of the members are complete. Where a unit has failed, the launch
stands saved until the map change that retires it (R378). -/
def State.rollback (s : State) (l g : Nat) (ms : List Nat) (es : List (Nat × DataErr)) : State :=
  let failed := (es.filter (fun e => s.unitFailed e.1 e.2)).map (fun e => s.unitOf e.1 e.2.source.toNat e.2.unit.toNat)
  let s := s.clearStores l g
  let s := ms.foldl (fun (s : State) n => s.rewindCore n (es.map (fun e => e.2))) s
  if failed.isEmpty then s
  else
    let s := failed.foldl (fun (s : State) u =>
      let r := s.unitRec u
      s.setUnit u { r with evac := distinct (r.evac ++ [l]) }) s
    ms.foldl (fun (s : State) n => s.rewindSave n l) s

/-- A data error does not keep a job from running to completion (R323 step 2): the job that it stopped goes on from its position
(DEDUCED, log 24), and its DATAERR, not raised yet, stays pending. One that a fault of R275 stopped stays stopped, and its fault is taken
after the rollback (R307). -/
def State.redoJobs (s : State) (n : Nat) : State :=
  let raised := ((s.die (dieOf n)).jobs.filter (fun j => j.core == n && j.state == .stopped)).filterMap (fun j =>
    j.fault.bind (fun t => if t.cause = 14 then some (PendCause.job t) else none))
  let s := if raised.isEmpty then s else s.updCore n (fun c => { c with pend := c.pend ++ raised })
  s.updDie (dieOf n) (fun d => { d with jobs := d.jobs.map (fun j =>
    let erred := match j.fault with
      | some t => t.cause == 14
      | none => !(s.core n).pend.any (fun p => match p with
        | .job t => t.cause == 9 && bits t.detail 4 0 == j.queue
        | _ => false)
    if j.core = n ∧ j.state = .stopped ∧ erred = true then { j.resumed s.now with fault := none } else j) })

/-- No job that core n started still runs or is to run (R323 step 2). -/
def State.jobsOver (s : State) (n : Nat) : Bool :=
  (s.die (dieOf n)).jobs.all (fun j => j.core != n || j.state == .stopped ||
    (j.state == .waiting && (s.die (dieOf n)).jobs.any (fun k => k.queue == j.queue && k.state == .stopped)))

/-- ROLLBACK (R323) by the scheduler: the members stop and their arrivals are discarded; when all have stopped and their jobs are complete, the
group goes back to its lockets. -/
def State.rollBack (s : State) (core : Nat) : State :=
  match s.rollbackFor core, (s.core core).launch with
  | some (g, ms, es), some l =>
    let s := s.updLaunch l (fun x => { x with
      arrived := x.arrived.filter (fun a => !ms.contains a.2)
      relAt := x.relAt.filter (fun r => !x.arrived.any (fun a => a.1 == r.1 && ms.contains a.2)) })
    let s := ms.foldl (fun (s : State) n => (s.rollbackStop n).redoJobs n) s
    if ms.all (fun n => (s.core n).atRest && s.jobsOver n) then s.rollback l g ms es else s
  | _, _ => s

/-- A service that R302 lists alone for the stop of core n, which the scheduler applies without asking (R390). A rollback that is under way
ends in Abort when a later stop of a member no longer allows it (R323). -/
def State.soleService (s : State) (n : Nat) : Option Instr :=
  let c := s.core n
  match c.trapped, c.launch with
  | some t, some l =>
    if c.stopNext = some .rollback then (if s.rolls n then none else some (.abort l))
    else if t.cause = 15 then some (.clear n)
    else if t.cause = 4 ∨ t.cause = 5 ∨ c.mayResume t = true ∨
        ((t.cause = 14 ∨ t.cause = 6 ∨ t.cause = 16) ∧ (s.rollbackFor n).isSome = true) then none
    else some (.abort l)
  | _, _ => none

/-- The scheduler asks the plug-in for the service of the stop of core n: R302 lists a choice (R390). -/
def State.asks (s : State) (n : Nat) : Bool :=
  let c := s.core n
  c.trapped.isSome && c.launch.isSome && c.stopNext != some .rollback && (s.soleService n).isNone

/-- The default service of R390 for the stop of a core whose service is a choice; the scheduler applies it. -/
def State.defaultService (s : State) (core : Nat) : Host.Outcome State Fault Refusal :=
  let c := s.core core
  match c.trapped, c.launch with
  | some t, some l =>
    if !s.schedules || !s.asks core then .next s
    else if t.cause = 14 ∨ t.cause = 6 ∨ t.cause = 16 then .next (s.rollBack core)
    else if t.cause = 12 then .next (s.service core t)
    else execAbort l s
  | _, _ => .next s

/-- SERVICE_RESUME (R308); an answer that R390 does not list for the cause gives the default. -/
def execServiceResume (core : Nat) (s : State) : Host.Outcome State Fault Refusal :=
  let c := s.core core
  match c.trapped with
  | some t => if s.schedules && c.mayResume t then .next (s.service core t) else s.defaultService core
  | none => .next s

/-- SKIP: SOFTWARE and NONUNIFORM only; the trapping bundle never takes effect (R302, R308). For another choice the default applies
(R390). -/
def execSkip (core : Nat) (s : State) : Host.Outcome State Fault Refusal :=
  let c := s.core core
  match c.trapped with
  | some t =>
    if s.schedules && c.stopNext != some .rollback && (t.cause == 4 || t.cause == 5) then
      .next ((s.updCore core (fun c => { c with dbg := { c.dbg with pass := none } })).returnTo core (c.trappc.toNat + 1))
    else s.defaultService core
  | none => .next s

/-- ROLLBACK (R323), where it is allowed; for another choice the default applies (R390). -/
def execRollback (core : Nat) (s : State) : Host.Outcome State Fault Refusal :=
  if (s.rollbackFor core).isSome then if s.schedules then .next (s.rollBack core) else .next s
  else s.defaultService core

/-- POLICY_DEADLINE: 1 ms after the stop the default service of R390 applies. -/
def execPolicyDeadline (core : Nat) (s : State) : Host.Outcome State Fault Refusal :=
  if s.ns < (s.core core).stopAt + 1000000 then .next s else s.defaultService core

/-! ## Shootdowns -/

/-- Two ranges of addresses share a byte: a page and a range. -/
def pageInRange (p : Page) (base len : Nat) : Bool := decide (p.vbase < base + len) && decide (base < p.vbase + p.size)

/-- A 4 KiB page number lies in a range. -/
def vpnIn (base len v : Nat) : Bool := decide (4096 * v < base + len) && decide (base ≤ 4096 * v + 4095)

/-- A memory page lies on one of the eight stacks of 64 GB (R1, R382). -/
def pageFits (p : Page) : Bool := decide (p.pbase / 2 ^ 36 < 8) && decide (p.pbase % 2 ^ 36 + p.size ≤ 2 ^ 36)

/-- Pages that may stand in a table: aligned, of a legal size, never both writable and executable (R311); a memory page lies on one stack
whole (R1, R382), and a notify page is a 4 KiB page that grants write only (R388). -/
def pageLegal (p : Page) : Bool :=
  [4096, 65536, 2097152].contains p.size && p.vbase % p.size == 0 && p.pbase % 4096 == 0 && !(p.w && p.x) &&
    (match p.dev with
      | 0 => pageFits p
      | 1 => p.w && !p.r && p.size == 4096
      | _ => false)

/-- A page stands on a stack of a set of dies; a device page stands on none. -/
def pageOnDies (l : List Nat) (p : Page) : Bool := p.dev != 0 || l.contains (p.pbase / 2 ^ 37)

/-- Bytes of a list's memory pages on stack k. -/
def stackSum (l : List Page) (k : Nat) : Nat :=
  (l.filter (fun p => p.dev == 0 && p.pbase / 2 ^ 36 == k)).foldl (fun a p => a + p.size) 0

/-- The memory pages of every virtual function. -/
def State.allPages (s : State) : List Page := [0, 1, 2, 3].flatMap (fun v => (s.vf v).pages)

/-- Bytes in use on stack k. -/
def State.stackUsed (s : State) (k : Nat) : Nat := stackSum s.allPages k

/-- Bytes of stack i of a die: 2 GB on each of its 32 channels that is not retired (R1, R343). -/
def Hallmark.stackBytes (h : Hallmark) (i : Nat) : Nat := (32 - popCount 32 (h.hbm.toNat / 2 ^ (32 * i))) * 2 ^ 31

def State.stackBytes (s : State) (k : Nat) : Nat := (s.die (k / 2)).hallmark.stackBytes (k % 2)

/-- A queue entry translated under an invalidated entry is translated again (R315 stage 2). -/
def Trans.revoke (t : Trans) (base len : Nat) : Trans :=
  let (old, kept) := t.pages.partition (fun e => vpnIn base len e.1)
  { t with pages := kept, waits := distinct (t.waits ++ old.map (fun e => e.1)) }

/-- Lines of an image that come from a range (R369). -/
def Image.linesIn (i : Image) (base len : Nat) : List Nat :=
  (List.range i.nlines).filter (fun p => vpnIn base len (vpn (i.lineAddr p)))

/-- Lines of the image of core n that come from a range. -/
def State.linesIn (s : State) (n base len : Nat) : List Nat := ((s.imageOf n).map (fun i => i.linesIn base len)).getD []

/-- A captured body loses its exemption when one of its lines is invalidated (R369). -/
def IStore.invalidate (st : IStore) (ls : List Nat) : IStore :=
  if ls.isEmpty then st
  else { st with
    invalid := distinct (st.invalid ++ ls)
    broken := st.broken.filter (fun e => !ls.contains e.1)
    captured := st.captured.filter (fun b => !ls.any (fun p => decide (b.1 ≤ p) && decide (p ≤ b.2))) }

/-- Cores that run a launch of a virtual function. -/
def State.coresOf (s : State) (v : Nat) : List Nat :=
  (s.cores.filter (fun e => (s.core e.1).launch.isSome && s.vfOf e.1 == v)).map (fun e => e.1)

/-- A load or atomic that is wholly translated, and so uses the translation it has; an atomic that has not performed is translated again
like a queue entry. -/
def Load.settled (l : Load) : Bool := l.trans.ready && (l.kind != .atomic || l.land.isSome)

/-- Loads and atomics of core n in flight under an old translation (R315 stage 3). -/
def Core.oldReads (c : Core) (base len : Nat) : List Nat :=
  (c.loads.filter (fun l => l.kind != .pref && l.settled && l.trans.pages.any (fun e => vpnIn base len e.1))).map (fun l => l.id)

/-- The stages of R315 that take place at once on a core that runs a launch of the virtual function. -/
def Core.shot (c : Core) (base len : Nat) (lines : List Nat) : Core :=
  { c with
    queue := c.queue.map (fun e => { e with trans := e.trans.revoke base len })
    loads := c.loads.map (fun l => if l.settled then l else { l with trans := l.trans.revoke base len })
    istore := { c.istore.invalidate lines with noPage := c.istore.noPage.filter (fun g => !vpnIn base len g) } }

/-- A range with every page of the tables that it touches whole (base, length): the entries that cover the range are invalidated whole
(R315). -/
def State.shootRange (s : State) (v base len : Nat) : Nat × Nat :=
  let l := (s.vf v).pages.filter (fun p => pageInRange p base len)
  let b := l.foldl (fun m p => min m p.vbase) base
  (b, l.foldl (fun m p => max m (p.vbase + p.size)) (base + len) - b)

/-- The stages of R315 that take place at once, and the new pages of the range: the pages that the range touches leave the tables and the
TLBs, and what was translated under one, anywhere in it, is translated again or awaited. Lines of these pages count as changed for every
later start (R369). -/
def State.shootdown (s : State) (v base len : Nat) (pages : List Page) : State :=
  let keep := fun (p : Page) => !(p.vf == v && pageInRange p base len)
  let (base, len) := s.shootRange v base len
  let on := s.coresOf v
  let loads := on.flatMap (fun n => ((s.core n).oldReads base len).map (fun id => (n, id)))
  let lost := ((s.vf v).images.filter (fun e => !(e.2.linesIn base len).isEmpty)).map (fun e => e.1)
  let s := s.updVf v (fun f =>
    let (b, e) := match f.shoot with
      | some x => (min x.base base, max (x.base + x.len) (base + len))
      | none => (base, base + len)
    { f with
      pages := f.pages.filter keep ++ pages.map (fun p => { p with vf := v })
      images := f.images.map (fun e => (e.1, { e.2 with stale := distinct (e.2.stale ++ e.2.linesIn base len) }))
      shoot := some ⟨b, e - b, (f.shoot.map (fun x => x.loads)).getD [] ++ loads⟩ })
  let s := (s.vf v).dies.foldl (fun s d => s.updDie d (fun y => { y with tlb := y.tlb.filter keep })) s
  let s := { s with cores := s.cores.map (fun e => (e.1, { e.2 with
    tlb := e.2.tlb.filter keep
    kept := e.2.kept.filter (fun k => !(k.1 == v && lost.contains k.2)) })) }
  on.foldl (fun s n => s.updCore n (fun c => c.shot base len (s.linesIn n base len))) s

/-- SHOOTDOWN: the translations of a range change (R315, R369), with those of the pages that it cuts; a table with an illegal page, or one on
a stack of another function's dies (R381, R382), is refused. -/
def execShootdown (vf base len : Nat) (pages : List Page) (s : State) : Host.Outcome State Fault Refusal :=
  let r := s.shootRange vf base len
  if pages.all (fun p => pageLegal p && pageOnDies (s.vf vf).dies p && decide (r.1 ≤ p.vbase) && decide (p.vbase + p.size ≤ r.1 + r.2)) then
    .next (s.shootdown vf base len pages)
  else .next { s with out := { s.out with answers := false :: s.out.answers } }

/-- SHOOTDOWN_COMPLETE: every access under an old translation has landed (R315). -/
def execShootdownComplete (vf : Nat) (s : State) : Host.Outcome State Fault Refusal :=
  match (s.vf vf).shoot with
  | none => .next s
  | some x =>
    let open_ := x.loads.any (fun e => (s.core e.1).loads.any (fun l => l.id == e.2))
    if open_ then .next s else .next (s.updVf vf (fun f => { f with shoot := none }))

end Sys2Proof.Machine
end

