-- ==== Sys2Proof/Machine/Queues.lean ====
section
/-! DEFINITION. The queues of a command processor (R276, R277, R280, R383, R384), the packets at their heads, forwarded packets (R299),
and the start and retirement of launches (R281, R290). -/

namespace Sys2Proof.Machine

/-! ## Queue registers -/

/-- The queue exists and belongs to a virtual function. -/
def State.ownsQueue (s : State) (v d q : Nat) : Bool :=
  match find? s.queues (qKey d q) with
  | some x => x.vf == v && decide (q < 32)
  | none => false

/-- DOORBELL: QPROD takes the count, or the queue enters ERROR with ERR 0x04 (R384); it comes over the host link (R410). -/
def execDoorbell (vf die q : Nat) (prod : BitVec 32) (s : State) : Host.Outcome State Fault Refusal :=
  let x := s.queue die q
  s.viaHost vf (.doorbell vf die q prod) (
    if !s.ownsQueue vf die q then .next s
    else if 2 ^ x.log2n.toNat < (prod - x.cons).toNat then
      if x.state = .error then .next s else .next (s.queueError die q 4)
    else .next (s.setQueue die q { if x.prod = x.cons then x.atHead s.now s.ns else x with prod }))

/-- QUEUE_ENABLE (R383). -/
def execQueueEnable (vf die q : Nat) (s : State) : Host.Outcome State Fault Refusal :=
  s.viaHost vf (.queueEnable vf die q) (
    if s.ownsQueue vf die q then
      .next (s.updQueue die q (fun x => { if x.en then x else x.atHead s.now s.ns with
        en := true, state := if x.state = .idle then .run else x.state }))
    else .next s)

/-- QUEUE_DISABLE: examination stops after the packet in hand (R383): one whose launch, graph or copy has begun, or one that has been
read. -/
def execQueueDisable (vf die q : Nat) (s : State) : Host.Outcome State Fault Refusal :=
  s.viaHost vf (.queueDisable vf die q) (
    if s.ownsQueue vf die q then
      .next (s.updQueue die q (fun x => { x with
        en := false, state := if x.state = .run ∧ x.packet = none ∧ x.hand = .none then .idle else x.state }))
    else .next s)

/-- A packet without its completion record and its interrupt. -/
def unsignalled (p : Line) : Line := BitVec.ofNat 512 (mergeBits p.toNat 0 ((2 ^ 64 - 1) * 2 ^ 448 + (if pkType p = 1 then 2 ^ 9 else 0)))

/-- A launch that has not started is given up. -/
def State.giveUp (s : State) (l : Nat) : State :=
  match s.launch? l with
  | some x => if x.state = .ready then { s with launches := erase s.launches l } else s
  | none => s

/-- The launch or copy of a node of a run has begun: a launch that is only ready has not, and a copy whose bytes are not written has not. -/
def State.nodeBegun (s : State) (n : NodeState) : Bool :=
  match n with
  | .running id => match s.launch? id with
    | some x => x.state != .ready
    | none => false
  | _ => false

/-- The packet in hand of a queue is passed over (R384): what of it has not begun is given up, what has begun runs on, and nothing of it is
signalled. The queue has nothing in hand any more unless something runs on. -/
def State.passOver (s : State) (d q : Nat) : State :=
  let drop := fun (s : State) => s.updQueue d q (fun x => { x with hand := .none, packet := none, ready := false })
  match (s.queue d q).hand with
  | .none => drop s
  | .launch id => match s.launch? id with
    | some x => if x.state = .ready then drop (s.giveUp id) else s.updLaunch id (fun x => { x with packet := unsignalled x.packet })
    | none => drop s
  | .copy id => drop { s with copies := erase s.copies id }
  | .graph rid => match find? s.runs rid with
    | none => drop s
    | some r =>
      let ids := fun (begun : Bool) => r.nodes.filterMap (fun n => match n with
        | .running id => if s.nodeBegun n = begun then some id else none
        | _ => none)
      let s := (ids true).foldl (fun (s : State) id => s.updLaunch id (fun x => { x with packet := unsignalled x.packet })) s
      let s := (ids false).foldl State.giveUp { s with copies := s.copies.filter (fun e => !(ids false).contains e.1) }
      let nodes := r.nodes.map (fun n => if s.nodeBegun n then n else .retired)
      if nodes.all (· == .retired) then drop { s with runs := erase s.runs rid }
      else { s with runs := put s.runs rid { r with nodes, again := false, packet := unsignalled r.packet } }

/-- QUEUE_ERROR_CLEAR: QSTAT written with STATE RUN; CONS may move up to PROD, and packets passed over are neither run nor signalled
(R384). -/
def execQueueErrorClear (vf die q : Nat) (cons : BitVec 32) (s : State) : Host.Outcome State Fault Refusal :=
  let x := s.queue die q
  s.viaHost vf (.queueErrorClear vf die q cons) (
    if s.ownsQueue vf die q && x.state == .error && decide ((cons - x.cons).toNat ≤ (x.prod - x.cons).toNat) then
      let s := if x.hand != .none && decide ((x.idx - x.cons).toNat < (cons - x.cons).toNat) then s.passOver die q else s
      let x := s.queue die q
      .next (s.setQueue die q { x.atHead s.now s.ns with
        state := if x.en || x.hand != .none then .run else .idle, err := 0, cons
        fwd := x.fwd.filter (fun e => decide ((cons - x.cons).toNat ≤ (e.1 - x.cons).toNat)) })
    else .next s)

/-- QUEUE_CREATE: firmware creates a queue with EN 0, IDLE, CONS = PROD = 0 (R383); its other fields are log 28. -/
def execQueueCreate (vf die q prio : Nat) (s : State) : Host.Outcome State Fault Refusal :=
  if (s.vf vf).dies.contains die && decide (q < 32) && decide (prio < 4) && decide (vf < 4) then
    .next (s.setQueue die q { Queue.absent with vf, prio, log2n := 4 })
  else .next s

/-! ## Examination -/

/-- The packet at CONS in the ring (R383, R384). -/
def State.ringPacket (s : State) (d q : Nat) : Option Line :=
  let x := s.queue d q
  (s.cpRead d x.vf (x.base.toNat + 64 * (x.cons.toNat % 2 ^ x.log2n.toNat)) 64).map (BitVec.ofNat 512)

/-- A stream of the way to the packet at CONS is exhausted, and the read waits (R407). -/
def State.ringWaits (s : State) (d q : Nat) : Bool :=
  let x := s.queue d q
  s.vfWay d x.vf (x.base.toNat + 64 * (x.cons.toNat % 2 ^ x.log2n.toNat)) 64 == .exhausted

/-- The instance reads the packet at CONS once, while CONS ≠ PROD, EN = 1 and STATE = RUN (R384). -/
def State.examine (s : State) (d q : Nat) : State :=
  let x := s.queue d q
  if x.en && x.state == .run && x.cons != x.prod && x.packet.isNone && x.hand == .none && s.serves d && !s.ringWaits d q then
    match s.ringPacket d q with
    | some p => s.setQueue d q { x with packet := some p, idx := x.cons }
    | none => s.queueError d q 3
  else s

/-- The packet in hand of a queue that is clean, has not begun, and is eligible (R280); above NORMAL no launch is (R416). -/
def State.eligible (s : State) (d q : Nat) : Option Line :=
  let x := s.queue d q
  match x.packet with
  | some p =>
    if x.state == .run && x.hand == .none && s.serves d && packetErr p == 0 && (pkWaitAddr p == 0 || x.ready) &&
        (pkType p != 1 || s.cool) then some p else none
  | none => none

/-- WAIT_WORD_POLL: the wait word is read, untorn (R280). A packet whose first read finds the condition true is eligible from the moment it
came to the head. WAITADDR is used as it stands (DESIGN CHOICE, log 50). -/
def execWaitWordPoll (die q : Nat) (s : State) : Host.Outcome State Fault Refusal :=
  let first := (s.queue die q).packet.isNone
  let s := s.examine die q
  let x := s.queue die q
  match x.packet with
  | some p =>
    if x.hand == .none && !x.ready && packetErr p == 0 && pkWaitAddr p != 0 && s.serves die then
      let x := x.atHead x.since s.ns
      match s.cpRead die x.vf (pkWaitAddr p) 8 with
      | some w => .next (s.setQueue die q (if pkWaitVal p ≤ w then { x with ready := true, since := if first then x.since else s.now } else x))
      | none => .next (s.setQueue die q x)
    else .next s
  | none => .next s

/-- An item has retired: its completion record and interrupt, then its queue, graph or slot goes on (R290, R294, R297). -/
def State.itemDone (s : State) (v : Nat) (o : Origin) (p : Line) (st : Status) (code cycles : Nat) : State :=
  match o with
  | .queue d q => (s.complete d v p (s.queue d q).vec.toNat st code cycles).queueNext d q st code
  | .node rid k =>
    let (vec, d) := match find? s.runs rid with
      | some r => ((s.queue r.die r.q).vec.toNat, r.die)
      | none => (0, 0)
    ((s.complete d v p vec st code cycles).nodeRetired rid k).rewatch [d]
  | .slot d n => ((s.complete d v p 0 st code cycles).slotRetired d n).rewatch [d]
  | .world n _ => s.rewatch [dieOf n]

/-! ## Packets -/

/-- NOP_PACKET retires at once (R277). -/
def execNopPacket (die q : Nat) (s : State) : Host.Outcome State Fault Refusal :=
  let s := s.examine die q
  match s.eligible die q with
  | some p =>
    if pkType p = 0 ∧ s.sigWaits die (s.queue die q).vf p = false then
      .next (s.itemDone (s.queue die q).vf (.queue die q) p .done 0 0)
    else .next s
  | none => .next s

/-- UNASSIGNED_PACKET: an unassigned TYPE or a reserved bit stops the queue (R277, R384). -/
def execUnassignedPacket (die q : Nat) (s : State) : Host.Outcome State Fault Refusal :=
  let s := s.examine die q
  let x := s.queue die q
  match x.packet with
  | some p => if x.state = .run ∧ packetErr p ≠ 0 then .next (s.queueError die q (packetErr p)) else .next s
  | none => .next s

/-- LAUNCH_PACKET: an eligible launch is checked, refused, skipped or made ready (R286, R291). -/
def execLaunchPacket (die q : Nat) (s : State) : Host.Outcome State Fault Refusal :=
  let s := s.examine die q
  let x := s.queue die q
  match s.eligible die q with
  | some p =>
    if pkType p = 1 then
      match s.submit die x.vf (.queue die q) x.prio p x.since with
      | .waits => .next s
      | .ends st code => .next (s.itemDone x.vf (.queue die q) p st code 0)
      | .ready id s => .next (s.updQueue die q (fun y => { y with hand := .launch id }))
    else .next s
  | none => .next s

/-- A graph of the same id runs already (R294); ids are the virtual function's own (log 49). -/
def State.graphBusy (s : State) (v id : Nat) : Bool := s.runs.any (fun e => e.2.id == id && (s.queue e.2.die e.2.q).vf == v)

/-- GRAPH_PACKET: an instance of the registered graph begins, unless one of the same id runs; a run in hand goes on (R292, R294). -/
def execGraphPacket (die q : Nat) (s : State) : Host.Outcome State Fault Refusal :=
  let s := s.examine die q
  let x := s.queue die q
  match x.hand with
  | .graph rid => .next (s.graphAdvance rid)
  | _ =>
    match s.eligible die q with
    | some p =>
      let id := pk p 31 16
      let version := pk p 63 32
      if pkType p = 2 then
        match s.graphOf x.vf id version with
        | none => if s.sigWaits die x.vf p then .next s else .next (s.itemDone x.vf (.queue die q) p .refused 9 0)
        | some g =>
          if s.graphBusy x.vf id then .next s
          else
            let (rid, s) := s.fresh
            let s := { s with runs := put s.runs rid ⟨die, q, id, version, p, firstNodes g.nodes, 0, false, s.now⟩ }
            .next ((s.updQueue die q (fun y => { y with hand := .graph rid })).graphAdvance rid)
      else .next s
    | none => .next s

/-- COPY_SUBMISSION begins (R279). -/
def execCopySubmission (die q : Nat) (s : State) : Host.Outcome State Fault Refusal :=
  let s := s.examine die q
  let x := s.queue die q
  match s.eligible die q with
  | some p =>
    if pkType p = 3 then
      let (id, s) := s.beginCopy die q x.vf none p
      .next (s.updQueue die q (fun y => { y with hand := .copy id }))
    else .next s
  | none => .next s

/-- A copy waits for an exhausted stream on the way of its bytes or of its record (R407). -/
def State.copyWaits (s : State) (c : CopySub) : Bool :=
  let p := c.packet
  s.sigWaits c.die c.vf p || (s.vfWay c.die c.vf (pkSrc p) (pkLength p)).worse (s.vfWay c.die c.vf (pkDst p) (pkLength p)) == .exhausted

/-- COPY_SUBMISSION_RETIRE: the last byte is written and performed (R279). -/
def execCopySubmissionRetire (id : Nat) (s : State) : Host.Outcome State Fault Refusal :=
  match find? s.copies id with
  | none => .next s
  | some c =>
    if s.now < c.due ∨ s.copyWaits c = true then .next s
    else
      let p := c.packet
      let s := copyRun c.die (pkLength p) { s with copies := erase s.copies id } c.vf (pkSrc p) (pkDst p) (pkLength p)
      .next (match c.node with
        | some (rid, k) => s.itemDone c.vf (.node rid k) p .done 0 0
        | none => s.itemDone c.vf (.queue c.die c.q) p .done 0 0)

/-- FORWARDED_PACKET: the packet is enqueued as if the host had written it, and a report of KIND 0x01 answers it (R299). It comes
in over the rack link (R410), where it waits too while its way to the queue is exhausted (R407). -/
def execForwardedPacket (die q : Nat) (seq : BitVec 32) (packet : Line) (s : State) : Host.Outcome State Fault Refusal :=
  s.viaPort rackLink (.forwardedPacket die q seq packet) (
  let x := s.queue die q
  if (find? s.queues (qKey die q)).isNone then .next s
  else if 2 ^ x.log2n.toNat ≤ x.depth then if x.state = .error then .next s else .next (s.queueError die q 4)
  else if s.vfWay die x.vf (x.base.toNat + 64 * (x.prod.toNat % 2 ^ x.log2n.toNat)) 64 = .exhausted then
    .next { s with portIn := s.portIn ++ [(rackLink, .forwardedPacket die q seq packet)] }
  else
    let i := x.prod
    let s := s.cpWrite die x.vf (x.base.toNat + 64 * (i.toNat % 2 ^ x.log2n.toNat)) 64 packet.toNat
    let s := s.setQueue die q { if x.prod = x.cons then x.atHead s.now s.ns else x with
      prod := i + 1, fwd := x.fwd ++ [(i, seq, packet)] }
    .next (s.reportOn die q 1 0 i))

/-! ## Launches -/

/-- A saved launch goes over from an image to its recompiled one: the core at each saved offset is the one that the resume map names, and
keeps that offset (R289, R353 step 8). Commons stores left from a superstep that it was pre-empted in stay under the old core (log 49). -/
def State.retarget (s : State) (l : Nat) (old new : Image) : State :=
  match s.launch? l with
  | none => s
  | some x =>
    let (c0, r0) := if x.rect == (old.rectc, old.rectr, old.rectw, old.recth) then (new.rectc, new.rectr) else (x.col0, x.row0)
    let cores := x.cores.map (fun m =>
      let o := getD (32 * m.2.2 + m.2.1) new.resume (32 * m.2.2 + m.2.1)
      (coreAt (c0 + o % 32) (r0 + o / 32), m.2.1, m.2.2))
    let s := s.setLaunch l { x with image := x.image % 65536, col0 := c0, row0 := r0, cores }
    if cores.all (fun m => s.present m.1) then s else s.abortLaunch l 0x10

/-- A saved launch whose image has been superseded goes over to the new one; an image that no launch stands under any more is dropped. -/
def State.renewLaunch (s : State) (l : Nat) : State :=
  match s.launch? l with
  | some x =>
    if x.state = .saved ∧ 65536 ≤ x.image then
      match s.image? x.vf x.image, s.image? x.vf (x.image % 65536) with
      | some old, some new =>
        let s := s.retarget l old new
        if s.launches.any (fun e => e.2.vf == x.vf && e.2.image == x.image) then s
        else s.updVf x.vf (fun f => { f with images := erase f.images x.image })
      | _, _ => s
    else s
  | none => s

/-- A launch that cannot start waits one cycle more; t_first does not count it (R298). -/
def State.waitMore (s : State) (l : Nat) : State := s.updLaunch l (fun x => { x with since := x.since + 1 })

/-- LAUNCH_START: every core of the rectangle is free (R281, R289), and the shootdown that made the code executable has completed (R368).
A launch that waits asks for the pre-emption it may have; a saved one takes the mode that R285 gives it now, each core judged at the offset
that it loads (R2, R354). -/
def execLaunchStart (launch : Nat) (s : State) : Host.Outcome State Fault Refusal :=
  let s := s.renewLaunch launch
  match s.launch? launch with
  | none => .next s
  | some x =>
    if !x.waits then .next s
    else if !s.contends launch x then .next (s.waitMore launch)
    else if !s.coresFree launch x then .next ((s.preemptFor launch x).waitMore launch)
    else
      match s.image? x.vf x.image, x.state with
      | some i, .saved =>
        if s.codeShot x.vf i then .next (s.waitMore launch)
        else match s.modeOf i x.rect (s.mapped x.col0 x.row0 (x.wm1 + 1) (x.hm1 + 1)) (pkMreq x.packet) with
          | .ok m => .next (s.startLaunch launch { x with imode := m })
          | .error _ => .next (s.abortLaunch launch 0x10)
      | o, _ =>
        let d := (s.sourceQueue x).1
        if s.linkWaits d x.vf x.packet then .next (s.waitMore launch)
        else match s.checkFrom d x.vf launch x.packet x.hm1 (if pkIndirect x.packet then some (x.hm1 + 1) else none) with
        | .error code => .next (State.itemDone { s with launches := erase s.launches launch } x.vf x.origin x.packet .refused code 0)
        | .ok m =>
          if (o.map (s.codeShot x.vf)).getD false then .next (s.waitMore launch)
          else .next (s.startLaunch launch { x with imode := m, cores := s.mapped x.col0 x.row0 (x.wm1 + 1) (x.hm1 + 1) })

/-- LAUNCH_RETIRE (R290): the descriptors are cleared and the clasps released, then the completion record, the interrupt, and the next
packet. -/
def execLaunchRetire (launch : Nat) (s : State) : Host.Outcome State Fault Refusal :=
  match s.launch? launch with
  | none => .next s
  | some x =>
    if !s.mayRetire launch x || s.sigWaits (s.sourceQueue x).1 x.vf x.packet then .next s
    else
      let cycles := s.launchCycles x
      let s := s.dropLaunch launch x
      let s := match x.origin with
        | .world n _ => s.clearCore n
        | _ => s
      let s := s.rewatch (rectDies x.col0 x.row0 (x.wm1 + 1) (x.hm1 + 1))
      .next (s.itemDone x.vf x.origin x.packet (if x.aborted then .aborted else .done) (if x.aborted then x.code else 0) cycles)

end Sys2Proof.Machine
end

