-- ==== Sys2Proof/Machine/Fetch.lean ====
section
/-! DEFINITION. The instruction store while a program runs: lines of segment copies (R300, R301) and refetched lines (R369, R370). -/

namespace Sys2Proof.Machine

/-- A captured body has lines in a segment (R118, R301). -/
def IStore.capturedIn (st : IStore) (g : Segment) : Bool :=
  st.captured.any (fun b => decide (b.1 < g.first + g.len) && decide (g.first ≤ b.2))

/-- The segment held in the frame that a copy fills. -/
def IStore.victim (st : IStore) (i : Image) (f : Nat) : Option Segment :=
  match st.frame f with
  | some k => i.segments[k]?
  | none => none

/-- A copy that may deliver its next line: the frame holds no line of a captured body (R301). -/
def IStore.copyFree (st : IStore) (i : Image) (c : SegCopy) : Bool :=
  match st.victim i c.frame with
  | some g => !st.capturedIn g
  | none => true

def IStore.setFrame (st : IStore) (f : Nat) (k : Option Nat) : IStore :=
  if f = 0 then { st with frame0 := k } else { st with frame1 := k }

/-- Forgets the refetched, broken and invalidated lines of a segment. -/
def IStore.forget (st : IStore) (g : Segment) : IStore :=
  let out := fun (p : Nat) => !(decide (g.first ≤ p) && decide (p < g.first + g.len))
  { st with
    lines := st.lines.filter (fun e => out e.1), broken := st.broken.filter (fun e => out e.1), invalid := st.invalid.filter out }

/-- A frame loses its segment. -/
def IStore.dropFrame (st : IStore) (i : Image) (f : Nat) : IStore :=
  match st.victim i f with
  | some g => (st.setFrame f none).forget g
  | none => st.setFrame f none

/-- Starts copying segment k into frame f, whose segment leaves it unless a captured body holds it there; a copy in flight into that frame
is abandoned (R301). -/
def IStore.startCopy (st : IStore) (i : Image) (k f : Nat) : IStore :=
  let st : IStore := match i.segments[k]? with
    | some g => st.forget g
    | none => st
  let st : IStore := { st with copying := st.copying.filter (fun c => c.frame != f) ++ [⟨k, f, 0⟩] }
  if st.copyFree i ⟨k, f, 0⟩ then st.dropFrame i f else st

/-- A line of global memory under a page: it waits for an exhausted stream, and comes uncorrectable from one in ERROR (R305, R370,
R407). -/
def State.lineUnder (s : State) (n a : Nat) (p : Page) : Option Fetched :=
  match s.reach n (p.pbase + (a - p.vbase)) with
  | .active => some (s.lineOf a (some p))
  | .exhausted => none
  | .error => some (.broken 1)

/-- A line of global memory for the store of core n, through the die's TLB: what it finds, or nothing while the page's walk is awaited
(R311, R370). -/
def State.storeLine (s : State) (n a : Nat) : Option Fetched × State :=
  match findPage (s.die (dieOf n)).tlb (s.vfOf n) a with
  | some p => (s.lineUnder n a p, s)
  | none =>
    let st := (s.core n).istore
    if st.noPage.contains (vpn a) then
      (some (.broken 2), s.updCore n (fun c => { c with istore := { c.istore with noPage := c.istore.noPage.filter (· != vpn a) } }))
    else if st.waits.any (fun e => e.1 == vpn a) then (none, s)
    else (none, s.updCore n (fun c => { c with istore := { c.istore with waits := c.istore.waits ++ [(vpn a, s.now)] } }))

/-- The copy whose line arrives: the only one, or of two the one that the choice names. -/
def State.arriving (s : State) (cs : List SegCopy) : Option SegCopy × State :=
  match cs with
  | [] => (none, s)
  | [c] => (some c, s)
  | _ => let (k, s) := s.draw
         (cs[k % cs.length]?, s)

/-- The next line of a copy takes its place; the last one makes the frame whole (R301). -/
def IStore.arrive (st : IStore) (i : Image) (g : Segment) (c : SegCopy) (f : Fetched) : IStore :=
  let st := if c.arrived = 0 then st.dropFrame i c.frame else st
  let st := st.settle (g.first + c.arrived) f
  let rest := st.copying.filter (fun x => x.frame != c.frame)
  if c.arrived + 1 < g.len then { st with copying := { c with arrived := c.arrived + 1 } :: rest }
  else { st.setFrame c.frame (some c.seg) with copying := rest }

/-- SEGMENT_LINE_ARRIVAL: the next line of a copy arrives in its frame (R301). A line that cannot be read stays absent (R370). -/
def execSegmentLineArrival (core : Nat) (s : State) : Host.Outcome State Fault Refusal :=
  match s.imageOf core, s.arriving (s.core core).istore.copying with
  | some i, (some c, s) =>
    match i.segments[c.seg]? with
    | some g =>
      if !(s.core core).istore.copyFree i c then .next s
      else match s.storeLine core (g.addr.toNat + 64 * c.arrived) with
        | (some f, s) => .next (s.updCore core (fun x => { x with istore := x.istore.arrive i g c f }))
        | (none, s) => .next s
    | none => .next s
  | _, _ => .next s

/-- A line of the image stands in the store or would: its frame is there (R300). -/
def State.lineWanted (s : State) (n p : Nat) : Bool :=
  match s.imageOf n with
  | some i => decide (p < i.nlines) && (s.core n).istore.here i p
  | none => false

/-- INSTRUCTION_LINE_REFETCH: an invalidated line is read again under the new translation (R369, R370). -/
def execInstructionLineRefetch (core line : Nat) (s : State) : Host.Outcome State Fault Refusal :=
  let a := s.lineAddr core line
  if (s.core core).istore.invalid.contains line && s.lineWanted core line && !s.shotDown (s.vfOf core) (vpn a) then
    match s.storeLine core a with
    | (some f, s) => .next (s.updCore core (fun c => { c with istore := c.istore.settle line f }))
    | (none, s) => .next s
  else .next s

end Sys2Proof.Machine
end

