-- ==== Sys2Proof/Machine/Scalar.lean ====
section
/-! DEFINITION. The scalar slots (R136 to R154). Latencies are those of R137. -/

namespace Sys2Proof.Machine

/-- Records a scalar result computed from the state at issue (R138). -/
def scalarTo (u : ScalarSlot) (lat : Nat) (d : BitVec 6) (f : Core → Word) (s : State) : State :=
  s.record s.cur u.slot.index lat (.scalar d.toNat (f (s.core s.cur)))

/-- Records a condition half (R147). -/
def condTo (u : ScalarSlot) (j : BitVec 6) (f : Core → Bool) (s : State) : State :=
  s.record s.cur u.slot.index 1 (.cond j.toNat (f (s.core s.cur)))

/-- A result of two scalars. -/
def scalar2 (u : ScalarSlot) (lat : Nat) (d x y : BitVec 6) (f : Word → Word → Word) : State → State :=
  scalarTo u lat d (fun c => f (c.sreg x.toNat) (c.sreg y.toNat))

/-- A result of one scalar. -/
def scalar1 (u : ScalarSlot) (lat : Nat) (d x : BitVec 6) (f : Word → Word) : State → State :=
  scalarTo u lat d (fun c => f (c.sreg x.toNat))

/-- A compare of two scalars. -/
def compare2 (u : ScalarSlot) (j x y : BitVec 6) (f : Word → Word → Bool) : State → State :=
  condTo u j (fun c => f (c.sreg x.toNat) (c.sreg y.toNat))

/-! ## Values -/

/-- Bits [127:64] of the signed product (R142). -/
def mulHigh (x y : Word) : Word := BitVec.ofInt 64 (x.toInt * y.toInt / (2 ^ 64 : Nat))

/-- Bits [127:64] of the unsigned product (R142). -/
def mulHighU (x y : Word) : Word := BitVec.ofNat 64 (x.toNat * y.toNat / 2 ^ 64)

/-- DIV (R143). -/
def divS (x y : Word) : Word := if y = 0 then BitVec.allOnes 64 else BitVec.ofInt 64 (x.toInt.tdiv y.toInt)

/-- DIVU (R143). -/
def divU (x y : Word) : Word := if y = 0 then BitVec.allOnes 64 else BitVec.ofNat 64 (x.toNat / y.toNat)

/-- REM (R143). -/
def remS (x y : Word) : Word := if y = 0 then x else BitVec.ofInt 64 (x.toInt.tmod y.toInt)

/-- REMU (R143). -/
def remU (x y : Word) : Word := if y = 0 then x else BitVec.ofNat 64 (x.toNat % y.toNat)

/-- MIN, MAX, MINU, MAXU (R144). -/
def minS (x y : Word) : Word := if y.slt x then y else x
def maxS (x y : Word) : Word := if x.slt y then y else x
def minU (x y : Word) : Word := if y.ult x then y else x
def maxU (x y : Word) : Word := if x.ult y then y else x

/-- The shift amount of the register forms (R146). -/
def amount (y : Word) : Nat := y.toNat % 64

/-- RDLI: the iteration of loop entry i, counted from the outermost; 0 beyond the depth (R152). -/
def Core.loopIter (c : Core) (i : Nat) : Word :=
  match c.regs.loops.reverse[i]? with
  | some e => e.iter.zeroExtend 64
  | none => 0

/-- RDXY (R154). -/
def State.position (s : State) (n : Nat) : Word :=
  BitVec.ofNat 64 (rowOf n * 2 ^ 24 + colOf n * 2 ^ 16 + (s.core n).rrow * 2 ^ 8 + (s.core n).rcol)

/-! ## Meanings -/

def execAdd (u : ScalarSlot) (d x y : BitVec 6) (s : State) : Host.Outcome State Fault Refusal :=
  slotExec (.add u d x y) s (scalar2 u 1 d x y (· + ·))

def execSub (u : ScalarSlot) (d x y : BitVec 6) (s : State) : Host.Outcome State Fault Refusal :=
  slotExec (.sub u d x y) s (scalar2 u 1 d x y (· - ·))

def execAddi (u : ScalarSlot) (d x : BitVec 6) (imm : BitVec 32) (s : State) : Host.Outcome State Fault Refusal :=
  slotExec (.addi u d x imm) s (scalar1 u 1 d x (· + imm.signExtend 64))

def execMul (u : ScalarSlot) (d x y : BitVec 6) (s : State) : Host.Outcome State Fault Refusal :=
  slotExec (.mul u d x y) s (scalar2 u 3 d x y (· * ·))

def execMulh (u : ScalarSlot) (d x y : BitVec 6) (s : State) : Host.Outcome State Fault Refusal :=
  slotExec (.mulh u d x y) s (scalar2 u 3 d x y mulHigh)

def execMulhu (u : ScalarSlot) (d x y : BitVec 6) (s : State) : Host.Outcome State Fault Refusal :=
  slotExec (.mulhu u d x y) s (scalar2 u 3 d x y mulHighU)

def execDiv (u : ScalarSlot) (d x y : BitVec 6) (s : State) : Host.Outcome State Fault Refusal :=
  slotExec (.div u d x y) s (scalar2 u 20 d x y divS)

def execDivu (u : ScalarSlot) (d x y : BitVec 6) (s : State) : Host.Outcome State Fault Refusal :=
  slotExec (.divu u d x y) s (scalar2 u 20 d x y divU)

def execRem (u : ScalarSlot) (d x y : BitVec 6) (s : State) : Host.Outcome State Fault Refusal :=
  slotExec (.rem u d x y) s (scalar2 u 20 d x y remS)

def execRemu (u : ScalarSlot) (d x y : BitVec 6) (s : State) : Host.Outcome State Fault Refusal :=
  slotExec (.remu u d x y) s (scalar2 u 20 d x y remU)

def execMin (u : ScalarSlot) (d x y : BitVec 6) (s : State) : Host.Outcome State Fault Refusal :=
  slotExec (.min u d x y) s (scalar2 u 1 d x y minS)

def execMax (u : ScalarSlot) (d x y : BitVec 6) (s : State) : Host.Outcome State Fault Refusal :=
  slotExec (.max u d x y) s (scalar2 u 1 d x y maxS)

def execMinu (u : ScalarSlot) (d x y : BitVec 6) (s : State) : Host.Outcome State Fault Refusal :=
  slotExec (.minu u d x y) s (scalar2 u 1 d x y minU)

def execMaxu (u : ScalarSlot) (d x y : BitVec 6) (s : State) : Host.Outcome State Fault Refusal :=
  slotExec (.maxu u d x y) s (scalar2 u 1 d x y maxU)

def execAnd (u : ScalarSlot) (d x y : BitVec 6) (s : State) : Host.Outcome State Fault Refusal :=
  slotExec (.and u d x y) s (scalar2 u 1 d x y (· &&& ·))

def execOr (u : ScalarSlot) (d x y : BitVec 6) (s : State) : Host.Outcome State Fault Refusal :=
  slotExec (.or u d x y) s (scalar2 u 1 d x y (· ||| ·))

def execXor (u : ScalarSlot) (d x y : BitVec 6) (s : State) : Host.Outcome State Fault Refusal :=
  slotExec (.xor u d x y) s (scalar2 u 1 d x y (· ^^^ ·))

def execAndi (u : ScalarSlot) (d x : BitVec 6) (imm : BitVec 32) (s : State) : Host.Outcome State Fault Refusal :=
  slotExec (.andi u d x imm) s (scalar1 u 1 d x (· &&& imm.zeroExtend 64))

def execOri (u : ScalarSlot) (d x : BitVec 6) (imm : BitVec 32) (s : State) : Host.Outcome State Fault Refusal :=
  slotExec (.ori u d x imm) s (scalar1 u 1 d x (· ||| imm.zeroExtend 64))

def execXori (u : ScalarSlot) (d x : BitVec 6) (imm : BitVec 32) (s : State) : Host.Outcome State Fault Refusal :=
  slotExec (.xori u d x imm) s (scalar1 u 1 d x (· ^^^ imm.zeroExtend 64))

def execShl (u : ScalarSlot) (d x y : BitVec 6) (s : State) : Host.Outcome State Fault Refusal :=
  slotExec (.shl u d x y) s (scalar2 u 1 d x y (fun a b => a <<< amount b))

def execShr (u : ScalarSlot) (d x y : BitVec 6) (s : State) : Host.Outcome State Fault Refusal :=
  slotExec (.shr u d x y) s (scalar2 u 1 d x y (fun a b => a >>> amount b))

def execSra (u : ScalarSlot) (d x y : BitVec 6) (s : State) : Host.Outcome State Fault Refusal :=
  slotExec (.sra u d x y) s (scalar2 u 1 d x y (fun a b => a.sshiftRight (amount b)))

def execShli (u : ScalarSlot) (d x : BitVec 6) (amt : BitVec 6) (s : State) : Host.Outcome State Fault Refusal :=
  slotExec (.shli u d x amt) s (scalar1 u 1 d x (· <<< amt.toNat))

def execShri (u : ScalarSlot) (d x : BitVec 6) (amt : BitVec 6) (s : State) : Host.Outcome State Fault Refusal :=
  slotExec (.shri u d x amt) s (scalar1 u 1 d x (· >>> amt.toNat))

def execSrai (u : ScalarSlot) (d x : BitVec 6) (amt : BitVec 6) (s : State) : Host.Outcome State Fault Refusal :=
  slotExec (.srai u d x amt) s (scalar1 u 1 d x (fun a => a.sshiftRight amt.toNat))

def execCeq (u : ScalarSlot) (d x y : BitVec 6) (s : State) : Host.Outcome State Fault Refusal :=
  slotExec (.ceq u d x y) s (compare2 u d x y (fun a b => a == b))

def execCne (u : ScalarSlot) (d x y : BitVec 6) (s : State) : Host.Outcome State Fault Refusal :=
  slotExec (.cne u d x y) s (compare2 u d x y (fun a b => a != b))

def execClt (u : ScalarSlot) (d x y : BitVec 6) (s : State) : Host.Outcome State Fault Refusal :=
  slotExec (.clt u d x y) s (compare2 u d x y (fun a b => a.slt b))

def execCltu (u : ScalarSlot) (d x y : BitVec 6) (s : State) : Host.Outcome State Fault Refusal :=
  slotExec (.cltu u d x y) s (compare2 u d x y (fun a b => a.ult b))

def execCeqi (u : ScalarSlot) (d x : BitVec 6) (imm : BitVec 32) (s : State) : Host.Outcome State Fault Refusal :=
  slotExec (.ceqi u d x imm) s (condTo u d (fun c => c.sreg x.toNat == imm.signExtend 64))

def execClti (u : ScalarSlot) (d x : BitVec 6) (imm : BitVec 32) (s : State) : Host.Outcome State Fault Refusal :=
  slotExec (.clti u d x imm) s (condTo u d (fun c => (c.sreg x.toNat).slt (imm.signExtend 64)))

def execSel (u : ScalarSlot) (d x y z : BitVec 6) (s : State) : Host.Outcome State Fault Refusal :=
  slotExec (.sel u d x y z) s (scalarTo u 1 d (fun c => if c.cond z.toNat then c.sreg x.toNat else c.sreg y.toNat))

def execMovi (u : ScalarSlot) (d : BitVec 6) (imm : BitVec 48) (s : State) : Host.Outcome State Fault Refusal :=
  slotExec (.movi u d imm) s (scalarTo u 1 d (fun _ => imm.signExtend 64))

def execMovih (u : ScalarSlot) (d : BitVec 6) (imm : BitVec 48) (s : State) : Host.Outcome State Fault Refusal :=
  slotExec (.movih u d imm) s (scalarTo u 1 d (fun _ => imm.zeroExtend 64 <<< 16))

def execClz (u : ScalarSlot) (d x : BitVec 6) (s : State) : Host.Outcome State Fault Refusal :=
  slotExec (.clz u d x) s (scalar1 u 2 d x (fun a => BitVec.ofNat 64 (clzBits 64 a.toNat)))

def execCtz (u : ScalarSlot) (d x : BitVec 6) (s : State) : Host.Outcome State Fault Refusal :=
  slotExec (.ctz u d x) s (scalar1 u 2 d x (fun a => BitVec.ofNat 64 (ctzBits 64 a.toNat)))

def execPopc (u : ScalarSlot) (d x : BitVec 6) (s : State) : Host.Outcome State Fault Refusal :=
  slotExec (.popc u d x) s (scalar1 u 2 d x (fun a => BitVec.ofNat 64 (popCount 64 a.toNat)))

def execAgen (u : ScalarSlot) (d x y z : BitVec 6) (s : State) : Host.Outcome State Fault Refusal :=
  slotExec (.agen u d x y z) s (scalar2 u 1 d x y (fun a b => a + b <<< z.toNat))

def execRdli (u : ScalarSlot) (d x : BitVec 6) (s : State) : Host.Outcome State Fault Refusal :=
  slotExec (.rdli u d x) s (scalarTo u 1 d (fun c => c.loopIter x.toNat))

def execRdjt (u : ScalarSlot) (d x : BitVec 6) (s : State) : Host.Outcome State Fault Refusal :=
  slotExec (.rdjt u d x) s (scalarTo u 1 d (fun c => (c.target x.toNat).zeroExtend 64))

def execRdxy (u : ScalarSlot) (d : BitVec 6) (s : State) : Host.Outcome State Fault Refusal :=
  slotExec (.rdxy u d) s (fun s => scalarTo u 1 d (fun _ => s.position s.cur) s)

end Sys2Proof.Machine
end

