-- ==== Sys2Proof/Machine/Reach.lean ====
section
/-! DEFINITION. What the code of an image may execute at one core offset (R346): the bundles that can be reached from the entry
(R112 to R120), followed with the scalars, conditions and targets that are the same on every path (log 30). -/

namespace Sys2Proof.Machine

/-- Values that are certain whenever a bundle issues; an absent number is not certain. -/
structure Known where
  /-- Scalar registers (R24). -/
  regs : Map Word
  /-- Condition halves (R25). -/
  conds : Map Bool
  /-- Target halves (R25). -/
  targets : Map (BitVec 24)
  deriving DecidableEq, Repr

/-- The launch-start values of R50; the registers of the argument words and of the rows (R287) are not certain. -/
def Known.start : Known :=
  { regs := (List.range 32).map (fun k => (k + 32, 0))
    conds := (List.range 12).map (fun j => (j, false))
    targets := (List.range 12).map (fun j => (j, 0)) }

/-- What is certain on both of two paths. -/
def Known.meet (a b : Known) : Known :=
  ⟨a.regs.filter (b.regs.contains ·), a.conds.filter (b.conds.contains ·), a.targets.filter (b.targets.contains ·)⟩

def Known.sreg (k : Known) (x : BitVec 6) : Option Word := if x = 0 then some 0 else find? k.regs x.toNat

def Known.cond (k : Known) (j : BitVec 6) : Option Bool := find? k.conds j.toNat

/-- A value of two scalars, when both are certain. -/
def Known.of2 (k : Known) (x y : BitVec 6) (f : Word → Word → α) : Option α :=
  (k.sreg x).bind (fun a => (k.sreg y).map (f a))

/-- The scalar that an instruction of a core writes, when its operands are certain (R136 to R154). -/
def Known.scalarOf (k : Known) (n : Nat) (rel : Nat × Nat) (p : Nat) (i : Instr) : Option Word :=
  match i with
  | .add _ _ x y => k.of2 x y (· + ·)
  | .sub _ _ x y => k.of2 x y (· - ·)
  | .mul _ _ x y => k.of2 x y (· * ·)
  | .div _ _ x y => k.of2 x y divS
  | .divu _ _ x y => k.of2 x y divU
  | .rem _ _ x y => k.of2 x y remS
  | .remu _ _ x y => k.of2 x y remU
  | .min _ _ x y => k.of2 x y minS
  | .max _ _ x y => k.of2 x y maxS
  | .minu _ _ x y => k.of2 x y minU
  | .maxu _ _ x y => k.of2 x y maxU
  | .and _ _ x y => k.of2 x y (· &&& ·)
  | .or _ _ x y => k.of2 x y (· ||| ·)
  | .xor _ _ x y => k.of2 x y (· ^^^ ·)
  | .shl _ _ x y => k.of2 x y (fun a b => a <<< amount b)
  | .shr _ _ x y => k.of2 x y (fun a b => a >>> amount b)
  | .sra _ _ x y => k.of2 x y (fun a b => a.sshiftRight (amount b))
  | .agen _ _ x y z => k.of2 x y (fun a b => a + b <<< z.toNat)
  | .addi _ _ x imm => (k.sreg x).map (· + imm.signExtend 64)
  | .andi _ _ x imm => (k.sreg x).map (· &&& imm.zeroExtend 64)
  | .ori _ _ x imm => (k.sreg x).map (· ||| imm.zeroExtend 64)
  | .xori _ _ x imm => (k.sreg x).map (· ^^^ imm.zeroExtend 64)
  | .shli _ _ x amt => (k.sreg x).map (fun (a : Word) => a <<< amt.toNat)
  | .shri _ _ x amt => (k.sreg x).map (fun (a : Word) => a >>> amt.toNat)
  | .srai _ _ x amt => (k.sreg x).map (fun a => a.sshiftRight amt.toNat)
  | .sel _ _ x y z => (k.cond z).bind (fun b => if b then k.sreg x else k.sreg y)
  | .movi _ _ imm => some (imm.signExtend 64)
  | .movih _ _ imm => some (imm.zeroExtend 64 <<< 16)
  | .rdjt _ _ x => (find? k.targets x.toNat).map (BitVec.zeroExtend 64)
  | .rdxy _ _ => some (BitVec.ofNat 64 (rowOf n * 2 ^ 24 + colOf n * 2 ^ 16 + rel.2 * 2 ^ 8 + rel.1))
  | .csrr _ r => if r = 10 then some (BitVec.ofNat 64 (corexy n)) else none
  | .call _ | .calli _ _ => some (BitVec.ofNat 64 (p + 1))
  | _ => none

/-- The condition half that a compare writes, when its operands are certain (R147). -/
def Known.condOf (k : Known) (i : Instr) : Option Bool :=
  match i with
  | .ceq _ _ x y => k.of2 x y (· == ·)
  | .cne _ _ x y => k.of2 x y (· != ·)
  | .clt _ _ x y => k.of2 x y BitVec.slt
  | .cltu _ _ x y => k.of2 x y BitVec.ult
  | .ceqi _ _ x imm => (k.sreg x).map (· == imm.signExtend 64)
  | .clti _ _ x imm => (k.sreg x).map (BitVec.slt · (imm.signExtend 64))
  | _ => none

/-- What is certain after the instructions of the bundle at p, all of which read the values before it (R11). -/
def Known.after (k : Known) (n : Nat) (rel : Nat × Nat) (p : Nat) (acts : List Instr) : Known :=
  acts.foldl (fun (m : Known) i => (destsOf i).foldl (fun (m : Known) l =>
    match l.kind with
    | .scalar => { m with regs := match k.scalarOf n rel p i with
        | some v => put m.regs l.lo v
        | none => erase m.regs l.lo }
    | .cond => { m with conds := match k.condOf i with
        | some v => put m.conds l.lo v
        | none => erase m.conds l.lo }
    | .target => { m with targets := match i with
        | .prep _ t => put m.targets l.lo t
        | _ => erase m.targets l.lo }
    | _ => m) m) k

/-- Where the indirect transfers and the loops of an image may lead. -/
structure FlowMap where
  /-- Targets of its PREPs. -/
  preps : List Nat
  /-- Bundles after its CALLs and CALLIs; every bundle when other code writes s63. -/
  returns : List Nat
  /-- First and last bundle of each loop body (R118). -/
  loops : List (Nat × Nat)
  /-- Entry classes (R377). -/
  classes : List (Nat × Nat)
  deriving DecidableEq, Repr

def flowMap (bs : List (Nat × Bundle)) (classes : List (Nat × Nat)) : FlowMap :=
  let calls := fun (i : Instr) => match i with
    | .call _ | .calli _ _ => true
    | _ => false
  let acts := bs.flatMap (fun e => e.2.acts.map (fun a => (e.1, a.2)))
  { preps := acts.filterMap (fun e => match e.2 with
      | .prep _ t => some t.toNat
      | _ => none)
    returns :=
      if acts.any (fun e => !calls e.2 && (destsOf e.2).any (fun l => l.kind == .scalar && l.lo == 63)) then bs.map (fun e => e.1)
      else (acts.filter (fun e => calls e.2)).map (fun e => e.1 + 1)
    loops := acts.filterMap (fun e => match e.2 with
      | .loop _ last | .loopi _ last => some (e.1 + 1, last.toNat)
      | _ => none)
    classes }

/-- The bundles that may follow the bundle at p (R112 to R120). -/
def Known.nexts (k : Known) (f : FlowMap) (p : Nat) (i : Instr) : List Nat :=
  let on := [p + 1] ++ (f.loops.filter (fun l => l.2 == p)).map (fun l => l.1)
  let branch := fun (j : BitVec 4) (b : Bool) =>
    let taken := match find? k.targets j.toNat with
      | some t => [t.toNat]
      | none => 0 :: f.preps
    match find? k.conds j.toNat with
    | some c => if c = b then taken else on
    | none => taken ++ on
  let opened := fun (trip : Option Word) (last : BitVec 24) => match trip with
    | some t => if t = 0 then [last.toNat + 1] else [p + 1]
    | none => [p + 1, last.toNat + 1]
  match i with
  | .br j => branch j true
  | .brn j => branch j false
  | .jmp t | .call t => [t.toNat]
  | .calli x cls => match k.sreg x with
    | some t => [t.toNat]
    | none => (f.classes.filter (fun e => e.2 == cls.toNat)).map (fun e => e.1)
  | .ret => match k.sreg 63 with
    | some t => [t.toNat]
    | none => f.returns
  | .loop x last => opened (k.sreg x) last
  | .loopi t last => opened (some (t.zeroExtend 64)) last
  | .lexit => [p + 1]
  | .pool c => [p + 1 + c.toNat]
  | .halt => []
  | _ => on

/-- Follows the code from a list of bundles to visit; what is known at a bundle only shrinks, so that the fuel suffices. -/
def reachFrom (next : Nat → Known → List (Nat × Known)) : Nat → List (Nat × Known) → Map Known → Map Known
  | 0, _, m => m
  | _, [], m => m
  | fuel + 1, (p, k) :: w, m =>
    match find? m p with
    | none => reachFrom next fuel (next p k ++ w) (put m p k)
    | some old =>
      let k := old.meet k
      if k = old then reachFrom next fuel w m else reachFrom next fuel (next p k ++ w) (put m p k)

/-- The instructions that code may execute on core n at the offset `rel` (column, row), each with what is known where it
issues; a bundle that a TRAP ends acts in no other slot (R111, R132). -/
def reached (bs : List (Nat × Bundle)) (classes : List (Nat × Nat)) (entry n : Nat) (rel : Nat × Nat) : List (Known × Instr) :=
  let f := flowMap bs classes
  let acts := fun (p : Nat) => match bs.find? (fun e => e.1 == p) with
    | some (_, b) => (b.ct, match b.ct with
        | .trap _ => [.trap 0]
        | _ => b.acts.map (fun a => a.2))
    | none => (.halt, [])
  let next := fun (p : Nat) (k : Known) =>
    let (ct, is) := acts p
    let after := k.after n rel p is
    (k.nexts f p ct).map (fun q => (q, after))
  let fuel := 100 * (bs.length + 1) * (bs.length + f.preps.length + f.loops.length + classes.length + 2)
  (reachFrom next fuel [(entry, Known.start)] []).flatMap (fun e => (acts e.1).2.map (fun i => (e.2, i)))

end Sys2Proof.Machine
end

