-- ==== Sys2Proof/Machine/Loader.lean ====
section
/-! DEFINITION. The loader: the image container (R367) and its checks (R79, R267, R273, R283, R300, R317, R346, R371, R377, R401, R403,
R405), the writing of the code pages (R368), and the arrival of a recompiled image (R353 to R356). -/

namespace Sys2Proof.Machine

/-! ## Bytes and sections -/

/-- n bytes of a container from an offset, little-endian. -/
def byteField (c off n : Nat) : Nat := c / 2 ^ (8 * off) % 2 ^ (8 * n)

/-- The records of `size` bytes in n bytes of contents. -/
def recordsOf (size n v : Nat) : List Nat := (List.range (n / size)).map (fun k => byteField v (size * k) size)

/-- Bits outside the given fields are zero; fields are (high, low), highest first. -/
def onlyFields (width v : Nat) (fields : List (Nat × Nat)) : Bool :=
  v - fields.foldl (fun a f => a + bits v f.1 f.2 * 2 ^ f.2) 0 == 0 && decide (v < 2 ^ width)

/-- A section: type, offset, length. -/
structure Section where
  type : Nat
  off  : Nat
  len  : Nat
  deriving DecidableEq, Repr

/-- The header and the section table of a container of `len` bytes (R367). -/
structure Container where
  raw   : Nat
  len   : Nat
  header : Nat
  sections : List Section
  deriving DecidableEq, Repr

/-- NSECT of a header. -/
def nsectOf (h : Nat) : Nat := bits h 335 320

def readContainer (len raw : Nat) : Container :=
  let h := byteField raw 0 64
  { raw, len, header := h
    sections := (List.range (nsectOf h)).map (fun i =>
      let e := byteField raw (64 + 16 * i) 16
      ⟨bits e 7 0, bits e 127 64, bits e 63 32⟩) }

/-- Bits [hi:lo] of the header. -/
def Container.h (c : Container) (hi lo : Nat) : Nat := bits c.header hi lo

/-- NLINES. -/
def Container.n (c : Container) : Nat := c.h 383 360

/-- The section of a type. -/
def Container.sect? (c : Container) (t : Nat) : Option Section := c.sections.find? (fun s => s.type == t)

/-- Length and contents of a section; an omitted one is empty. -/
def Container.sect (c : Container) (t : Nat) : Nat × Nat :=
  match c.sect? t with
  | some s => (s.len, byteField c.raw s.off s.len)
  | none => (0, 0)

/-- The fields of the header (R367). -/
def Container.headerOk (c : Container) : Bool :=
  c.h 31 0 == 0x4C445154 && c.h 63 32 == 1 && c.h 255 64 == 0 && c.h 293 288 == 0 && c.h 359 352 == 0 && c.h 391 384 == 0 &&
    decide (2 ≤ nsectOf c.header) && decide (nsectOf c.header ≤ 15) && decide (1 ≤ c.h 447 416) && decide (1 ≤ c.n) &&
    decide (c.h 415 392 < c.n) && decide (1 ≤ c.h 351 344) && decide (c.h 351 344 ≤ 32) && decide (1 ≤ c.h 343 336) &&
    decide (c.h 343 336 ≤ 20) && decide (c.h 303 299 + c.h 351 344 ≤ 32) && decide (c.h 298 294 + c.h 343 336 ≤ 20)

/-- Two sections share a byte. -/
def Section.meets (a b : Section) : Bool := rangesMeet (a.off, a.len) (b.off, b.len)

/-- The section table (R367): listed types, each once, inside the container, apart from one another, CODE and LATENCY there. -/
def Container.tableOk (c : Container) : Bool :=
  decide (64 + 16 * c.sections.length ≤ c.len) &&
    (List.range c.sections.length).all (fun i => byteField c.raw (64 + 16 * i) 16 / 2 ^ 8 % 2 ^ 24 == 0) &&
    c.sections.all (fun s => decide (1 ≤ s.type) && decide (s.type ≤ 14) && decide (s.off + s.len ≤ c.len)) &&
    (List.range c.sections.length).all (fun i => (List.range i).all (fun j =>
      match c.sections[i]?, c.sections[j]? with
      | some a, some b => a.type != b.type && !a.meets b
      | _, _ => true)) &&
    (c.sect? 1).isSome && (c.sect? 10).isSome && (c.sect 1).1 == 64 * c.n && (c.sect 10).1 == c.h 351 344 * c.h 343 336

/-! ## Code and pools -/

/-- The lines of CODE. -/
def Container.lines (c : Container) : List Line := (recordsOf 64 (c.sect 1).1 (c.sect 1).2).map (BitVec.ofNat 512)

/-- Pools of a list of lines from index p on: first line and count after each POOL header; the lines of a pool are no bundles (R79). -/
def poolsFrom : Nat → Nat → List Line → List (Nat × Nat)
  | _, _, [] => []
  | p, skip + 1, _ :: r => poolsFrom (p + 1) skip r
  | p, 0, l :: r =>
    match (decodeLine l).ct with
    | .pool k => (p + 1, k.toNat) :: poolsFrom (p + 1) k.toNat r
    | _ => poolsFrom (p + 1) 0 r

/-- The bundles of a list of lines, pool lines left out, with their indices. -/
def bundlesFrom : Nat → Nat → List Line → List (Nat × Bundle)
  | _, _, [] => []
  | p, skip + 1, _ :: r => bundlesFrom (p + 1) skip r
  | p, 0, l :: r =>
    let b := decodeLine l
    match b.ct with
    | .pool k => (p, b) :: bundlesFrom (p + 1) k.toNat r
    | _ => (p, b) :: bundlesFrom (p + 1) 0 r

/-- POOLMAP (R367). -/
def Container.poolMap (c : Container) : List (Nat × Nat) :=
  (recordsOf 8 (c.sect 2).1 (c.sect 2).2).map (fun e => (bits e 23 0, bits e 36 24))

/-- SEGMENTS (R300). -/
def Container.segments (c : Container) : List Segment :=
  (recordsOf 16 (c.sect 8).1 (c.sect 8).2).map (fun e =>
    ⟨BitVec.ofNat 64 (bits e 127 64), bits e 63 48, bits e 44 32, bits e 23 0⟩)

/-- A pool with its header lies in the image and in one segment (R79). -/
def poolOk (n : Nat) (segs : List Segment) (e : Nat × Nat) : Bool :=
  decide (e.1 + e.2 ≤ n) && (segs.isEmpty || segs.any (fun g => decide (g.first + 1 ≤ e.1) && decide (e.1 + e.2 ≤ g.first + g.len)))

/-- POOLMAP agrees with the COUNT lines after the POOL headers (R79); its order and grouping are the model's choice: one entry for each
header, headers rising (log 49). -/
def Container.poolsOk (c : Container) : Bool :=
  (c.sect 2).1 % 8 == 0 && (recordsOf 8 (c.sect 2).1 (c.sect 2).2).all (fun e => onlyFields 64 e [(36, 24), (23, 0)]) &&
    c.poolMap == poolsFrom 0 0 c.lines && c.poolMap.all (poolOk c.n c.segments)

/-- The segments cover n bundles in order from p on (R300). -/
def coverFrom (n : Nat) : Nat → List Segment → Bool
  | p, [] => p == n
  | p, g :: r => g.first == p && decide (1 ≤ g.len) && decide (g.len ≤ 4096) && g.addr.toNat % 64 == 0 && coverFrom n (p + g.len) r

def Container.segmentsOk (c : Container) : Bool :=
  (c.sect 8).1 % 16 == 0 && (recordsOf 16 (c.sect 8).1 (c.sect 8).2).all (fun e => bits e 47 45 == 0 && bits e 31 24 == 0) &&
    (if c.n ≤ 8192 then c.segments.isEmpty
     else coverFrom c.n 0 c.segments && c.segments.all (fun g => g.next == 0xFFFF || decide (g.next < c.segments.length)))

/-! ## The mark table -/

/-- An item (R317): its 16 bytes and whether its fields are in range. -/
def itemOf (e : Nat) : MarkItem × Bool :=
  let k := bits e 127 120
  let loc := bits e 63 0
  let ok := bits e 103 64 == 0 && (match k with
    | 1 => onlyFields 64 loc [(36, 36), (35, 24), (11, 0)] && decide (bits loc 35 24 + bits loc 11 0 + 1 ≤ 3072)
    | 2 => decide (loc < 64)
    | 3 => decide (loc < 64) && decide (loc % 16 < 12)
    | 4 => decide (loc < 32)
    | 5 => decide (bits loc 63 48 < 3) && bits loc 47 24 % 32 == 0 && bits loc 23 0 % 32 == 0 && decide (32 ≤ bits loc 23 0) &&
        decide (bits loc 47 24 + bits loc 23 0 ≤ (bufItem loc).size)
    | 6 => loc == 0
    | 7 => onlyFields 64 loc [(63, 60), (47, 24), (23, 0)]
    | _ => false)
  (⟨k, bits e 119 104, BitVec.ofNat 64 loc⟩, ok)

/-- The entries of a mark table from its 16-byte records after the header; `none` when one is cut off or out of range. -/
def marksFrom : Nat → List Nat → Option (List MarkEntry)
  | 0, l => if l.isEmpty then some [] else none
  | _, [] => some []
  | fuel + 1, e :: r =>
    let k := bits e 47 32
    let items := (r.take k).map itemOf
    if items.length < k || items.any (fun i => !i.2) || !onlyFields 128 e [(127, 96), (95, 72), (71, 68), (47, 32)] ||
        bits e 127 96 == 0 then none
    else match marksFrom fuel (r.drop k) with
      | some ms => some (⟨bits e 127 96, bits e 95 72, bits e 71 68, items.map (fun i => i.1)⟩ :: ms)
      | none => none

/-- BOUND: the low 32 bits of the mark table's header (log 29). -/
def Container.markBound (c : Container) : BitVec 32 := BitVec.ofNat 32 (byteField (c.sect 3).2 0 4)

def Container.marks (c : Container) : Option (List MarkEntry) :=
  let (n, v) := c.sect 3
  if n % 16 ≠ 0 then none else marksFrom (n / 16) ((recordsOf 16 n v).drop 1)

/-- The loops around bundle q, outermost first: START and END (R317). -/
def loopsAround (bs : List (Nat × Bundle)) (q : Nat) : List (Nat × Nat) :=
  bs.filterMap (fun e =>
    let last := match e.2.ct with
      | .loop _ l => some l.toNat
      | .loopi _ l => some l.toNat
      | _ => none
    match last with
    | some l => if e.1 < q ∧ q ≤ l then some (e.1 + 1, l) else none
    | none => none)

/-- The loop items of an entry, by level. -/
def MarkEntry.loopItems (e : MarkEntry) : List (Nat × Nat × Nat) :=
  sortBy (fun a b => decide (a.1 ≤ b.1)) ((e.items.filter (fun i => i.kind == 7)).map (fun i =>
    (bits i.loc.toNat 63 60, bits i.loc.toNat 23 0, bits i.loc.toNat 47 24)))

/-- No element twice. -/
def noRepeat : List Nat → Bool
  | [] => true
  | x :: r => !r.contains x && noRepeat r

/-- The refusals of R317. -/
def marksOk (bs : List (Nat × Bundle)) (ms : List MarkEntry) : Bool :=
  bs.all (fun e => !e.2.mark || ms.any (fun m => m.bundle == e.1)) && noRepeat (ms.map (fun m => m.rpid)) &&
    ms.all (fun m =>
      let around := loopsAround bs m.bundle
      m.depth == around.length &&
        m.loopItems == ((List.range around.length).zip around).map (fun e => (e.1, e.2.1, e.2.2)) &&
        noRepeat ((m.items.filter (fun i => i.kind != 7)).map (fun i => i.vid)))

/-! ## Templates -/

/-- An address lies in a typed buffer's window. -/
def inBuf (b : Buf) (a : Nat) : Bool :=
  match bufOf 0 a with
  | some (x, _) => x == b
  | none => false

/-- Formats of a template (R267). -/
def tplCode (x : Nat) : Bool := x == 0x1F || decide (x < 0x18)

/-- The limits of R273. -/
def bankTemplateOk (t : BitVec 1024) : Bool :=
  let x := t.toNat
  let d := tplDfmt t
  inBuf .a (bits x 63 0) && inBuf .c (bits x 127 64) && bits x 127 64 % 32 == 0 && decide (bits x 191 128 < 2 ^ 52) &&
    ((decide (3 ≤ d) && decide (d ≤ 6) && tplSfmt t == 3) || (d == 0x13 && tplSfmt t == 0x13)) &&
    bits x 255 224 == 0 && bits x 351 320 == 0 && bits x 415 384 == 0 && bits x 319 288 == 0 && bits x 383 352 == 0 &&
    bits x 447 416 == 0 && tplKey t == 0 && !tplSat t

/-- The refusals of R267 and R405. -/
def templateOk (t : BitVec 1024) : Bool :=
  let x := t.toNat
  let s := tplSfmt t
  let d := tplDfmt t
  [(1023, 848), (511, 511), (495, 486), (479, 476), (471, 470), (467, 467), (463, 461), (455, 453)].all (fun f => bits x f.1 f.2 == 0) &&
    decide (bits x 767 704 ≤ 2 ^ 52) && decide (bits x 639 576 ≤ 2 ^ 52) &&
    tplCode s && tplCode d && (s == 0x1F) == (d == 0x1F) && ((bfpWidth s).isNone || (bfpWidth d).isNone || s == d) &&
    (tplKey t == 0 || (decide (bits x 63 0 < 2 ^ 52) && (bufOf 0 (bits x 127 64)).isSome)) &&
    (if tplBank t then bankTemplateOk t
     else !inBuf .c (bits x 127 64) && (bits x 767 704 == 0 || !inBuf .c (bits x 703 640)))

def Container.templates (c : Container) : List (Nat × BitVec 1024) :=
  (recordsOf 136 (c.sect 4).1 (c.sect 4).2).map (fun e => (bits e 63 0, BitVec.ofNat 1024 (e / 2 ^ 64)))

def Container.templatesOk (c : Container) : Bool :=
  (c.sect 4).1 % 136 == 0 && c.templates.all (fun e => decide (e.1 < 256) && templateOk e.2) && noRepeat (c.templates.map (fun e => e.1))

/-! ## Data, regions, groups, classes -/

/-- The ranges of DATA: address in the low, length in the high eight bytes of the head (log 29). -/
def dataFrom : Nat → Nat → Nat → Option (List (Nat × Nat × Nat))
  | 0, n, _ => if n = 0 then some [] else none
  | fuel + 1, n, v =>
    if n = 0 then some []
    else
      let a := byteField v 0 8
      let k := byteField v 8 8
      let room := 16 + 16 * ceilDiv k 16
      if n < room then none
      else match dataFrom fuel (n - room) (v / 2 ^ (8 * room)) with
        | some r => some ((a, k, byteField v 16 k) :: r)
        | none => none

def Container.data (c : Container) : Option (List (Nat × Nat × Nat)) := dataFrom ((c.sect 5).1 / 16 + 1) (c.sect 5).1 (c.sect 5).2

/-- A range of `.data` lies in a typed buffer or in the commons (R50, R286). -/
def dataOk (e : Nat × Nat × Nat) : Bool :=
  match bufOf 0 e.1 with
  | some (b, off) => decide (off + e.2.1 ≤ b.size)
  | none => decide (commonsBase ≤ e.1) && decide (e.1 + e.2.1 ≤ commonsBase + 10240 * 4096)

def Container.regions (c : Container) : List Nat := recordsOf 8 (c.sect 6).1 (c.sect 6).2

/-- A region descriptor without VALID (R259). -/
def regionOk (v : Nat) : Bool :=
  onlyFields 64 v [(59, 56), (55, 54), (53, 52), (45, 32), (13, 0)] && decide (1 ≤ bits v 45 32) && decide (bits v 45 32 ≤ 10240) &&
    decide (bits v 13 0 < 10240) && (bits v 55 54 == 1 || bits v 55 54 == 2 || bits v 53 52 == 0)

/-- GROUPS: g, column, row, width and height in the five low bytes (log 29). -/
def Container.groups (c : Container) : List (Nat × Nat × Nat × Nat × Nat) :=
  (recordsOf 8 (c.sect 7).1 (c.sect 7).2).map (fun e => (bits e 7 0, bits e 15 8, bits e 23 16, bits e 31 24, bits e 39 32))

/-- The limits of R283. -/
def groupOk (w h : Nat) (g : Nat × Nat × Nat × Nat × Nat) : Bool :=
  decide (g.1 < 16) && [1, 2, 4, 8, 16, 32].contains g.2.2.2.1 && [1, 2, 4, 8, 16].contains g.2.2.2.2 &&
    g.2.1 % g.2.2.2.1 == 0 && g.2.2.1 % g.2.2.2.2 == 0 && decide (g.2.1 + g.2.2.2.1 ≤ w) && decide (g.2.2.1 + g.2.2.2.2 ≤ h)

/-- No reserved bit of a need record is set (R372). -/
def needClean (v : Nat) : Bool :=
  onlyFields 256 v [(255, 192), (179, 168), (167, 152), (151, 136), (131, 131), (130, 128), (127, 115), (111, 100), (95, 83), (79, 68)]

/-- No reserved bit of a call-site record is set (R374): 16 bytes, then the live-across set in need layout. -/
def siteClean (v : Nat) : Bool := onlyFields 128 (v % 2 ^ 128) [(47, 32), (26, 24), (23, 0)] && needClean (v / 2 ^ 128)

/-- NEEDS: need records, then call-site records, with no reserved bit set (R367, R374). The section does not say how many functions there
are: some number of them fits (log 29). -/
def Container.needsOk (c : Container) : Bool :=
  let (n, v) := c.sect 11
  (List.range (n / 48 + 1)).any (fun k =>
    (n - 48 * k) % 32 == 0 && (recordsOf 32 (n - 48 * k) v).all needClean &&
      (recordsOf 48 (48 * k) (v / 2 ^ (8 * (n - 48 * k)))).all siteClean)

/-- The entry classes of SIGCLASS (R377). -/
def classesFrom : Nat → Nat → Nat → Option (List (Nat × Nat))
  | 0, n, _ => if n = 0 then some [] else none
  | fuel + 1, n, v =>
    if n = 0 then some []
    else
      let cls := byteField v 0 1
      let k := byteField v 4 4
      let room := 48 + 4 * k
      if n < room ∨ cls = 0 ∨ byteField v 8 8 ≠ 0 ∨ needClean (byteField v 16 32) = false then none
      else match classesFrom fuel (n - room) (v / 2 ^ (8 * room)) with
        | some r => some ((recordsOf 4 (4 * k) (byteField v 48 (4 * k))).map (fun b => (b, cls)) ++ r)
        | none => none

def Container.classes (c : Container) : Option (List (Nat × Nat)) :=
  classesFrom ((c.sect 9).1 / 48 + 1) (c.sect 9).1 (c.sect 9).2

/-- No index stands in two classes (R377). -/
def classesOk (l : List (Nat × Nat)) : Bool := l.all (fun a => l.all (fun b => a.1 != b.1 || a.2 == b.2))

def Container.latency (c : Container) : List Nat := recordsOf 1 (c.sect 10).1 (c.sect 10).2

/-! ## Relocation -/

/-- Sets the low bits of one slot word of a line. -/
def patchSlot (l : Line) (slot width v : Nat) : Line :=
  BitVec.ofNat 512 (mergeBits l.toNat (v * 2 ^ (64 * slot)) ((2 ^ width - 1) * 2 ^ (64 * slot)))

/-- The major opcode of a slot of a line (R53). -/
def majorAt (l : Line) (slot : Nat) : Nat := bits l.toNat (64 * slot + 63) (64 * slot + 57)

/-- One entry of RELOC applied to the lines, G the global address of line 0; `none` when it is refused (R371): the slot holds another major
opcode than 0x22 of MOVIH or 0x0F of ORI, whatever the rest of its word is. -/
def relocate (g : Nat) (ls : List Line) (e : Nat) : Option (List Line) :=
  let p := bits e 63 40
  let slot := bits e 39 37
  let x := (g + bits e 127 64) % 2 ^ 64
  match ls[p]? with
  | none => none
  | some l =>
    if bits e 34 0 ≠ 0 ∨ (slot ≠ 1 ∧ slot ≠ 2) then none
    else match bits e 36 35, majorAt l slot with
      | 1, 0x22 => some (ls.set p (patchSlot l slot 48 (x / 2 ^ 16)))
      | 2, 0x0F => some (ls.set p (patchSlot l slot 32 (x % 2 ^ 16)))
      | _, _ => none

def Container.relocated (c : Container) (g : Nat) : Option (List Line) :=
  if (c.sect 12).1 % 16 ≠ 0 then none
  else (recordsOf 16 (c.sect 12).1 (c.sect 12).2).foldl (fun ls e => ls.bind (fun ls => relocate g ls e)) (some c.lines)

/-! ## The image -/

/-- The image of a container whose line 0 stands at `base`; `none` when a check on the container alone fails. -/
def Container.image (c : Container) (base : Nat) : Option Image :=
  let bs := bundlesFrom 0 0 c.lines
  let w := c.h 351 344
  let ht := c.h 343 336
  if !c.headerOk || !c.tableOk || !c.segmentsOk || !c.poolsOk || !c.templatesOk || (c.sect 6).1 % 8 != 0 || (c.sect 7).1 % 8 != 0 ||
      (c.sect 13).1 % 4 != 0 || !c.needsOk || c.regions.any (fun r => !regionOk r) || c.groups.any (fun g => !groupOk w ht g) ||
      (recordsOf 8 (c.sect 7).1 (c.sect 7).2).any (fun e => decide (2 ^ 40 ≤ e)) || c.latency.any (fun l => decide (16 ≤ l)) then none
  else match c.marks, c.data, c.classes, c.relocated (match c.segments with
      | g :: _ => g.addr.toNat
      | [] => base) with
    | some ms, some ds, some cs, some ls =>
      if !marksOk bs ms || ds.any (fun e => !dataOk e) || !classesOk cs ||
          (c.h 287 256 != 0 && (w != 1 || ht != 1 || !c.regions.isEmpty || c.groups.any (fun g => g.2.2.2.1 * g.2.2.2.2 != 1))) then none
      else some
        { serial := BitVec.ofNat 64 (c.h 511 448), version := BitVec.ofNat 32 (c.h 447 416), entry := c.h 415 392, nlines := c.n,
          rectw := w, recth := ht, rectc := c.h 303 299, rectr := c.h 298 294, parkmap := BitVec.ofNat 16 (c.h 319 304),
          flen := c.h 287 256, code := ls, pools := c.poolMap, bound := c.markBound, marks := ms,
          templates := c.templates.foldl (fun m e => put m e.1 e.2) [], data := ds, regions := c.regions.map (BitVec.ofNat 64),
          groups := c.groups, segments := c.segments, classes := cs, latency := c.latency.map (BitVec.ofNat 4),
          resume := (recordsOf 4 (c.sect 13).1 (c.sect 13).2).map (fun e => (bits e 15 0, bits e 31 16)),
          chesol := (c.sect? 14).isSome, base := BitVec.ofNat 64 base, valid := true, latOnly := false, stamps := [], stale := [] }
    | _, _, _, _ => none

/-! ## Units in service -/

/-- The buffer banks that templates, `.data` ranges and mark-table items name (R346). -/
def Image.banks (i : Image) : List (Buf × Nat) :=
  let ofMask := fun (b : Buf) (n m : Nat) => ((List.range n).filter (fun k => bit m k)).map (fun k => (b, k))
  distinctBanks (
    i.templates.flatMap (fun e => ofMask .a 32 (bits e.2.toNat 799 768) ++ ofMask .w 32 (bits e.2.toNat 831 800) ++
      ofMask .c 16 (bits e.2.toNat 847 832)) ++
    i.data.flatMap (fun e => match bufOf 0 e.1 with
      | some (b, off) => runBanks b off e.2.1
      | none => []) ++
    i.marks.flatMap (fun m => (m.items.filter (fun t => t.kind == 5)).flatMap (fun t =>
      runBanks (bufItem t.loc.toNat) (bits t.loc.toNat 47 24) (bits t.loc.toNat 23 0))))

/-- The copy channel whose aperture a store writes, when its address is certain (R208, R226). -/
def channelOf (e : Known × Instr) : Option Nat :=
  match e.2 with
  | .sts _ b _ _ off => (e.1.sreg b).bind (fun x =>
    let a := effAddr x off
    if copyBase ≤ a ∧ a < copyBase + 0x10000 then some ((a - copyBase) / 0x1000) else none)
  | _ => none

/-- The record of core n has every unit that the image uses on that core, which stands at the offset `rel` (column, row) of the
rectangle (R346): the code that the core may reach, its slice items, templates, `.data` ranges and buffer items. A template names no
channel, so one that any core may start needs some channel (log 30). -/
def Image.unitsOk (i : Image) (r : CoreRec) (n : Nat) (rel : Nat × Nat) : Bool :=
  let code := if r = CoreRec.full then [] else reached (bundlesFrom 0 0 i.code) i.classes i.entry n rel
  let locs := code.flatMap (fun e => sourcesOf e.2 ++ destsOf e.2)
  let slices := i.marks.flatMap (fun m => (m.items.filter (fun t => t.kind == 1)).map (fun t => (sliceItem t.loc.toNat).1))
  (r.cla || !(locs.any (fun l => l.kind == .sliceA) || slices.contains false)) &&
    (r.clb || !(locs.any (fun l => l.kind == .sliceB) || slices.contains true)) &&
    (r.mx || code.all (fun e => mxBusy e.2 == 0)) &&
    (r.chan != 0 || i.templates.all (fun t => tplBank t.2)) && (code.filterMap channelOf).all (fun k => r.chan.getLsbD k) &&
    i.banks.all (fun b => match b.1 with
      | .a => r.abank.getLsbD b.2
      | .c => r.cbank.getLsbD b.2
      | .w => r.wbank.getLsbD b.2)

/-- The image may be resident on its rectangle (R346): a region is judged on the die of its group. -/
def State.residentOk (s : State) (i : Image) : Bool :=
  (s.mapped i.rectc i.rectr i.rectw i.recth).all (fun m => i.unitsOk (s.recOf m.1) m.1 m.2) &&
    i.regions.all (fun x =>
      match groupDie i (regionOf 0 x).group (i.rectc, i.rectr, i.rectw, i.recth) (s.mapped i.rectc i.rectr i.rectw i.recth) with
      | some d => decide (bits x.toNat 13 0 + bits x.toNat 45 32 ≤ 64 * (s.die d).hallmark.npresent)
      | none => true)

/-! ## Writing the code -/

/-- Every code page is there, writable and not executable (R311, R368). -/
def State.codeRoom (s : State) (v : Nat) (i : Image) : Bool :=
  i.base.toNat % 64 == 0 && i.codePages.all (fun g => match s.pageOf v (4096 * g) with
    | some p => p.w && !p.x && p.dev == 0
    | none => false)

/-- The code is written, then its pages become read and execute with a shootdown (R368). -/
def State.writeCode (s : State) (v : Nat) (i : Image) : State :=
  let s := ((List.range i.code.length).zip i.code).foldl (fun (s : State) e => s.vfWrite v (i.lineAddr e.1) 64 e.2.toNat) s
  i.codePages.foldl (fun (s : State) g => match s.pageOf v (4096 * g) with
    | some p => if p.x then s else s.shootdown v p.vbase p.size [{ p with r := true, w := false, x := true }]
    | none => s) s

/-- The answer of firmware to a request that it may refuse. -/
def State.answer (s : State) (ok : Bool) : State := { s with out := { s.out with answers := ok :: s.out.answers } }

/-- The image that the loader accepts for a virtual function. -/
def State.acceptImage (s : State) (v base len container : Nat) : Option Image :=
  match (readContainer len container).image base with
  | some i => if s.residentOk i && s.codeRoom v i then some i else none
  | none => none

/-- A launch of an image handle. -/
def State.handleUsed (s : State) (v h : Nat) : Bool := s.launches.any (fun e => e.2.vf == v && e.2.image == h)

/-- Fields of a frame-table entry (R400). -/
def frLength (e : BitVec 128) : Nat := bits e.toNat 95 64
def frRpid (e : BitVec 128) : Nat := bits e.toNat 63 32
def frImage (e : BitVec 128) : Nat := bits e.toNat 31 16
def frEn (e : BitVec 128) : Bool := bit e.toNat 0

/-- An image fits a frame-table entry: FLEN and SEALRPID (R401). -/
def frameImageOk (i : Image) (e : BitVec 128) : Bool :=
  i.flen != 0 && decide (i.flen + 2048 ≤ frLength e) && i.marks.any (fun m => m.rpid == frRpid e)

/-- An image fits the active entries of the virtual function's cores that name its handle (R401). -/
def State.framesFit (s : State) (v handle : Nat) (i : Image) : Bool :=
  s.cores.all (fun e => !(s.vf v).dies.contains (dieOf e.1) ||
    e.2.frames.entries.all (fun x => !(frEn x && frImage x == handle) || frameImageOk i x))

/-- A handle that an image may take: 1 to 0xFFFF (R278, R400), no launch stands under it, and the frames that name it fit. -/
def State.handleTakes (s : State) (v handle : Nat) (i : Image) : Bool :=
  decide (1 ≤ handle) && decide (handle < 65536) && !s.handleUsed v handle && s.framesFit v handle i

/-- The first segment of an image is kept on no core any more (R298, R356). -/
def State.dropKept (s : State) (v handle : Nat) : State :=
  { s with cores := s.cores.map (fun e => (e.1, { e.2 with kept := e.2.kept.filter (fun k => !(k.1 == v && k.2 == handle)) })) }

/-- Launches that stand under an image. -/
def State.under (s : State) (v image : Nat) : List (Nat × Launch) :=
  s.launches.filter (fun e => e.2.vf == v && e.2.image == image && e.2.state != .retired)

/-- The resident rectangles of an image: its own and those of its launches (R353, step 2). -/
def State.residentRects (s : State) (v handle : Nat) (i : Image) : List Rect :=
  (i.rectc, i.rectr, i.rectw, i.recth) :: (s.under v handle).map (fun e => e.2.rect)

/-- Mapped cores of a rectangle with their offsets. -/
def State.mappedIn (s : State) (r : Rect) : List (Nat × Nat × Nat) := s.mapped r.1 r.2.1 r.2.2.1 r.2.2.2

/-- An image binds a commons region on a die in one of its resident rectangles. -/
def State.bindsOn (s : State) (d v handle : Nat) (i : Image) : Bool :=
  (s.residentRects v handle i).any (fun r => i.regions.any (fun x =>
    groupDie i (regionOf 0 x).group r (s.mappedIn r) == some d))

/-- An image is affected by a new body of die d (R353, step 2). -/
def State.affectedBy (s : State) (d : Nat) (h : Hallmark) (v handle : Nat) (i : Image) : Bool :=
  let old := (s.die d).hallmark
  (s.residentRects v handle i).any (fun r => (s.mappedIn r).any (fun m =>
    dieOf m.1 == d && decide (old.coreRec (localOf m.1) ≠ h.coreRec (localOf m.1)))) ||
    (decide (old.npresent ≠ h.npresent) && s.bindsOn d v handle i)

/-- The image that a handle now names is classified for every map change that has classified the resident images and not yet published
(R353, step 2). -/
def State.reclassify (s : State) (v handle : Nat) (i : Image) : State :=
  [0, 1, 2, 3].foldl (fun (s : State) d =>
    match (s.die d).change.step, (s.die d).change.body with
    | 2, some h | 3, some h | 4, some h => s.updDie d (fun y => { y with change := { y.change with
        affected := y.change.affected.filter (· != (v, handle)) ++ if s.affectedBy d h v handle i then [(v, handle)] else [] } })
    | _, _ => s) s

/-- IMAGE_LOAD: the checks of R367, the code pages of R368, and the resident image, which a map change under way classifies; a handle in use
by a launch is refused. -/
def execImageLoad (vf handle base len container : Nat) (s : State) : Host.Outcome State Fault Refusal :=
  match s.acceptImage vf base len container with
  | some i =>
    if decide (vf < 4) && s.handleTakes vf handle i then
      let s := (s.writeCode vf i).dropKept vf handle
      .next (((s.updVf vf (fun f => { f with images := put f.images handle i })).reclassify vf handle i).answer true)
    else .next (s.answer false)
  | none => .next (s.answer false)

/-! ## Recompilation -/

/-- The image of a virtual function that waits to be recompiled under a handle. -/
def State.recompiles (s : State) (v handle : Nat) : Option Image := (s.image? v handle).bind (fun i => if i.valid then none else some i)

/-- A failed recompilation aborts the launches with CODE 0x10 (R353, step 8). -/
def State.recompileFails (s : State) (v handle : Nat) : State :=
  ((s.under v handle).foldl (fun (s : State) e => s.abortLaunch e.1 0x10) s).answer false

/-- The version that a rectangle's dies share; 0, which expects none, where they differ (log 21). -/
def State.sharedVersion (s : State) (r : Rect) : Nat :=
  match distinct ((rectDies r.1 r.2.1 r.2.2.1 r.2.2.2).map (fun d => (s.die d).hallmark.version.toNat)) with
  | [x] => x
  | _ => 0

/-- Slots with the image take its handle and the new version (R356). -/
def State.renewSlots (s : State) (v handle : Nat) : State :=
  (s.vf v).dies.foldl (fun (s : State) d =>
    s.updDie d (fun y => { y with table := { y.table with slots := y.table.slots.map (fun e =>
      if pkImage e.2.packet = handle then
        (e.1, { e.2 with entry := BitVec.ofNat 576 (mergeBits e.2.entry.toNat (s.sharedVersion e.2.rect * 2 ^ 160) ((2 ^ 32 - 1) * 2 ^ 160)) })
      else e) } })) s

/-- A recompiled image takes its handle; launches that still run stand under the old one, which keeps a handle of its own (R353, R354). A
world's frame is not evacuated: its core is saved at its seal mark only (R400, R401). -/
def State.renewImage (s : State) (v handle : Nat) (old i : Image) : State :=
  let live := (s.under v handle).filter (fun e => e.2.live)
  let (k, s) := s.fresh
  let keep := handle + 65536 * k
  let s := s.updVf v (fun f =>
    let images := put f.images handle { i with chesol := true }
    { f with images := if live.isEmpty then images else put images keep old })
  let s := live.foldl (fun (s : State) e =>
    let s := s.updLaunch e.1 (fun x => { x with image := keep })
    if e.2.ofWorld then s else s.askStop e.1 .evacuate) s
  let s := (s.under v handle).foldl (fun (s : State) e =>
    if e.2.state = .saved then s.retarget e.1 old i else s) s
  (s.dropKept v handle).renewSlots v handle

/-- A virtual function and a handle as one number: the virtual function in the low two bits. -/
def imageKey (vf handle : Nat) : Nat := 4 * handle + vf

/-- RECOMPILE_DONE: the recompiled image stands under its handle; saved launches go over to it, running ones (R354) at their next
evacuation point. -/
def execRecompileDone (image base len container : Nat) (s : State) : Host.Outcome State Fault Refusal :=
  let vf := image % 4
  let handle := image / 4
  match s.recompiles vf handle with
  | none => .next (s.answer false)
  | some old =>
    match s.acceptImage vf base len container with
    | none => .next (s.recompileFails vf handle)
    | some i =>
      if !old.chesol || i.rectw != old.rectw || i.recth != old.recth || !s.framesFit vf handle i then .next (s.recompileFails vf handle)
      else .next ((((s.writeCode vf i).renewImage vf handle old i).reclassify vf handle i).answer true)

end Sys2Proof.Machine
end

