-- ==== Sys2Proof/Machine/Ports.lean ====
section
/-! DEFINITION. The 24 ports of the package: their lanes in service, the widths they train to, and PORTSTAT (R408 to R411). -/

namespace Sys2Proof.Machine

/-- KIND of a port (R408). -/
def portKind (i : Nat) : Nat := if i < 2 then 0 else if i < 18 then 1 else if i < 20 then 2 else 3

/-- The second host link is there only when the boot named a second root (R409). -/
def State.portOff (s : State) (i : Nat) : Bool := i == 1 && !s.boot.secondRoot

/-- Lanes in service of a port in the hallmark (R343, R408). -/
def State.portLanes (s : State) (i : Nat) : Nat :=
  if i = 0 then popCount 16 (s.die 0).hallmark.pcie.toNat
  else if i = 1 then popCount 16 (s.die 3).hallmark.pcie.toNat
  else if i < 18 then popCount 4 ((s.die ((i - 2) / 4)).hallmark.ual.toNat / 2 ^ (4 * ((i - 2) % 4)))
  else if i = 18 then popCount 8 (s.die 1).hallmark.uet.toNat
  else if i = 19 then popCount 8 (s.die 2).hallmark.uet.toNat
  else if i = 20 then popCount 128 (s.linkLanes 0 1).toNat
  else if i = 21 then popCount 128 (s.linkLanes 2 3).toNat
  else if i = 22 then popCount 128 (s.linkLanes 0 2).toNat
  else popCount 128 (s.linkLanes 1 3).toNat

/-- The lowest lanes in service without a gap, from lane 0. -/
def lowRun : Nat → Nat → Nat
  | 0, _ => 0
  | n + 1, x => if x % 2 = 1 then 1 + lowRun n (x / 2) else 0

/-- Lanes that a port may use: contiguous from lane 0 on a host link (R410). -/
def State.usableLanes (s : State) (i : Nat) : Nat :=
  if i = 0 then lowRun 16 (s.die 0).hallmark.pcie.toNat
  else if i = 1 then lowRun 16 (s.die 3).hallmark.pcie.toNat
  else s.portLanes i

/-- The lanes of a port of each kind (R408). -/
def fullLanes (i : Nat) : Nat := [16, 4, 8, 128].getD (portKind i) 0

/-- The widest width of a port's standard within some lanes (R410). -/
def widestOf (i lanes : Nat) : Nat :=
  match portKind i with
  | 0 => ([16, 8, 4, 2, 1].find? (fun w => decide (w ≤ lanes))).getD 0
  | 1 => ([4, 2, 1].find? (fun w => decide (w ≤ lanes))).getD 0
  | 2 => ([8, 4, 2].find? (fun w => decide (w ≤ lanes))).getD 0
  | _ => lanes

/-- The rate per lane in Gb/s (R410). -/
def laneRate (i : Nat) : Nat := [128, 200, 100, 32].getD (portKind i) 0

/-- A port trained within its lanes in service (R408 to R411); `insvc` keeps the lanes it was trained for. -/
def State.trained (s : State) (i : Nat) : Port :=
  if s.portOff i then Port.down
  else
    let w := widestOf i (s.usableLanes i)
    ⟨if w = 0 then 0 else if w < fullLanes i then 3 else 2, w, s.portLanes i, laneRate i * w⟩

/-- A port that is training carries nothing (R408, R410). -/
def State.training (s : State) (i : Nat) : Port := ⟨1, 0, s.portLanes i, 0⟩

/-- The lanes of a port change: a die link takes its new width between two flits, an external port starts to retrain, and one with too few
lanes for its narrowest width is DOWN (R410, R411). -/
def State.relane (s : State) (i : Nat) : Port :=
  if s.portOff i then Port.down
  else if portKind i = 3 ∨ widestOf i (s.usableLanes i) = 0 then s.trained i
  else s.training i

/-- The ports after a hallmark has changed (R410). -/
def State.relaneAll (s : State) : State :=
  { s with ports := s.ports.map (fun e => if e.2.insvc = s.portLanes e.1 then e else (e.1, s.relane e.1)) }

/-- The ports after a boot: die links are up, external ports train (R396, R408). -/
def State.trainAll (s : State) : State := { s with ports := (List.range 24).map (fun i => (i, s.relane i)) }

/-- PORT_RETRAIN: the widest width that the lanes in service allow (R410, R411); in reset every port is DOWN (R416). -/
def execPortRetrain (port : Nat) (s : State) : Host.Outcome State Fault Refusal :=
  if 24 ≤ port ∨ s.boot.recovery = true then .next s
  else .next { s with ports := put s.ports port (s.trained port) }

/-- PORTSTAT: INSVC is the hallmark's; a disabled port reads zero (R408, R409). -/
def State.portstat (s : State) (i : Nat) : Nat :=
  if s.portOff i then 0
  else
    let p := s.port i
    p.state.toNat + portKind i * 2 ^ 4 + s.portLanes i * 2 ^ 8 + p.width * 2 ^ 16 + p.rate * 2 ^ 32

end Sys2Proof.Machine
end

