-- ==== Sys2Proof/Machine/MapChange.lean ====
section
/-! DEFINITION. Remeasurement (R347, R348), the body of a hallmark and its signatures (R340 to R344, R397), the migration of an HBM channel
(R350), and map changes (R349 to R356). -/

namespace Sys2Proof.Machine

/-! ## The body of a hallmark -/

/-- A core record as its 128 bits (R342). -/
def CoreRec.word (r : CoreRec) : Nat :=
  packBits 1 [b2n r.present, 0, b2n r.cla, b2n r.clb, b2n r.mx] + r.lat.toNat * 2 ^ 8 + r.abank.toNat * 2 ^ 32 +
    r.wbank.toNat * 2 ^ 64 + r.cbank.toNat * 2 ^ 96 + r.chan.toNat * 2 ^ 112

/-- The header (R341). -/
def Hallmark.header (h : Hallmark) : Nat :=
  h.die.toNat + b2n (decide (h.npresent < 152)) * 2 ^ 2 + 2 ^ 24 + h.npresent * 2 ^ 32 + h.cause.toNat * 2 ^ 40 +
    h.version.toNat * 2 ^ 64 + h.prevVer.toNat * 2 ^ 96 + h.serial.toNat * 2 ^ 128 + h.time.toNat * 2 ^ 192 + h.prevHash.toNat * 2 ^ 256

/-- The lane map (R343). -/
def Hallmark.lanes (h : Hallmark) : Nat :=
  h.uet.toNat + h.pcie.toNat * 2 ^ 16 + h.ual.toNat * 2 ^ 32 + h.dlv.toNat * 2 ^ 256 + h.dlh.toNat * 2 ^ 384

/-- The 2,752 bytes of the body (R340). -/
def Hallmark.body (h : Hallmark) : Nat :=
  h.header + packBits 128 ((List.range 160).map (fun i => (h.coreRec i).word)) * 2 ^ 512 +
    packBits 8 ((List.range 64).map (fun c => b2n (h.hbm.getLsbD c))) * 2 ^ (8 * 2624) + h.lanes * 2 ^ (8 * 2688)

/-- The 6,144 bytes of a hallmark: the body, the Ed25519 and the ML-DSA-65 signature, zeros (R340). -/
def Hallmark.bytes (h : Hallmark) : Nat := h.body + h.ed.toNat * 2 ^ (8 * 2752) + h.mldsa.toNat * 2 ^ (8 * 2816)

/-- The seed of the hallmark key of the die with a serial number (R397). -/
def hallmarkKey (cdi1 : BitVec 256) (serial : BitVec 64) : BitVec 256 :=
  Config.hkdf cdi1 20 (ascii "TQ4 hallmark" + serial.toNat * 2 ^ 96)

def State.hallmarkSeed (s : State) (serial : BitVec 64) : BitVec 256 := hallmarkKey s.boot.cdi1 serial

/-- The body with both signatures (R340, R344). -/
def State.signHallmark (s : State) (h : Hallmark) : Hallmark :=
  let k := s.hallmarkSeed h.serial
  { h with ed := Config.edSign k 2752 h.body, mldsa := Config.mldsaSign k 2752 h.body }

/-- A hallmark is valid for a die that holds another: both signatures are those of the die's key, SERIAL is the die's, PREVHASH is the digest
of the body of PREVVER, and VERSION is the next (R344). -/
def State.hallmarkValid (s : State) (d : Nat) (h : Hallmark) : Bool :=
  let old := (s.die d).hallmark
  s.signHallmark h == h && h.serial == old.serial && h.prevVer == old.version && h.prevHash == Config.sha256 2752 old.body &&
    h.version == old.version + 1

/-! ## Remeasurement -/

/-- The core of a unit runs no launch. -/
def State.coreQuiet (s : State) (n : Nat) : Bool := !s.launches.any (fun e => e.2.live && e.2.cores.any (fun m => m.1 == n))

/-- The saved launches whose rectangle holds core n. -/
def State.savedOn (s : State) (n : Nat) : List (Nat × Launch) :=
  s.launches.filter (fun e => e.2.state == .saved && e.2.cores.any (fun m => m.1 == n))

/-- The unit is free for its test (R348). -/
def State.unitFree (s : State) (u : UnitId) (r : UnitRec) : Bool :=
  !onCore u || (s.coreQuiet u.core && (r.claimed || (s.savedOn u.core).isEmpty))

/-- CLAIM: 30 s after it was scheduled, a core unit that is not free has its core claimed and the launch that holds it evacuated; the
claim is recorded (R348). -/
def execClaim (u : UnitId) (s : State) : Host.Outcome State Fault Refusal :=
  let r := s.unitRec u
  if r.state == .scheduled && onCore u && !r.claimed && !s.unitFree u r && decide (r.since + 30000000000 ≤ s.ns) then
    let held := (s.launches.find? (fun e => e.2.live && !e.2.ofWorld && e.2.cores.any (fun m => m.1 == u.core))).map (fun e => e.1)
    let evac := match held with
      | some l => [l]
      | none => ((s.savedOn u.core).map (fun e => e.1)).take 1
    let s := s.setUnit u { r with claimed := true, evac, since := s.ns }
    let s := match held with
      | some l => s.askStop l .claim
      | none => s
    .next (s.slotRecord u.die 0 1 0)
  else .next s

/-- TEST_START: a scheduled unit that is free enters TESTING; the test occupies a core unit's core (R347, R348). -/
def execTestStart (u : UnitId) (s : State) : Host.Outcome State Fault Refusal :=
  let r := s.unitRec u
  if r.state == .scheduled && s.unitFree u r then
    .next (s.setUnit u { r with state := .testing, since := s.ns, claimed := r.claimed || onCore u })
  else .next s

/-- A launch that a claim evacuated resumes ahead of every waiting launch (R348). -/
def State.endClaim (s : State) (r : UnitRec) : State :=
  r.evac.foldl (fun (s : State) l => s.updLaunch l (fun x => if x.state = .saved then { x with evac := true } else x)) s

/-- TEST_END: a pass clears both counts and ends the claim; a slower class is RAISED; a failure is FAILED. The claim ends with the test in
each case; after the last two the launch stays saved until the publication (R347, R348). -/
def execTestEnd (u : UnitId) (t : TestResult) (s : State) : Host.Outcome State Fault Refusal :=
  let r := s.unitRec u
  if r.state ≠ .testing then .next s
  else match t with
    | .pass => .next ((s.setUnit u UnitRec.zero).endClaim r)
    | .slower c => .next (s.setUnit u { r with state := .raised, cls := c, since := s.ns, corr := [], unc := [], claimed := false })
    | .fail =>
      if s.hopSpent u then .next ((s.setUnit u { r with state := .serving, claimed := false, evac := [] }).endClaim r)
      else .next (s.setUnit u { r with state := .failed, since := s.ns, claimed := false })

/-- A launch of an affected image in the evacuation of a map change that began 100 ms ago (R353). -/
def State.evacLate (s : State) (x : Launch) : Bool :=
  [0, 1, 2, 3].any (fun d =>
    let c := (s.die d).change
    c.step == 3 && c.affected.contains (x.vf, x.image) && decide (c.began + 100000000 ≤ s.ns))

/-- EVACUATION_TIMEOUT: a launch that has reached no evacuation point within 100 ms of a claim or of step 3 is aborted with CODE 0x10
(R348, R353). -/
def execEvacuationTimeout (launch : Nat) (s : State) : Host.Outcome State Fault Refusal :=
  match s.launch? launch with
  | none => .next s
  | some x =>
    let claim := s.units.any (fun e => e.2.claimed && e.2.state == .scheduled && e.2.evac.contains launch &&
      decide (e.2.since + 100000000 ≤ s.ns))
    if x.live && !x.aborted && !x.ofWorld && (claim || s.evacLate x) then .next (s.abortLaunch launch 0x10) else .next s

/-! ## Migration -/

/-- A view with its bytes renamed. -/
def View.rename (f : Nat → Nat) (v : View) : View := { v with pts := v.pts.foldl (fun m e => put m (f e.1) e.2) [] }

/-- A translation with its frames renamed. -/
def Trans.rename (f : Nat → Nat) (t : Trans) : Trans := { t with pages := t.pages.map (fun e => (e.1, f (4096 * e.2) / 4096)) }

/-- A page with its frame renamed. -/
def pageMoved (f : Nat → Nat) (p : Page) : Page := { p with pbase := f p.pbase }

/-- A core with physical addresses renamed. -/
def Core.rename (f : Nat → Nat) (c : Core) : Core :=
  let own := fun (m : Map ClaspOwn) => m.map (fun e => (e.1, { e.2 with view := e.2.view.rename f }))
  { c with
    view := c.view.rename f
    regs := { c.regs with clasps := own c.regs.clasps }
    locket := c.locket.map (fun k => { k with regs := { k.regs with clasps := own k.regs.clasps } })
    txViews := c.txViews.map (fun e => (e.1, { e.2 with view := e.2.view.rename f }))
    txDone := c.txDone.map (fun e => (e.1, { e.2 with view := e.2.view.rename f }))
    queue := c.queue.map (fun e => { e with trans := e.trans.rename f })
    loads := c.loads.map (fun l => { l with trans := l.trans.rename f, begun := l.begun.map (fun b => (b.1, b.2.rename f)) })
    tlb := c.tlb.map (pageMoved f) }

/-- Bytes with their whole history move to other physical addresses, one for each (R350). -/
def State.rename (s : State) (f : Nat → Nat) : State :=
  { s with
    mem := s.mem.foldl (fun m e => Memory.write m (f e.1) e.2) []
    log := s.log.map (fun r => { r with old := r.old.map (fun e => (f e.1, e.2)) })
    cores := s.cores.map (fun e => (e.1, e.2.rename f))
    dies := s.dies.map (fun d => { d with
      jobs := d.jobs.map (fun j => { j with view := j.view.rename f })
      tlb := d.tlb.map (pageMoved f) })
    launches := s.launches.map (fun e => (e.1, { e.2 with
      clasps := e.2.clasps.map (fun k => (k.1, { k.2 with gather := k.2.gather.rename f })) }))
    vfs := s.vfs.map (fun v => { v with pages := v.pages.map (pageMoved f) }) }

/-- A free frame of stack k for a page, inside the stack. -/
def State.freeFrame (s : State) (k size : Nat) : Option Nat :=
  let on := s.allPages.filter (fun p => p.dev == 0 && p.pbase / 2 ^ 36 == k)
  (k * 2 ^ 36 :: on.map (fun p => (p.pbase + p.size + size - 1) / size * size)).find? (fun b =>
    decide (b + size ≤ (k + 1) * 2 ^ 36) && on.all (fun p => !rangesMeet (b, size) (p.pbase, p.size)))

/-- Bytes of stack k under the next body of die d. -/
def State.roomUnder (s : State) (d : Nat) (h : Hallmark) (k : Nat) : Nat := if k / 2 = d then h.stackBytes (k % 2) else s.stackBytes k

/-- The stacks of a virtual function's dies that have room for a page of another stack, with a frame (R350, R381). -/
def State.roomElsewhere (s : State) (d : Nat) (h : Hallmark) (v : Nat) (p : Page) : List (Nat × Nat) :=
  (((s.vf v).dies.flatMap (fun e => [2 * e, 2 * e + 1])).filter (fun k =>
    k != p.pbase / 2 ^ 36 && decide (s.stackUsed k + p.size ≤ s.roomUnder d h k))).filterMap (fun k =>
      (s.freeFrame k p.size).map (fun b => (k, b)))

/-- Two frames of a size exchange their addresses. -/
def swapFrames (a b size x : Nat) : Nat :=
  if a ≤ x ∧ x < a + size then x - a + b else if b ≤ x ∧ x < b + size then x - b + a else x

/-- One page of a failing channel's stack moves: to other channels of its stack while that has room (log 31), else to a stack that the
choice drawn names; then the shootdown of its range (R350). -/
def State.movePage (s : State) (d : Nat) (h : Hallmark) (v : Nat) (p : Page) : State :=
  let old := p.pbase / 2 ^ 36
  match s.roomElsewhere d h v p with
  | [] => s.shootdown v p.vbase p.size [p]
  | l =>
    if s.stackUsed old ≤ s.roomUnder d h old then s.shootdown v p.vbase p.size [p]
    else
      let (k, s) := s.draw
      let (new, base) := nth (old, p.pbase) l (k % l.length)
      let f := swapFrames p.pbase base p.size
      let s := s.rename f
      let s := s.shootdown v p.vbase p.size [{ p with pbase := base }]
      s.eventRecord v 3 (p.vbase + p.size * 2 ^ 64 + old * 2 ^ 128 + new * 2 ^ 136)

/-- Every memory page of a stack moves (R350). -/
def State.migrate (s : State) (d : Nat) (h : Hallmark) (stack : Nat) : State :=
  [0, 1, 2, 3].foldl (fun s v =>
    ((s.vf v).pages.filter (fun p => p.dev == 0 && p.pbase / 2 ^ 36 == stack)).foldl (fun s p => s.movePage d h v p) s) s

/-! ## The steps of a map change -/

/-- Units of die d that the next version takes in (R353, step 1). -/
def State.changing (s : State) (d : Nat) : List (UnitId × UnitRec) :=
  s.units.filter (fun e => e.1.die == d && (match e.2.state with
    | .raised | .failed => true
    | _ => false))

/-- CAUSE of a set of changes (R341). -/
def causeOf (l : List (UnitId × UnitRec)) : Nat :=
  let one := fun (e : UnitId × UnitRec) =>
    if e.2.state == .raised || e.1.source == 8 then 3 else if e.1.source = 11 then 4 else if e.1.source = 12 then 5 else 2
  match distinct (l.map one) with
  | [c] => c
  | _ => 6

/-- Body v + 1 of die d (R349, R353 step 1). -/
def State.nextBody (s : State) (d : Nat) : Hallmark :=
  let h := (s.die d).hallmark
  let us := s.changing d
  let h' := us.foldl (fun (h : Hallmark) e => if e.2.state == .raised then h.slower e.1 e.2.cls else h.without e.1) h
  s.signHallmark { h' with
    prevHash := Config.sha256 2752 h.body, time := BitVec.ofNat 64 s.ns, prevVer := h.version, version := h.version + 1
    cause := BitVec.ofNat 8 (causeOf us) }

/-- Every image with its virtual function and handle. -/
def State.allImages (s : State) : List (Nat × Nat × Image) :=
  [0, 1, 2, 3].flatMap (fun v => (s.vf v).images.map (fun e => (v, e.1, e.2)))

/-- Only LAT fields differ between two bodies (R354). -/
def latencyOnly (a b : Hallmark) : Bool :=
  (List.range 160).all (fun i => { a.coreRec i with lat := 0 } == { b.coreRec i with lat := 0 }) &&
    a.hbm == b.hbm && a.dlh == b.dlh && a.dlv == b.dlv && a.ual == b.ual && a.pcie == b.pcie && a.uet == b.uet

def State.setChange (s : State) (d : Nat) (f : MapChange → MapChange) : State := s.updDie d (fun y => { y with change := f y.change })

/-- Step 1: decide. -/
def State.decideBody (s : State) (d : Nat) : State :=
  if (s.changing d).isEmpty then s
  else s.setChange d (fun _ => { MapChange.none with
    step := 1, body := some (s.nextBody d), units := (s.changing d).map (fun e => e.1) })

/-- Step 2: classify. -/
def State.classify (s : State) (d : Nat) (h : Hallmark) : State :=
  let on := ((s.allImages.filter (fun e => s.affectedBy d h e.1 e.2.1 e.2.2))).map (fun e => (e.1, e.2.1))
  s.setChange d (fun c => { c with step := 2, affected := on, latOnly := latencyOnly (s.die d).hallmark h })

/-- Launches of the affected images that run outside a world's frame. -/
def State.toEvacuate (s : State) (c : MapChange) : List (Nat × Launch) :=
  s.launches.filter (fun e => e.2.live && !e.2.ofWorld && c.affected.contains (e.2.vf, e.2.image))

/-- The open occurrence of a slot of an affected image ends as an overrun with FINISH 0 would (R356): its launch is the one that the next
occurrence resumes, or is given up when it has not started. -/
def State.closeOccurrence (s : State) (c : MapChange) (l : Nat) (x : Launch) : State :=
  match x.origin with
  | .slot d n =>
    if c.affected.contains (x.vf, x.image) && s.occurs l x then
      if x.state == .ready then ({ s with launches := erase s.launches l }).updSlot d n (fun t => { t with opened := none, saved := none })
      else s.updSlot d n (fun t => { t with opened := none, saved := some l })
    else s
  | _ => s

/-- Step 3: evacuate (R353); the open occurrences of slots end (R356). -/
def State.evacuate (s : State) (d : Nat) (c : MapChange) : State :=
  let out := s.toEvacuate c
  let s := s.launches.foldl (fun (s : State) e => s.closeOccurrence c e.1 e.2) s
  let s := out.foldl (fun (s : State) e => s.askStop e.1 .evacuate) s
  s.setChange d (fun c => { c with step := 3, began := s.ns })

/-- Every launch of an affected image has been saved or has ended. -/
def State.evacuated (s : State) (c : MapChange) : Bool :=
  !s.launches.any (fun e => e.2.live && c.affected.contains (e.2.vf, e.2.image))

/-- Step 4: the commons keep their bytes at their offsets under the new hosts; a launch whose region no longer fits is aborted; the
pages of failing channels move (R350, R353). -/
def State.relocateCommons (s : State) (d : Nat) (h : Hallmark) : State :=
  let out := (((s.die d).regions.filter (fun r => decide (64 * h.npresent < r.base + r.count))).map (fun r => r.launch))
  let s := (distinct out).foldl (fun (s : State) l => s.abortLaunch l 0x10) s
  let s := ((s.changing d).filter (fun e => (s.die d).change.units.contains e.1 && e.1.source == 11 && e.2.state == .failed)).foldl
    (fun (s : State) e => s.migrate d h (e.1.unit / 32)) s
  s.setChange d (fun c => { c with step := 4 })

/-- A core reads the new version now when it issues nothing (R37, R353 step 5). -/
def Core.atStop (c : Core) : Bool :=
  match c.run with
  | .idle | .stopped | .halted => true
  | _ => false

/-- The body takes in a unit: its new state holds it. The events counted since the pass that raised it stay counted (R347). -/
def UnitRec.published (r : UnitRec) : UnitRec :=
  match r.state with
  | .raised => { UnitRec.zero with corr := r.corr, unc := r.unc }
  | .failed => { UnitRec.zero with state := .retired }
  | _ => r

/-- IMST of every image that stands under its own handle (R299). -/
def State.allImsts (s : State) : List (Nat × Nat × Nat) :=
  (s.allImages.filter (fun e => decide (e.2.1 < 65536))).map (fun e => (e.1, e.2.1, s.imst e.1 e.2.1))

/-- Step 5: the body is published under its TIME and becomes the die's hallmark, unless it is rejected (R341, R344); cores that issue nothing
read it, the units it takes in change their state, and the ports follow their lanes (R37, R347, R410). -/
def State.publish (s : State) (d : Nat) (h : Hallmark) : State :=
  let h := s.signHallmark { h with time := BitVec.ofNat 64 s.ns }
  if !s.hallmarkValid d h then s
  else
    let imsts := s.allImsts
    let us := (s.die d).change.units
    let s := s.updDie d (fun y => { y with hallmark := h })
    let s := (s.cores.filter (fun e => dieOf e.1 == d && e.2.atStop)).foldl (fun (s : State) e => s.readHallmark e.1) s
    let s := { s with units := s.units.map (fun (e : UnitId × UnitRec) => if us.contains e.1 then (e.1, e.2.published) else e) }
    s.relaneAll.setChange d (fun c => { c with step := 5, imsts, began := s.ns })

/-- An affected image loses its validity (R353, step 6); one without tile code loses its launches (R367), and a large one is recompiled on
the host (R353, step 7). -/
def State.invalidateImage (s : State) (d v k : Nat) (i : Image) (latOnly : Bool) (ver : BitVec 32) : State :=
  let s := s.updVf v (fun f => { f with images := put f.images k { i with valid := false, latOnly := latOnly && (i.valid || i.latOnly) } })
  let s := { s with cores := s.cores.map (fun e => (e.1,
    { e.2 with
      kept := e.2.kept.filter (fun x => !(x.1 == v && x.2 == k))
      istore := if (s.launchOf e.1).any (fun x => x.2.vf == v && x.2.image == k) then e.2.istore.invalidate (List.range i.nlines)
        else e.2.istore })) }
  if !i.chesol then (s.under v k).foldl (fun (s : State) x => s.abortLaunch x.1 0x10) s
  else if 8192 < i.nlines ∧ k < 65536 then s.eventRecord v 4 (k + d * 2 ^ 16 + ver.toNat * 2 ^ 32)
  else s

/-- Step 6 and the requests of step 7: affected images are invalidated, with their lines in every instruction store; the others are
re-stamped. `affected` then holds the images whose IMST has changed. -/
def State.invalidateImages (s : State) (d : Nat) (c : MapChange) (h old : BitVec 32) : State :=
  let s := s.allImages.foldl (fun (s : State) e =>
    let (v, k, i) := e
    if c.affected.contains (v, k) then s.invalidateImage d v k i c.latOnly h
    else if i.serial == (s.die d).hallmark.serial && (i.version == old || i.stamps.contains (d, old.toNat)) then
      s.updVf v (fun f => { f with images := put f.images k { i with stamps := i.stamps ++ [(d, h.toNat)] } })
    else s) s
  let lost := (c.imsts.filter (fun (e : Nat × Nat × Nat) => s.imst e.1 e.2.1 != e.2.2)).map (fun e => (e.1, e.2.1))
  s.setChange d (fun c => { c with step := 6, affected := lost })

/-- A report of KIND 0x04, to the scheduler and into the event ring of a virtual function (R299, R385, R417). -/
def State.mapReport (s : State) (v image imst : Nat) : State :=
  let r := s.residency 4 0 image imst 0 0
  (s.sendReport r).eventRecord v 2 (r.toNat % 2 ^ 448)

/-- Step 9: one report for each image whose IMST has changed, or one with IMAGE 0 (R299, R353). -/
def State.reportChange (s : State) (d : Nat) (c : MapChange) : State :=
  let s := if c.affected.isEmpty then
      match [0, 1, 2, 3].find? (fun v => (s.vf v).dies.contains d) with
      | some v => s.mapReport v 0 0
      | none => s.sendReport (s.residency 4 0 0 0 0 0)
    else c.affected.foldl (fun (s : State) a => s.mapReport a.1 a.2 (s.imst a.1 a.2)) s
  s.setChange d (fun _ => MapChange.none)

/-- No shootdown of the package is open. -/
def State.noShoot (s : State) : Bool := [0, 1, 2, 3].all (fun v => (s.vf v).shoot.isNone)

/-- Step 6 follows a publication at once, so that no packet of an unaffected image meets the new version with the old stamp (R355). -/
def State.restamp (s : State) (d : Nat) : State :=
  let c := (s.die d).change
  match c.step, c.body with
  | 5, some h => s.invalidateImages d c h.version h.prevVer
  | _, _ => s

/-- The stop of core n, or a cause that it holds, names a data error that took a unit of die d to FAILED. -/
def State.failureOn (s : State) (d n : Nat) : Bool :=
  let c := s.core n
  c.errs.any (fun e =>
    let u := s.unitOf e.1 e.2.source.toNat e.2.unit.toNat
    u.die == d && (s.unitRec u).state == .failed &&
      ((c.trapped.map (fun t => t.names e.2)).getD false || c.pend.any (fun p => p.record.names e.2)))

/-- A running launch still awaits the rollback or the abort that R378 puts before the map change of die d. -/
def State.failureOpen (s : State) (d : Nat) : Bool :=
  s.launches.any (fun e => e.2.live && !e.2.aborted && e.2.cores.any (fun m => (s.core m.1).launch == some e.1 && s.failureOn d m.1))

/-- MAP_CHANGE: the next step of R353 on a die, once what it waits for has come about; the scheduler's firmware serves it (R389, R413). A frame
of an affected world image ends before the publication, so that it runs on one version (R2). The service of a data error that took a unit to
FAILED comes before the map change that retires the unit (R378). -/
def execMapChange (die : Nat) (s : State) : Host.Outcome State Fault Refusal :=
  let c := (s.die die).change
  if !s.schedules then .next s
  else match c.step, c.body with
  | 0, _ => if s.failureOpen die then .next s else .next (s.decideBody die)
  | 1, some h => .next (s.classify die h)
  | 2, some _ => .next (s.evacuate die c)
  | 3, some h => if s.evacuated c then .next (s.relocateCommons die h) else .next s
  | 4, some h => if s.noShoot && s.evacuated c then .next ((s.publish die h).restamp die) else .next s
  | 6, _ => .next (s.reportChange die c)
  | _, _ => .next s

end Sys2Proof.Machine
end

