-- ==== Sys2Proof/Machine/Registers.lean ====
section
/-! DEFINITION. The debug path (R332 to R337) and the register page of a virtual function (R383, R386, R387, R390, R408, R415). -/

namespace Sys2Proof.Machine

/-! ## Debug stops -/

/-- STOPPED: the core has stopped and drained, for whatever reason (R47, R334). -/
def Core.stopped (c : Core) : Bool := c.run == .stopped || c.run == .halted

/-- WAITING: the core is stopped inside a wait (R334). -/
def Core.waiting (c : Core) : Bool := c.stopped && c.wait.isSome

/-- The core is stopped by a debug stop, which a write of 0 to STOPREQ ends; firmware serves every other stop (R308; DEDUCED, log 24). -/
def Core.debugStopped (c : Core) : Bool :=
  match c.run, c.stop with
  | .stopped, some (.debug _) => true
  | _, _ => false

/-- DEBUG_STOP_REQUEST: DBGCTL.STOPREQ is written as 1 (R334); a core with an active frame entry accepts no write (R400). The request stays
pending while another stop is served (R307). -/
def execDebugStopRequest (core : Nat) (s : State) : Host.Outcome State Fault Refusal :=
  let c := s.core core
  if c.framed || c.debugStopped then .next s
  else .next (s.setCore core { c with dbg := { c.dbg with req := c.dbg.req ||| 32 } })

/-- DEBUG_RESUME: STOPREQ is written as 0 while the core is stopped (R334 to R336): issue goes on, or the wait does; a breakpoint that has
matched does not match again, and SSTEP asks for one bundle. -/
def execDebugResume (core : Nat) (s : State) : Host.Outcome State Fault Refusal :=
  let c := s.core core
  if !c.debugStopped || c.framed then .next s
  else
    let pass := if c.dbg.bhit ≠ 0 ∧ c.trappc = c.regs.pc.zeroExtend 64 then some c.regs.pc else none
    let s := s.returnTo core c.regs.pc.toNat
    .next (s.updCore core (fun c => { c with dbg := { c.dbg with pass, stepping := c.dbg.sstep } }))

/-! ## Debug writes -/

/-- A loop-stack entry from its 128 bits (R16). -/
def entryOf (v : Nat) : LoopEntry :=
  ⟨BitVec.ofNat 32 (bits v 127 96), BitVec.ofNat 32 (bits v 95 64), BitVec.ofNat 24 (bits v 55 32), BitVec.ofNat 24 (bits v 23 0)⟩

/-- The loop stack at another depth: kept levels keep their entries, others hold what R18 leaves open. -/
def Core.setDepth (c : Core) (n d now : Nat) : Core :=
  let outer := c.regs.loops.reverse
  let levels := (List.range d).map (fun i => (outer[i]?).getD (entryOf (Config.looseEntry n i now).toNat))
  { c with regs := { c.regs with loops := levels.reverse } }

/-- One entry of the stack, level i from the outermost. -/
def Core.setLevel (c : Core) (i v : Nat) : Core :=
  let outer := c.regs.loops.reverse
  { c with regs := { c.regs with loops := (outer.set i (entryOf v)).reverse } }

/-- A control and status register written over the debug path (R337): HMVER, LATCLS, COREXY and CYCLE are only read. -/
def Core.setCsr (c : Core) (idx : Nat) (v : Word) : Core :=
  match idx with
  | 0 => { c with imode := bit v.toNat 0 }
  | 1 => { c with regs := { c.regs with stat := coreStatOfByte (v.toNat % 32) } }
  | 2 => { c with bound := v.truncate 32 }
  | 3 => { c with parkmap := v.truncate 16 }
  | 4 => { c with trappc := v &&& 0xFFFFFF }
  | 5 => { c with trapinfo := v &&& 0xFFFFFFFF0000FFFF }
  | 6 => { c with trapaddr := v }
  | _ => c

/-- A clasp written in the layout of R126: the core's own part and the launch's. -/
def State.setClaspWord (s : State) (n k v : Nat) : State :=
  let s := s.updCore n (fun c => c.setClasp k { ownOf (BitVec.ofNat 64 v) with view := (c.clasp k).view })
  match s.launchOf n with
  | some (l, x) => s.setLaunch l { x with clasps := put x.clasps k { x.clasp k with
      init := bit v 39, phase := bit v 38, arrived := bits v 31 16, count := bits v 15 0 } }
  | none => s

/-- A typed buffer by its number in R317. -/
def bufOfNum (b : Nat) : Buf :=
  match b with
  | 0 => .a
  | 1 => .c
  | _ => .w

/-- The user of a reservation entry as a number, and back (R252). -/
def User.num : User → Nat
  | .issue => 1
  | .matrix => 2
  | .copy q => 3 + q
  | .bank k => 19 + k

def userOf (v : Nat) : User := if v ≤ 1 then .issue else if v = 2 then .matrix else if v < 19 then .copy (v - 3) else .bank (v - 19)

/-- The jobs of core n on a channel or queue, in the order in which they began. -/
def State.jobsOn (s : State) (n q : Nat) : List Job := (s.die (dieOf n)).jobs.filter (fun j => j.core == n && j.queue == q)

/-- A job of a channel as the debug path reads it. -/
def Job.word (j : Job) : Nat :=
  let st := match j.state with
    | .waiting => 0
    | .running => 1
    | .stopped => 2
    | .complete => 3
  j.template + j.param.toNat * 2 ^ 8 + 2 ^ 72 + st * 2 ^ 73 + j.done * 2 ^ 75

/-- The k-th job of a channel takes another template and parameter, and with them its sectors from the first; without bit 72 it goes, and
with it a job joins a queue that ends at k, as an aperture store would start it. -/
def State.setJob (s : State) (n q k v : Nat) : State :=
  let held := bit v 72
  let par := BitVec.ofNat 64 (v / 256)
  match (s.jobsOn n q)[k]? with
  | none =>
    if held ∧ k = (s.jobsOn n q).length ∧ q < 24 then
      let c := s.core n
      s.enqueueJob n ⟨q, v % 256, par, c.regs.pc.toNat, c.schedule, c.pos⟩
    else s
  | some j =>
    if held then
      let j' := { j with template := v % 256, tpl := getD 0 (s.core n).templates (v % 256), param := par, done := 0, src := [], lines := [] }
      s.updJob (dieOf n) j.id (fun _ => { j' with todo := j'.sectors })
    else s.updDie (dieOf n) (fun d => { d with jobs := d.jobs.filter (fun x => x.id != j.id) })

/-- One byte of an entry of the colour queues; mask 0 takes it out. -/
def Entry.setByte (e : Entry) (a v : Nat) : Entry :=
  let rest := e.bytes.filter (fun b => b.1 != a)
  if v / 256 % 256 = 0 then { e with bytes := rest }
  else { e with bytes := rest ++ [(a, BitVec.ofNat 8 v, BitVec.ofNat 8 (v / 256))] }

/-- The entries of the colour queues at a written count: later ones go, and new ones of colour 0 hold no byte. -/
def State.setQueueCount (s : State) (n k : Nat) : State :=
  let c := s.core n
  let old := c.queue.length
  s.setCore n { c with
    nextId := c.nextId + (k - old)
    queue := c.queue.take k ++ (List.range (k - old)).map (fun i => ⟨c.nextId + i, 0, c.regs.pc.toNat, [], ⟨s.now, [], [], []⟩⟩) }

/-- The i-th entry of the colour queues changes and is translated again, unless its queue would then exceed 512 sectors (R213). -/
def State.setEntry (s : State) (n i : Nat) (f : Entry → Entry) : State :=
  match (s.core n).queue[i]? with
  | none => s
  | some e =>
    let e := f e
    let (tr, t) := s.beginTrans n (s.vfOf n) .store (distinct (e.bytes.map (fun b => b.1)))
    let t := t.updCore n (fun c => { c with queue := c.queue.set i { e with trans := tr } })
    if (t.core n).queueSectors e.col ≤ 512 then t else s

/-- The reservation entry of a bank (R252); 0 frees it. -/
def Core.setReservation (c : Core) (now b bank v : Nat) : Core :=
  let rest := c.rsv.filter (fun r => !(r.buf == bufOfNum b && r.bank == bank))
  { c with rsv := if v = 0 then rest else rest ++ [⟨bufOfNum b, bank, userOf v, now⟩] }

/-- The captured bodies of the loop buffer, one in each 64 bits, the newest lowest: at most six, one for each entry of the loop stack
(R118). -/
def captureFrom (v : Nat) : List (Nat × Nat) :=
  ((List.range 6).map (fun k => v / 2 ^ (64 * k))).filterMap (fun x =>
    if bit x 48 && decide (bits x 47 24 < bits x 23 0 + 64) then some (bits x 23 0, bits x 47 24) else none)

/-- The captured bodies as a word of the debug path. -/
def captureWord (l : List (Nat × Nat)) : Nat := l.foldr (fun b v => b.1 + b.2 * 2 ^ 24 + 2 ^ 48 + v * 2 ^ 64) 0

/-- One location written over the debug path (R337); the instruction store is only read. A steer target and a scalar
count as written in the resume cycle (R113, R116). -/
def State.debugWrite (s : State) (n : Nat) (loc : DbgLoc) (v : Nat) : State :=
  match loc with
  | .pc => s.updCore n (fun c => { c with regs := { c.regs with pc := BitVec.ofNat 24 v } })
  | .depth => if v ≤ 6 then s.updCore n (fun c => c.setDepth n v s.now) else s
  | .loopEntry i => s.updCore n (fun c => c.setLevel i v)
  | .slice cl k => if k < 3072 then s.updCore n (fun c => c.putSlice (cl == 1) k (BitVec.ofNat 1024 v) allLanesOn) else s
  | .scalar r => s.updCore n (fun c => { c with
      regs := c.regs.setS (r % 64) (BitVec.ofNat 64 v), sLand := vset c.sLand (r % 64) none })
  | .steerCond j => s.updCore n (fun c => { c with regs := { c.regs with jc := vset c.regs.jc j (bit v 0) } })
  | .steerTarget j => s.updCore n (fun c => { c with
      regs := { c.regs with jt := vset c.regs.jt j (BitVec.ofNat 24 v) }, jReady := vset c.jReady j none })
  | .mask k cl => s.updCore n (fun c => { c with regs := c.regs.setMask (cl == 1) k (BitVec.ofNat 256 v) allLanesOn })
  | .csr i => s.updCore n (fun c => c.setCsr i (BitVec.ofNat 64 v))
  | .scale => s.updCore n (fun c => { c with
      regs := { c.regs with scaleA := BitVec.ofNat 2048 v, scaleB := BitVec.ofNat 2048 (v / 2 ^ 2048) } })
  | .buffer b off =>
    let b := bufOfNum b
    if off < b.size then s.updCore n (fun c => c.setBuf b (Memory.writeN (c.buf b) off 1 v)) else s
  | .commons off =>
    if off < 2 ^ 18 * (s.die (dieOf n)).hallmark.npresent then
      s.updDie (dieOf n) (fun d => { d with commons := Memory.writeN d.commons off 1 v })
    else s
  | .clasp k => if k < 128 then s.setClaspWord n k v else s
  | .template t => if t < 256 then s.updCore n (fun c => { c with templates := put c.templates t (BitVec.ofNat 1024 v) }) else s
  | .line _ => s
  | .queueCount => s.setQueueCount n v
  | .queueColour i => s.setEntry n i (fun e => { e with col := v % 8 })
  | .queueByte i a => s.setEntry n i (fun e => e.setByte a v)
  | .channelJob q k => s.setJob n q k v
  | .reservation b bank => s.updCore n (fun c => c.setReservation s.now b bank v)
  | .loopBuffer => s.updCore n (fun c => { c with istore := { c.istore with captured := captureFrom v } })

/-- DEBUG_STATE_WRITE: while STOPPED = 1 and WAITING = 0 (R337), on a core without an active frame entry (R400). -/
def execDebugStateWrite (core : Nat) (loc : DbgLoc) (v : Nat) (s : State) : Host.Outcome State Fault Refusal :=
  let c := s.core core
  if c.stopped && !c.waiting && !c.framed then .next (s.debugWrite core loc v) else .next s

/-! ## Debug reads -/

/-- A loop-stack entry as its 128 bits (R16). -/
def LoopEntry.word (e : LoopEntry) : Nat := e.first.toNat + e.last.toNat * 2 ^ 32 + e.iter.toNat * 2 ^ 64 + e.trip.toNat * 2 ^ 96

/-- A line of the instruction store with its pool bit; an absent line reads as 0 (R79, R300). -/
def State.lineWord (s : State) (n p : Nat) : Nat :=
  let pool := match s.imageOf n with
    | some i => i.pools.any (fun e => decide (e.1 ≤ p) && decide (p < e.1 + e.2))
    | none => false
  match s.lineAt n p with
  | .line l => l.toNat + b2n pool * 2 ^ 512
  | _ => 0

/-- What a location holds (R337). -/
def State.locValue (s : State) (n : Nat) (loc : DbgLoc) : Nat :=
  let c := s.core n
  match loc with
  | .pc => c.regs.pc.toNat
  | .depth => c.regs.loops.length
  | .loopEntry i => (c.regs.loops.reverse[i]?.map LoopEntry.word).getD 0
  | .slice cl k => (c.slice (cl == 1) k).toNat
  | .scalar r => (c.sreg r).toNat
  | .steerCond j => b2n (c.cond j)
  | .steerTarget j => (c.target j).toNat
  | .mask k cl => (c.mask (cl == 1) k).toNat
  | .csr i => ((s.csrRead n i).getD 0).toNat
  | .scale => c.regs.scaleA.toNat + c.regs.scaleB.toNat * 2 ^ 2048
  | .buffer b off => c.bufRead (bufOfNum b) off 1
  | .commons off => (s.die (dieOf n)).commons.readN off 1
  | .clasp k => (claspWord ((s.launchOf n).elim Clasp.zero (fun x => x.2.clasp k)) (c.clasp k)).toNat
  | .template t => (getD 0 c.templates t).toNat
  | .line p => s.lineWord n p
  | .queueCount => c.queue.length
  | .queueColour i => ((c.queue[i]?).map (fun e => e.col)).getD 0
  | .queueByte i a => match (c.queue[i]?).bind (fun e => e.bytes.find? (fun b => b.1 == a)) with
    | some b => b.2.1.toNat + b.2.2.toNat * 256
    | none => 0
  | .channelJob q k => (((s.jobsOn n q)[k]?).map Job.word).getD 0
  | .reservation b bank => match c.rsv.find? (fun r => r.buf == bufOfNum b && r.bank == bank) with
    | some r => r.user.num
    | none => 0
  | .loopBuffer => captureWord c.istore.captured

/-- A debug read of a core: while it is stopped, inside a wait too (R337); a core with an active frame entry is not readable (R400). -/
def State.debugRead (s : State) (n : Nat) (loc : DbgLoc) : Option Nat :=
  if (s.core n).stopped && !(s.core n).framed then some (s.locValue n loc) else none

/-- DEVC1 to DEVC7 are readable at any time (R337, R338), but on a core with an active frame entry (R400). -/
def State.debugCounter (s : State) (n k : Nat) : Option Nat :=
  if (s.core n).framed then none else some (vget (s.core n).regs.devc (k - 1) 0)

/-- The hallmark of a die as firmware reads it over the debug path (R339, R340). -/
def State.hallmarkRead (s : State) (d : Nat) : Nat := (s.die d).hallmark.bytes

/-- The unsolicited residency report that firmware reads over the debug path (R299, R339); its KIND is that of R299's only report with
SEQ 0. -/
def State.reportRead (s : State) : Line := s.residency 4 0 0 0 0 0

/-- DBGCTL as the debug path reads it (R334). STOPREQ reads the request that is pending (DESIGN CHOICE, log 50). -/
def Core.dbgctl (c : Core) : Word :=
  BitVec.ofNat 64 (b2n (c.dbg.req / 32 % 2 == 1) + b2n c.stopped * 2 + b2n c.dbg.sstep * 4 + b2n c.waiting * 8 +
    c.dbg.ben.toNat * 2 ^ 4 + c.dbg.bhit.toNat * 2 ^ 8)

/-! ## Vectors -/

/-- VECCTL_WRITE: the plug-in writes a vector control; the message test applies at once (R387). -/
def execVecctlWrite (vf v : Nat) (x : Word) (s : State) : Host.Outcome State Fault Refusal :=
  let n := x.toNat
  let s := s.updVf vf (fun f => { f with vecs := vset f.vecs v { vget f.vecs v Vec.zero with
    time := BitVec.ofNat 32 (n / 2 ^ 32), mask := bit n 16, count := BitVec.ofNat 16 n } })
  .next (s.testMsi vf v)

/-- VECTOR_AGE_EXPIRY: the oldest pending event of an unmasked vector has become TIME ns old (R387). -/
def execVectorAgeExpiry (vf v : Nat) (s : State) : Host.Outcome State Fault Refusal := .next (s.testMsi vf v)

/-! ## The register page -/

/-- Die, queue and register number of an offset among the queue registers (R383). -/
def queueReg (off : Nat) : Option (Nat × Nat × Nat) :=
  if off < 0x4000 ∧ off % 0x1000 < 0x400 ∧ off % 8 = 0 then some (off / 0x1000, off % 0x1000 / 0x20, off % 0x20 / 8) else none

/-- A host write to a queue register (R383, R384). -/
def State.hostQueueWrite (s : State) (v d q reg : Nat) (x : Word) : Host.Outcome State Fault Refusal :=
  let n := x.toNat
  let y := s.queue d q
  if !s.ownsQueue v d q then .next s
  else match reg with
    | 0 => if y.en then .next s else .next (s.setQueue d q { y with base := BitVec.ofNat 64 (n / 64 * 64) })
    | 1 =>
      let k := bits n 11 8
      let s := if !y.en && decide (4 ≤ k) && decide (k ≤ 12) then s.setQueue d q { y with log2n := BitVec.ofNat 4 k } else s
      if bit n 0 then execQueueEnable v d q s else execQueueDisable v d q s
    | 2 => execDoorbell v d q (BitVec.ofNat 32 n) s
    | _ => if bits n 1 0 = 1 then execQueueErrorClear v d q (BitVec.ofNat 32 (n / 2 ^ 32)) s else .next s

/-- A host write to a ring's register: base, control, consumer (R386). -/
def Ring.hostWrite (r : Ring) (reg : Nat) (x : Word) : Ring :=
  let n := x.toNat
  match reg with
  | 0 => if r.en then r else { r with base := BitVec.ofNat 64 (n / 64 * 64) }
  | 1 =>
    let k := bits n 12 8
    { r with log2n := if 6 ≤ k ∧ k ≤ 16 then BitVec.ofNat 5 k else r.log2n, en := bit n 0 }
  | 3 => { r with cons := BitVec.ofNat 32 n }
  | _ => r

/-- A host write to its register page (R383, R386). -/
def State.hostWrite (s : State) (v off : Nat) (x : Word) : Host.Outcome State Fault Refusal :=
  match queueReg off with
  | some (d, q, reg) => s.hostQueueWrite v d q reg x
  | none =>
    if 0x4100 ≤ off ∧ off ≤ 0x4120 ∧ off % 8 = 0 then
      .next (s.updVf v (fun f => { f with fault := f.fault.hostWrite ((off - 0x4100) / 8) x }))
    else if 0x4140 ≤ off ∧ off ≤ 0x4160 ∧ off % 8 = 0 then
      .next (s.updVf v (fun f => { f with event := f.event.hostWrite ((off - 0x4140) / 8) x }))
    else .next s

/-- The stop about which a virtual function's plug-in is being asked: of those with a choice, the one that stopped first, and of equals the
lowest core (R390; DESIGN CHOICE, log 49: the calls of one plug-in set follow one another). -/
def State.callOf (s : State) (v : Nat) : Option Nat :=
  ((s.coresOf v).filter s.asks).foldl (fun m n => match m with
    | none => some n
    | some k => if (s.core n).stopAt < (s.core k).stopAt then some n else some k) none

/-- An access that a plug-in is refused ends its call, and the default answer applies to that stop (R389, R390). -/
def State.endCall (s : State) (v : Nat) : State :=
  match s.callOf v with
  | some n => match s.defaultService n with
    | .next s' => s'
    | _ => s
  | none => s

/-- The plug-in's fields: QCTL.VEC, FRCTL.VEC, ERCTL.VEC, the vector controls and the notify controls (R390). -/
def State.pluginWrite (s : State) (v off : Nat) (x : Word) : Host.Outcome State Fault Refusal :=
  let n := x.toNat
  match queueReg off with
  | some (d, q, 1) =>
    if s.ownsQueue v d q then .next (s.updQueue d q (fun y => { y with vec := BitVec.ofNat 4 (n / 2 ^ 12) })) else .next (s.endCall v)
  | some _ => .next (s.endCall v)
  | none =>
    if off = 0x4108 then .next (s.updVf v (fun f => { f with fault := { f.fault with vec := BitVec.ofNat 4 (n / 2 ^ 4) } }))
    else if off = 0x4148 then .next (s.updVf v (fun f => { f with event := { f.event with vec := BitVec.ofNat 4 (n / 2 ^ 4) } }))
    else if 0x4200 ≤ off ∧ off < 0x4280 ∧ off % 8 = 0 then execVecctlWrite v ((off - 0x4200) / 8) x s
    else if 0x4300 ≤ off ∧ off < 0x4380 ∧ off % 8 = 0 then
      .next (s.updVf v (fun f => { f with notctl := vset f.notctl ((off - 0x4300) / 8) (x &&& 0xFFFFFFFFFFFFFFCF) }))
    else .next (s.endCall v)

/-- Programs the trace ring of a die: TRCCTL; TRCSIZE empties the ring and its counts (R332, log 32). -/
def Trace.setCtl (t : Trace) (n : Nat) : Trace :=
  { t with tmask := BitVec.ofNat 32 (bits n 63 33 * 2), wrap := bit n 1, en := bit n 0 }

def Trace.setSize (t : Trace) (n : Nat) : Trace :=
  let k := bits n 4 0
  if 16 ≤ k ∧ k ≤ 28 then { t with log2 := BitVec.ofNat 5 k, wp := 0, drop := 0, ring := [] } else t

/-- DBGCTL: BEN and SSTEP, and what STOPREQ asks for (R334). A 0 written to STOPREQ of a running core withdraws no request (DESIGN CHOICE,
log 50). -/
def State.writeDbgctl (s : State) (n : Nat) (x : Word) : Host.Outcome State Fault Refusal :=
  if (s.core n).framed then .next s
  else
    let s := s.updCore n (fun c => { c with dbg := { c.dbg with ben := BitVec.ofNat 4 (x.toNat / 2 ^ 4), sstep := bit x.toNat 2 } })
    if bit x.toNat 0 then execDebugStopRequest n s else execDebugResume n s

/-- A write of the host over its host link (R409, R410, R416). -/
def State.overLink (s : State) (v off : Nat) (x : Word) : Host.Outcome State Fault Refusal :=
  s.viaHost v (.registerWrite (.host v off) x) (s.hostWrite v off x)

/-- REGISTER_WRITE: the written fields of a register (R332 to R334, R383, R386, R390). -/
def execRegisterWrite (target : RegTarget) (v : Word) (s : State) : Host.Outcome State Fault Refusal :=
  match target with
  | .host vf off => s.overLink vf off v
  | .plugin vf off => s.pluginWrite vf off v
  | .trcctl d => .next (s.updDie d (fun y => { y with trace := y.trace.setCtl v.toNat }))
  | .trcsize d => .next (s.updDie d (fun y => { y with trace := y.trace.setSize v.toNat }))
  | .trg d n => .next (s.updDie d (fun y => { y with trace := { y.trace with trg := vset y.trace.trg n (v &&& 0xF0FFFFFFFFFFFF00) } }))
  | .trgr d n => .next (s.updDie d (fun y => { y with trace := { y.trace with trgr := vset y.trace.trgr n v } }))
  | .dbgctl n => s.writeDbgctl n v
  | .dbgbrk n k =>
    if (s.core n).framed then .next s
    else .next (s.updCore n (fun c => { c with dbg := { c.dbg with brk := vset c.dbg.brk k (v.truncate 24) } }))

/-! ## Reads -/

/-- STATE of a queue as it reads: PAUSED while its controller is being replaced (R383, R391). -/
def State.qstate (s : State) (d : Nat) (x : Queue) : Nat :=
  if (getD Firmware.first s.firmware d).state ≠ .committed then 3
  else match x.state with
    | .idle => 0
    | .run => 1
    | .error => 2

/-- A queue register (R383). -/
def State.readQueue (s : State) (d q reg : Nat) : Nat :=
  let x := s.queue d q
  match reg with
  | 0 => x.base.toNat
  | 1 => b2n x.en + x.prio * 2 ^ 4 + x.log2n.toNat * 2 ^ 8 + x.vec.toNat * 2 ^ 12
  | 2 => x.prod.toNat
  | _ => s.qstate d x + x.err.toNat * 2 ^ 8 + x.cons.toNat * 2 ^ 32

/-- A ring's register (R386). -/
def Ring.read (r : Ring) (reg : Nat) : Nat :=
  match reg with
  | 0 => r.base.toNat
  | 1 => b2n r.en + r.vec.toNat * 2 ^ 4 + r.log2n.toNat * 2 ^ 8
  | 2 => r.prod.toNat
  | 3 => r.cons.toNat
  | _ => r.drop

/-- PKGSTAT (R415). -/
def PkgStat.word (p : PkgStat) : Nat := p.therm.toNat + p.tjmax.toNat * 2 ^ 32 + p.tin.toNat * 2 ^ 40 + p.power.toNat * 2 ^ 48

/-- VECCTL (R387). -/
def Vec.word (x : Vec) : Nat := x.count.toNat + b2n x.mask * 2 ^ 16 + x.time.toNat * 2 ^ 32

/-- What the host reads at an offset of the register page of a virtual function (R383, R386, R408, R415). -/
def State.hostRead (s : State) (v off : Nat) : Nat :=
  let f := s.vf v
  match queueReg off with
  | some (d, q, reg) => if s.ownsQueue v d q then s.readQueue d q reg else 0
  | none =>
    if off % 8 ≠ 0 then 0
    else if 0x4000 ≤ off ∧ off < 0x40C0 then s.portstat ((off - 0x4000) / 8)
    else if off = 0x40C0 then s.pkg.word
    else if 0x4100 ≤ off ∧ off ≤ 0x4120 then f.fault.read ((off - 0x4100) / 8)
    else if 0x4140 ≤ off ∧ off ≤ 0x4160 then f.event.read ((off - 0x4140) / 8)
    else if 0x4200 ≤ off ∧ off < 0x4280 then (vget f.vecs ((off - 0x4200) / 8) Vec.zero).word
    else if 0x4280 ≤ off ∧ off < 0x4300 then (vget f.vecs ((off - 0x4280) / 8) Vec.zero).pend % 2 ^ 32
    else if 0x4300 ≤ off ∧ off < 0x4380 then (vget f.notctl ((off - 0x4300) / 8) 0).toNat
    else 0

end Sys2Proof.Machine
end

