-- ==== Sys2Proof/Machine/Firmware.lean ====
section
/-! DEFINITION. The firmware of the management complex: boot (R51, R396, R397), replacement (R391, R392), the partition table and the page
allocator (R381, R382), evidence (R398, R399), and the package's thermal state (R415, R416). -/

namespace Sys2Proof.Machine

/-! ## Boot -/

/-- A layer's image verifies (R396). -/
def layerOk (n : Nat) (x : FwImage) : Bool := x.edOk && x.mldsaOk && decide (Config.minVersion n ≤ x.version)

/-- Every layer that is given verifies; layers 1 and 2 are there, layer 3 is the plug-in set of each virtual function. -/
def layersOk (l : List FwImage) : Bool :=
  decide (2 ≤ l.length) && ((List.range l.length).zip l).all (fun e => layerOk (min 3 (e.1 + 1)) e.2)

/-- A secret for the next layer (R396). -/
def nextSecret (secret m : BitVec 256) : BitVec 256 := Config.hkdf secret 32 m.toNat

/-- A controller that runs an image from boot. -/
def Firmware.booted (x : FwImage) : Firmware := ⟨.committed, x.version, x.digest, none, 0, [], none⟩

/-- The certificate of a key pair in each scheme with a measurement, signed by the layer that holds `signer` (R397). It is signed over the two
public keys and the measurement in that order (log 48). -/
def certify (layer : Nat) (signer ed ml measure : BitVec 256) : Cert :=
  let pe := Config.edPublic ed
  let pm := Config.mldsaPublic ml
  let msg := pe.toNat + pm.toNat * 2 ^ 256 + measure.toNat * 2 ^ (256 + 15616)
  ⟨layer, measure, pe, pm, Config.edSign (keySeed signer "TQ4 id Ed") 2016 msg, Config.mldsaSign (keySeed signer "TQ4 id MLDSA") 2016 msg⟩

/-- The certificate of a layer's keys, which its secret gives (R397). -/
def layerCert (layer : Nat) (signer secret measure : BitVec 256) : Cert :=
  certify layer signer (keySeed secret "TQ4 id Ed") (keySeed secret "TQ4 id MLDSA") measure

/-- The secrets and certificates of layer 2 and of the plug-in sets above it, from CDI1, M2 and M3 (R396, R397). -/
def Boot.derive (b : Boot) : Boot :=
  let c2 := nextSecret b.cdi1 b.m2
  let c3 := b.m3.map (fun e => (e.1, nextSecret c2 e.2))
  { b with
    cdi2 := c2, cdi3 := c3
    certs := b.certs.filter (fun c => decide (c.layer = 1) || decide (16 ≤ c.layer)) ++ [layerCert 2 b.cdi1 c2 b.m2] ++
      b.m3.map (fun e => layerCert (3 + e.1) c2 (nextSecret c2 e.2) e.2) }

/-- The measurements, secrets and certificates of a boot; `serials` are those of the dies, whose hallmark keys layer 1 certifies (R396,
R397). -/
def bootOf (l : List FwImage) (second : Bool) (serials : List (BitVec 64)) : Boot :=
  match l with
  | x1 :: x2 :: rest =>
    let c1 := nextSecret Config.uds x1.digest
    let hall := ((List.range serials.length).zip serials).map (fun e =>
      certify (16 + e.1) c1 (hallmarkKey c1 e.2) (hallmarkKey c1 e.2) 0)
    Boot.derive ⟨false, second, x1.digest, x2.digest, (List.range rest.length).zip (rest.map (fun x => x.digest)), c1, 0, [],
      layerCert 1 Config.uds c1 x1.digest :: hall⟩
  | _ => ⟨true, second, 0, 0, [], 0, 0, [], []⟩

/-- The controllers of a boot: 0 to 4 run layer 2, 8 + v the plug-in set of virtual function v. -/
def bootFirmware (l : List FwImage) : Map Firmware :=
  match l with
  | _ :: x2 :: rest => (List.range 5).map (fun k => (k, Firmware.booted x2)) ++
      ((List.range rest.length).zip rest).map (fun e => (8 + e.1, Firmware.booted e.2))
  | _ => []

/-- A package in reset: its cores, queues, launches, virtual functions and memories are as at power-on; hallmarks, unit counts, seal
counters, streams, the time base and what has left the package stay (R396, R401, R407, R416; log 33). -/
def State.inReset (s : State) : State :=
  { State.reset with
    now := s.now, time := s.time, inputs := s.inputs, delays := s.delays, drawn := s.drawn, nextId := s.nextId
    dies := State.reset.dies.zipWith (fun a b => { a with hallmark := b.hallmark }) s.dies
    host := s.host, units := s.units.map (fun e => (e.1, { e.2 with claimed := false, evac := [] }))
    streams := s.streams, worlds := s.worlds, seals := s.seals, pkg := s.pkg, out := s.out }

/-- THERM from the temperatures (R415, R416). -/
def thermOf (tin tjmax : Nat) : Nat := if 110 ≤ tjmax then 2 else if 95 ≤ tjmax ∨ 40 < tin then 1 else 0

/-- THERM of the temperatures last published. -/
def PkgStat.now (p : PkgStat) : Nat := thermOf p.tin.toNat p.tjmax.toNat

/-- Hallmarks of version 1 bear the signatures of the boot's hallmark keys (R344; log 5). -/
def State.signFirst (s : State) : State :=
  [0, 1, 2, 3].foldl (fun (s : State) d =>
    if (s.die d).hallmark.version = 1 then s.updDie d (fun y => { y with hallmark := s.signHallmark y.hallmark }) else s) s

/-- BOOT: the layers are measured and verified in order; a layer that fails leaves the package in recovery (R396). A booted package
boots only from reset, and one above the trip temperature stays in it (R416). -/
def execBoot (layers : List FwImage) (secondRoot : Bool) (s : State) : Host.Outcome State Fault Refusal :=
  if s.boot.recovery = false then .next s
  else if layersOk layers && s.pkg.now != 2 then
    .next (State.trainAll (State.signFirst { s.inReset with
      boot := bootOf layers secondRoot ([0, 1, 2, 3].map (fun d => (s.die d).hallmark.serial)), firmware := bootFirmware layers
      pkg := { s.pkg with therm := BitVec.ofNat 2 s.pkg.now } }))
  else .next s.inReset

/-! ## Thermal state -/

/-- PKGSTAT_UPDATE: the monitor publishes power and temperatures within their ranges; at TRIP every die is held in reset and every port is
DOWN, until a full boot (R415, R416). -/
def execPkgstatUpdate (power tin tjmax : Nat) (s : State) : Host.Outcome State Fault Refusal :=
  let tin := min tin 100
  let tjmax := min tjmax 150
  let th := if s.pkg.therm = 2 then 2 else thermOf tin tjmax
  let pkg : PkgStat := ⟨BitVec.ofNat 16 (min power 4000), BitVec.ofNat 8 tin, BitVec.ofNat 8 tjmax, BitVec.ofNat 2 th⟩
  if th = 2 ∧ s.pkg.therm ≠ 2 then .next { s.inReset with pkg } else .next { s with pkg }

/-! ## Replacing firmware -/

def State.fw (s : State) (k : Nat) : Firmware := getD Firmware.first s.firmware k

def State.setFw (s : State) (k : Nat) (f : Firmware) : State := { s with firmware := put s.firmware k f }

/-- Controllers: 0 to 3 the command processors, 4 the scheduler, 8 to 11 the plug-in sets (R417). -/
def isCtrl (k : Nat) : Bool := decide (k < 5) || (decide (8 ≤ k) && decide (k < 12))

/-- The virtual functions whose event rings hear of a controller. -/
def State.hears (s : State) (k : Nat) : List Nat :=
  if k < 4 then [0, 1, 2, 3].filter (fun v => (s.vf v).dies.contains k)
  else if k = 4 then [0, 1, 2, 3].filter (fun v => (s.vf v).exists_)
  else [k - 8]

/-- WDT in ms: 10 to 500, 50 when the image names none (R391). -/
def wdtOf (x : FwImage) : Nat := if 10 ≤ x.wdt ∧ x.wdt ≤ 500 then x.wdt else 50

/-- FIRMWARE_STAGED: STAGED and VERIFY; a verified image of a higher version quiesces the old one, any other is refused. A rolled-back
version is refused until a later one is staged (R391). -/
def execFirmwareStaged (ctrl : Nat) (img : FwImage) (s : State) : Host.Outcome State Fault Refusal :=
  let f := s.fw ctrl
  if !isCtrl ctrl || s.boot.recovery || f.state != .committed then .next s
  else
    let f := { f with refused := f.refused.filter (fun v => decide (img.version ≤ v)) }
    let ok := img.edOk && img.mldsaOk && decide (f.version < img.version) && !f.refused.contains img.version
    .next ((s.setFw ctrl (if ok then { f with state := .quiesce, staged := some img } else f)).answer ok)

/-- The head of a section: TYPE in bits 7 to 0, LENGTH in bits 63 to 32 (R392). -/
def sectionHead (type len : Nat) : BitVec 128 := BitVec.ofNat 128 (type % 2 ^ 8 + len % 2 ^ 32 * 2 ^ 32)

/-- The items of each section of a hand-over record. -/
def State.sectionItems (s : State) : List Nat :=
  [s.queues.length, s.launches.length, s.graphs.length + s.runs.length, 4, s.units.length, 4, s.streams.length, 4]

/-- The hand-over record: its eight sections (R392); the rule does not lay the items of a section out, so its LENGTH is free. -/
def State.handoverOf (s : State) : Handover where
  heads := ((List.range 8).zip s.sectionItems).map (fun e => sectionHead (e.1 + 1) (Config.sectionBytes (e.1 + 1) e.2))
  areas := (s.launches.filter (fun e => e.2.live || e.2.state == .saved)).map (fun e => (e.1, Config.saveArea e.1))
  queues := s.queues
  launches := s.launches
  graphs := s.graphs
  runs := s.runs
  tables := s.dies.toList.map (fun d => d.table)
  units := s.units
  steps := s.dies.toList.map (fun d => d.change.step)
  fabric := s.streams.map (fun e => (e.1, ⟨e.2.secret, e.2.pend, e.2.pendSecret, e.2.pn, e.2.epoch, e.2.state⟩))
  rings := s.vfs.toList.map (fun v => (v.fault, v.event, v.vecs, v.notctl))

/-- A record whose TYPEs are known and stand once (R392). -/
def Handover.accepted (r : Handover) : Bool :=
  let types := r.heads.map (fun h => h.toNat % 2 ^ 8)
  types.all (fun t => decide (1 ≤ t) && decide (t ≤ 8)) && noRepeat types

/-- HANDOVER: the record is written and the new image starts from it in probation (R391, R392). -/
def execHandover (ctrl : Nat) (s : State) : Host.Outcome State Fault Refusal :=
  let f := s.fw ctrl
  match f.state, f.staged with
  | .quiesce, some x =>
    .next (s.setFw ctrl { f with state := .probation, deadline := s.ns + wdtOf x * 1000000, record := some s.handoverOf })
  | _, _ => .next s

/-- The measurements after a commit, with the keys and certificates that follow from them: M2 for the command processors and the scheduler,
M3 of a plug-in set (R397). -/
def Boot.measured (b : Boot) (ctrl : Nat) (x : FwImage) : Boot :=
  Boot.derive (if ctrl < 5 then { b with m2 := x.digest } else { b with m3 := put b.m3 (ctrl - 8) x.digest })

/-- ROLLBACK: the old image restarts from the record; the version is refused until a later one is staged (R391, R417). -/
def State.rollFirmware (s : State) (ctrl reason : Nat) : State :=
  let f := s.fw ctrl
  match f.state, f.staged with
  | .probation, some x =>
    let s := s.setFw ctrl { f with state := .committed, staged := none, deadline := 0, refused := x.version :: f.refused }
    (s.hears ctrl).foldl (fun (s : State) v => s.eventRecord v 7 (ctrl + x.version % 2 ^ 32 * 2 ^ 32 + reason * 2 ^ 64)) s
  | _, _ => s

/-- The replacement is committed and recorded (R391, R397, R417). -/
def State.commitFirmware (s : State) (ctrl : Nat) (f : Firmware) (x : FwImage) : State :=
  let s := { s.setFw ctrl { Firmware.booted x with refused := f.refused, record := f.record } with boot := s.boot.measured ctrl x }
  (s.hears ctrl).foldl (fun (s : State) v =>
    s.eventRecord v 6 (ctrl + f.version % 2 ^ 32 * 2 ^ 32 + x.version % 2 ^ 32 * 2 ^ 64)) s

/-- ALIVE: written before the deadline, it commits the replacement, unless the record fails it (R391, R392). -/
def execAlive (ctrl : Nat) (s : State) : Host.Outcome State Fault Refusal :=
  let f := s.fw ctrl
  match f.state, f.staged with
  | .probation, some x =>
    if f.deadline ≤ s.ns then .next s
    else if (f.record.map Handover.accepted).getD true then .next (s.commitFirmware ctrl f x)
    else .next (s.rollFirmware ctrl 3)
  | _, _ => .next s

/-- PROBATION_DEADLINE: WDT ms have passed without ALIVE (R391). -/
def execProbationDeadline (ctrl : Nat) (s : State) : Host.Outcome State Fault Refusal :=
  if (s.fw ctrl).deadline ≤ s.ns then .next (s.rollFirmware ctrl 1) else .next s

/-- FIRMWARE_ROLLBACK: a fault or trap in the new image (reason 2), or a record that it refuses (reason 3) (R391, R392). -/
def execFirmwareRollback (ctrl reason : Nat) (s : State) : Host.Outcome State Fault Refusal :=
  if reason = 2 ∨ reason = 3 then .next (s.rollFirmware ctrl reason) else .next s

/-! ## Partition and pages -/

/-- The legal sets of dies; the empty set withdraws a virtual function (R381). -/
def legalDies (l : List Nat) : Bool := [[], [0], [1], [2], [3], [0, 1], [2, 3], [0, 2], [1, 3], [0, 1, 2, 3]].contains l

/-- A die runs no launch and holds no packet (R381). -/
def State.dieQuiet (s : State) (d : Nat) : Bool :=
  s.launches.all (fun e => !(rectDies e.2.col0 e.2.row0 (e.2.wm1 + 1) (e.2.hm1 + 1)).contains d) &&
    s.queues.all (fun e => e.1 / 32 != d || e.2.prod == e.2.cons)

/-- A die leaves a virtual function: its time table, trace ring and frame tables serve no other (R381). -/
def State.loseDie (s : State) (d : Nat) : State :=
  { s.updDie d (fun y => { y with table := (Die.first d).table, trace := Trace.zero }) with
    cores := s.cores.map (fun e => if dieOf e.1 = d then (e.1, { e.2 with frames := Core.fresh.frames, frameOpen := none }) else e) }

/-- Pages of a virtual function go with the dies that hold them: their code lines count as changed for every later start (R369, R370). -/
def State.losePages (s : State) (v : Nat) (lost : List Page) : State :=
  let touches := fun (i : Image) => lost.flatMap (fun p => i.linesIn p.vbase p.size)
  let hit := ((s.vf v).images.filter (fun e => !(touches e.2).isEmpty)).map (fun e => e.1)
  let s := s.updVf v (fun f => { f with images := f.images.map (fun e => (e.1, { e.2 with stale := distinct (e.2.stale ++ touches e.2) })) })
  { s with cores := s.cores.map (fun e => (e.1, { e.2 with
    tlb := e.2.tlb.filter (fun p => p.vf != v || !lost.contains p)
    kept := e.2.kept.filter (fun k => !(k.1 == v && hit.contains k.2)) })) }

/-- PARTITION_CHANGE: the monitor gives a virtual function another set of dies, or refuses (R381). What stood on dies that it loses goes
with them; a function that is created has its registers at zero (R386, R387), and one that is withdrawn keeps nothing: its sealed records
go, and a later function of its number has new world keys (R401). Where a second root is
there, the root of a function that is created is drawn (R409; DESIGN CHOICE, log 48). -/
def execPartitionChange (vf : Nat) (dies : List Nat) (s : State) : Host.Outcome State Fault Refusal :=
  let f := s.vf vf
  let old := f.dies
  let free := [0, 1, 2, 3].all (fun v => v == vf || (s.vf v).dies.all (fun d => !dies.contains d))
  if decide (vf < 4) && legalDies dies && free && (old ++ dies).all (fun d => s.dieQuiet d) && !s.boot.recovery then
    let lost := fun (d : Nat) => old.contains d && !dies.contains d
    let fresh := !f.exists_ || dies.isEmpty
    let (k, s) := if !f.exists_ && !dies.isEmpty && s.boot.secondRoot then s.draw else (0, s)
    let kept := if fresh then { VF.empty with root := k % 2 == 1 } else f
    let s := s.updVf vf (fun _ => { kept with exists_ := !dies.isEmpty, dies, pages := kept.pages.filter (pageOnDies dies) })
    let s := old.foldl (fun (s : State) d => s.updDie d (fun y => { y with tlb := y.tlb.filter (fun p => p.vf != vf || pageOnDies dies p) })) s
    let s := if old.any lost then s.losePages vf (f.pages.filter (fun p => !pageOnDies dies p)) else s
    let s := (old.filter lost).foldl State.loseDie s
    let s := if fresh then { s with
        graphs := s.graphs.filter (fun g => g.vf != vf)
        seals := s.seals.filter (fun e => e.2.vf != vf)
        worlds := s.worlds.map (fun e => if e.1 / 16 = vf then (e.1, ⟨e.2.gen + 1, []⟩) else e) }
      else s
    .next (State.answer { s with queues := s.queues.filter (fun e => !lost (e.1 / 32)) } true)
  else .next (s.answer false)

/-- Two pages share a frame or an address. -/
def pagesMeet (a b : Page) : Bool :=
  (a.vf == b.vf && rangesMeet (a.vbase, a.size) (b.vbase, b.size)) || (a.dev == 0 && b.dev == 0 && rangesMeet (a.pbase, a.size) (b.pbase, b.size))

/-- No two pages of a list meet. -/
def pagesApart : List Page → Bool
  | [] => true
  | p :: r => r.all (fun q => !pagesMeet p q) && pagesApart r

/-- PAGE_ALLOCATION: pages on the local stacks of the virtual function's dies, the whole request on the named stack where it must be, or
a refusal (R311, R382). -/
def execPageAllocation (vf stack : Nat) (whole : Bool) (pages : List Page) (s : State) : Host.Outcome State Fault Refusal :=
  let f := s.vf vf
  let new := pages.map (fun (p : Page) => { p with vf := vf })
  let all := [0, 1, 2, 3].flatMap (fun v => (s.vf v).pages)
  if f.exists_ && s.schedules && decide (vf < 4) && new.all pageLegal && new.all (pageOnDies f.dies) &&
      (!whole || new.all (fun p => p.pbase / 2 ^ 36 == stack)) && pagesApart new && new.all (fun p => all.all (fun q => !pagesMeet p q)) &&
      (List.range 8).all (fun k => decide (s.stackUsed k + stackSum new k ≤ s.stackBytes k)) then
    .next ((s.updVf vf (fun f => { f with pages := f.pages ++ new })).answer true)
  else .next (s.answer false)

/-! ## Evidence -/

/-- No launch of a virtual function runs. -/
def State.vfIdle (s : State) (v : Nat) : Bool := !s.launches.any (fun e => e.2.vf == v && e.2.live)

/-- STATE of an evidence record (R398, R399): a virtual function without dies is descheduled; of one that runs no launch, the choice drawn
says whether it is descheduled or gated (DESIGN CHOICE, log 48). -/
def State.evidenceState (s : State) (v : Nat) : Nat × State :=
  if s.boot.recovery then (2, s)
  else if !(s.vf v).exists_ then (1, s)
  else if s.vfIdle v then
    let (k, s) := s.draw
    (k % 2, s)
  else (0, s)

/-- The record (R398). -/
def State.evidence (s : State) (v state : Nat) (nonce : BitVec 256) : BitVec 1024 :=
  let ver := fun d => (s.die d).hallmark.version.toNat
  BitVec.ofNat 1024 (state + (s.vf v).dies.foldl (fun m d => m ||| 2 ^ d) 0 * 2 ^ 8 + s.ns % 2 ^ 64 * 2 ^ 64 +
    ver 0 * 2 ^ 128 + ver 1 * 2 ^ 160 + ver 2 * 2 ^ 192 + ver 3 * 2 ^ 224 + s.boot.m2.toNat * 2 ^ 256 +
    (getD 0 s.boot.m3 v).toNat * 2 ^ 512 + nonce.toNat * 2 ^ 768)

/-- The answer to a request for evidence: the record, signed with the layer-2 keys in both schemes (R397, R398). -/
def State.answerEvidence (s : State) (vf : Nat) (nonce : BitVec 256) : State :=
  let (k, s) := s.evidenceState vf
  let r := s.evidence vf k nonce
  { s with out := { s.out with evidence :=
    (r, Config.edSign (keySeed s.boot.cdi2 "TQ4 id Ed") 128 r.toNat, Config.mldsaSign (keySeed s.boot.cdi2 "TQ4 id MLDSA") 128 r.toNat) ::
      s.out.evidence } }

/-- The link over which a request for evidence comes and is answered: the host's, or the rack scheduler's where only that carries traffic
(R398; DESIGN CHOICE, log 40). -/
def State.evidenceLink (s : State) (vf : Nat) : Nat :=
  let h := s.portLink (s.hostPort vf)
  if h.up || (h.state == 1 && !(s.portLink rackLink).up) then s.hostPort vf else rackLink

/-- EVIDENCE_REQUEST: the answer, while a link carries it (R398, R410); in recovery the host link's recovery function answers (R396; log 40). -/
def execEvidenceRequest (vf : Nat) (nonce : BitVec 256) (s : State) : Host.Outcome State Fault Refusal :=
  if s.boot.recovery then .next (s.answerEvidence vf nonce)
  else s.viaPort (s.evidenceLink vf) (.evidenceRequest vf nonce) (.next (s.answerEvidence vf nonce))

end Sys2Proof.Machine
end

