-- ==== Sys2Proof/Machine/Worlds.lean ====
section
/-! DEFINITION. Worlds: the frame tables and their edges (R400 to R403), key slots and world keys (R401, R404). -/

namespace Sys2Proof.Machine

/-! ## Frame-table entries -/

/-- Fields of an entry (R400). -/
def frOffset (e : BitVec 128) : Nat := bits e.toNat 127 96
def frWorld (e : BitVec 128) : Nat := bits e.toNat 7 4

/-- The virtual function that owns a die; 4 when none does (R381). -/
def State.owner (s : State) (d : Nat) : Nat := ([0, 1, 2, 3].find? (fun v => (s.vf v).dies.contains d)).getD 4

/-- The fields of one entry (R400, R401). -/
def State.frameOk (s : State) (v period : Nat) (e : BitVec 128) : Bool :=
  bits e.toNat 15 8 == 0 && bits e.toNat 3 1 == 0 &&
    (!frEn e || (decide (frOffset e < period) && decide (4096 ≤ frLength e) && decide (frLength e ≤ period) && frRpid e != 0 &&
      frWorld e != 0 && frImage e != 0 && (match s.image? v (frImage e) with
        | some i => frameImageOk i e
        | none => false)))

/-- No two active frames of a table overlap (R400). -/
def framesApart (period : Nat) : List (BitVec 128) → Bool
  | [] => true
  | e :: r => (!frEn e || r.all (fun f => !frEn f || !intervalsMeet period (frOffset e, frLength e) (frOffset f, frLength f))) &&
      framesApart period r

/-- A launch holds core n. -/
def State.coreHeld (s : State) (n : Nat) : Bool := (s.core n).launch.isSome || !(s.savedOn n).isEmpty

/-- FRAME_TABLE_WRITE: the monitor writes a core's table on the plug-in's request, or refuses (R400, R401, R403); a table does not change
while a frame is open or a launch holds the core. -/
def execFrameTableWrite (core epoch period : Nat) (entries : List (BitVec 128)) (args : List (Nat × Nat)) (s : State) :
    Host.Outcome State Fault Refusal :=
  let v := s.owner (dieOf core)
  if decide (v < 4) && decide (2 ^ 16 ≤ period) && decide (period < 2 ^ 32) && decide (entries.length ≤ 8) &&
      entries.all (s.frameOk v period) && framesApart period entries && args.all (fun a => decide (a.1 ≤ 240)) &&
      (s.core core).frameOpen.isNone && !s.coreHeld core then
    .next ((s.updCore core (fun c => { c with frames := ⟨epoch, period, entries, args⟩ })).answer true)
  else .next (s.answer false)

/-! ## Edges -/

/-- The present cycle is an edge at an offset of the table's period (R400). -/
def FrameTable.edge (t : FrameTable) (now off : Nat) : Bool :=
  decide (t.epoch ≤ now) && decide (0 < t.period) && decide (off ≤ now - t.epoch) && (now - t.epoch - off) % t.period == 0

/-- The FRAME record of R402: SUB 1 OVERRUN, 2 UNSEAL, 3 MODE. -/
def frameRec (world entry sub idx : Nat) : TrapRec := ⟨15, 0, sub + entry % 8 * 2 ^ 4 + world * 2 ^ 8, 0, idx⟩

/-- The sealed record of a world for core n. -/
def State.sealedFor (s : State) (n v w : Nat) : Option Sealed :=
  (s.seals.find? (fun e => e.1 == n && e.2.vf == v && e.2.world == w)).map (fun e => e.2)

/-- The sealed record of a world for core n is discarded (R402). -/
def State.dropSeal (s : State) (n v w : Nat) : State :=
  { s with seals := s.seals.filter (fun e => !(e.1 == n && e.2.vf == v && e.2.world == w)) }

/-- The launch of a frame: the core alone, without a packet (R403). -/
def State.frameLaunch (s : State) (n k v : Nat) (e : BitVec 128) (imode : Bool) : Launch :=
  let a := nth (0, 0) (s.core n).frames.args k
  { vf := v, origin := .world n k, prio := 3, packet := 0, image := frImage e, col0 := colOf n, row0 := rowOf n, wm1 := 0, hm1 := 0,
    cores := [(n, 0, 0)], imode, state := .running, start := some s.now, began := s.now, since := s.now, binds := [],
    clasps := [], arrived := [], relAt := [], code := 0, aborted := false, saves := [], evac := false, args := a }

/-- The jobs of an ending frame: queued ones are discarded, running ones end after their current sector (R310, R402). -/
def State.cutJobs (s : State) (l : Nat) : State :=
  ([0, 1, 2, 3].foldl (fun s d => s.updDie d (fun y => { y with
    jobs := y.jobs.filter (fun j => j.launch != l || (j.state == .running && !j.between)) })) s).updLaunch l
      (fun x => { x with aborted := true, state := .stopping, arrived := [], relAt := [] })

/-- The core performs nothing more: what its performs still hold goes with them (R402). -/
def Core.dropPerforms (c : Core) : Core :=
  { c with performs := [], loads := c.loads.filter (fun l => l.kind != .atomic || l.land.isSome) }

/-- FRAME is raised on core n (R402): at the next boundary of a running core, which outranks every other cause (R307), and at once on one
that does not issue. -/
def State.raiseFrame (s : State) (n : Nat) (t : TrapRec) : State :=
  let s := match (s.core n).launch with
    | some l => s.cutJobs l
    | none => s
  let c := (s.core n).dropPerforms
  match c.run with
  | .running => s.setCore n { c with pend := c.pend ++ [.frame t] }
  | _ => s.setCore n { c with
      run := .draining, stop := some (.trap { t with index := c.regs.pc.toNat }), stopNext := none, wait := none, wakeAt := none
      dbg := { c.dbg with bhit := 0 } }

/-- A frame opens with its launch and image: anew with the `.data` of the image, in the commons too (R50), or from a sealed record, which is
loaded at SEALRPID with its clasps, and the store takes the segment of its bundle (R319, R401, R403). -/
def State.beginFrame (s : State) (n k v : Nat) (e : BitVec 128) (i : Image) (imode : Bool) (r : Option (MarkEntry × Saved)) : State :=
  let (l, s) := s.fresh
  let (d, s) := s.draw
  let x := s.frameLaunch n k v e imode
  let x := match r with
    | some (_, r) => { x with clasps := r.clasps.map (fun c => (c.1, sharedOf c.2)) }
    | none => x
  let s := if r.isNone then s.placeCommons i [dieOf n] else s
  let s := (s.setLaunch l x).prepareCore l x i (n, 0, 0) i.entry (.starting (s.now + d))
  s.updCore n (fun c =>
    let c := { c with frameOpen := some k }
    match r with
    | some (m, r) =>
      let c := c.restore m r i
      { c with istore := s.copyStale v i c.istore }
    | none => c)

/-- A frame opens and fails with FRAME (R402). -/
def State.failFrame (s : State) (n k v : Nat) (e : BitVec 128) (sub : Nat) : State :=
  let (l, s) := s.fresh
  let s := (s.setLaunch l (s.frameLaunch n k v e false)).blankCore n
  (s.updCore n (fun c => { c with launch := some l, frameOpen := some k })).raiseFrame n (frameRec (frWorld e) k sub 0)

/-- The mode of a frame: a test of R285 for MREQ 1 on the core alone, for an image whose units are in service (R403). -/
def State.frameMode (s : State) (n : Nat) (i : Image) : Option Bool :=
  if !i.unitsOk (s.recOf n) n (0, 0) then none
  else match s.modeOf i (colOf n, rowOf n, 1, 1) [(n, 0, 0)] 1 with
    | .ok m => some m
    | .error _ => none

/-- What opens in a frame of core n: an unsealed record or the image anew, or FRAME (R401 to R403). -/
def State.openFrame (s : State) (n k v : Nat) (e : BitVec 128) : State :=
  match s.image? v (frImage e) with
  | none => s.failFrame n k v e 3
  | some i =>
    match s.frameMode n i with
    | none => s.failFrame n k v e 3
    | some m =>
      match s.sealedFor n v (frWorld e) with
      | none => s.beginFrame n k v e i m none
      | some x =>
        let gen := match find? s.worlds (worldKey v (frWorld e)) with
          | some w => w.gen
          | none => 0
        if !x.opens gen then (s.dropSeal n v (frWorld e)).failFrame n k v e 2
        else match i.entryOf (frRpid e) with
          | some t => if saveFits t x.record then s.beginFrame n k v e i m (some (t, x.record)) else s.failFrame n k v e 3
          | none => s.failFrame n k v e 3

/-- FRAME_OPEN: the opening edge of an active entry; a world whose seal counter is spent opens no frame (R401). -/
def execFrameOpen (core entry : Nat) (s : State) : Host.Outcome State Fault Refusal :=
  let c := s.core core
  let v := s.owner (dieOf core)
  match c.frames.entries[entry]? with
  | none => .next s
  | some e =>
    if frEn e && c.frames.edge s.now (frOffset e) && c.run == .idle && c.frameOpen.isNone && s.present core && decide (v < 4) && !s.boot.recovery &&
        !s.coreClaimed core && decide (s.sealCounter v (frWorld e) core < 2 ^ 82) then
      .next (s.openFrame core entry v e)
    else .next s

/-- FRAME_CLOSE: the closing edge ends the frame; a core that is not idle takes a frame overrun, and the world's sealed record is discarded
(R401, R402). -/
def execFrameClose (core entry : Nat) (s : State) : Host.Outcome State Fault Refusal :=
  let c := s.core core
  match c.frames.entries[entry]? with
  | none => .next s
  | some e =>
    if c.frames.edge s.now (frOffset e + frLength e) && c.frameOpen == some entry then
      let frameTrap := match c.trapped with
        | some t => t.cause == 15
        | none => false
      let t := if c.run == .idle || frameTrap then s
        else (s.dropSeal core (s.vfOf core) (frWorld e)).raiseFrame core (frameRec (frWorld e) entry 1 0)
      .next (t.updCore core (fun c => { c with frameOpen := none }))
    else .next s

/-- CLEAR: the only service of FRAME: the record goes to the fault ring, and the core is cleared and idle (R310, R402). -/
def execClear (core : Nat) (s : State) : Host.Outcome State Fault Refusal :=
  match (s.core core).trapped with
  | some t =>
    if t.cause = 15 && s.schedules && s.noJobs core then .next ((s.abortRecord core true).clearCore core) else .next s
  | none => .next s

/-! ## Keys -/

/-- KEY_SLOT_WRITE: the monitor writes one of the slots 1 to 63 (R404). -/
def execKeySlotWrite (core slot : Nat) (k : BitVec 512) (s : State) : Host.Outcome State Fault Refusal :=
  if 1 ≤ slot ∧ slot ≤ 63 then .next (s.updCore core (fun c => { c with keys := put c.keys slot k })) else .next s

/-- WORLD_KEY_INSTALL: a new world key; that world's seal counters start at zero (R401). -/
def execWorldKeyInstall (vf world : Nat) (s : State) : Host.Outcome State Fault Refusal :=
  let k := getD ⟨0, []⟩ s.worlds (worldKey vf world)
  .next { s with worlds := put s.worlds (worldKey vf world) ⟨k.gen + 1, []⟩ }

end Sys2Proof.Machine
end

