-- ==== Sys2Proof/Machine/Fabric.lean ====
section
/-! DEFINITION. Protected links (R406, R407) and the time base (R412). -/

namespace Sys2Proof.Machine

/-! ## Streams -/

/-- The switch to the pending key (R407). -/
def Stream.switch (x : Stream) : Stream :=
  let y := if x.epoch < 255 then { x with epoch := x.epoch + 1 } else { x with epoch := 0, secret := x.pendSecret.getD x.secret }
  { y with pn := 0, pend := false, pendSecret := none, state := .active }

/-- After a flit group sealed with PN (R407). -/
def Stream.sealed (x : Stream) (ns : Nat) : Stream :=
  if 2 ^ 47 ≤ x.pn + 1 ∧ x.pend = true then x.switch
  else if x.pn = 2 ^ 48 - 1 then { x with state := .exhausted, since := ns }
  else { x with pn := x.pn + 1 }

/-- The die that a stream leaves and its port: streams 2 to 19 are those of the external ports, 24 + 2·k and 25 + 2·k the two directions of
the die link of port 20 + k (R406, R408). -/
def streamEnd (stream : Nat) : Option (Nat × Nat) :=
  if stream < 2 then none
  else if stream < 18 then some ((stream - 2) / 4, stream)
  else match stream with
    | 18 => some (1, 18)
    | 19 => some (2, 19)
    | 24 => some (0, 20)
    | 25 => some (1, 20)
    | 26 => some (2, 21)
    | 27 => some (3, 21)
    | 28 => some (0, 22)
    | 29 => some (2, 22)
    | 30 => some (1, 23)
    | 31 => some (3, 23)
    | _ => none

/-- SRC of a stream: PKGID[23:0], die and port (R406). -/
def streamSrc (die port : Nat) : Nat := port % 64 + die % 4 * 2 ^ 6 + pkgId % 2 ^ 24 * 2 ^ 8

/-- The key of a stream (R406). -/
def streamKey (secret src epoch : Nat) : BitVec 256 :=
  Config.hkdf (Config.domainSecret secret) 13 (ascii "TQ4 link" + src * 2 ^ 64 + epoch * 2 ^ 96)

/-- The nonce of a flit group: SRC, then PN zero-extended to 64 bits (R406). -/
def sealNonce (src pn : Nat) : BitVec 96 := BitVec.ofNat 96 (src * 2 ^ 64 + pn % 2 ^ 48)

/-- FLIT_GROUP_SEAL: a flit group leaves under the stream's key and nonce (R406), and the monitor is told when
the key's packet numbers are used up; an exhausted stream, one in ERROR and one whose port is not
up seal nothing (R407, R408). -/
def execFlitGroupSeal (stream : Nat) (s : State) : Host.Outcome State Fault Refusal :=
  match streamEnd stream with
  | none => .next s
  | some (die, port) =>
    let x := s.stream stream
    if x.state = .active ∧ (s.port port).up = true then
      let src := streamSrc die port
      let y := x.sealed s.ns
      let s := s.setStream stream y
      .next { s with out := { s.out with
        sealed := (stream, streamKey x.secret src x.epoch, sealNonce src x.pn) :: s.out.sealed
        spent := if y.state = .exhausted then stream :: s.out.spent else s.out.spent } }
    else .next s

/-- PENDING_KEY_PROGRAM: the key of the next epoch, at EPOCH 255 of a new domain secret; an exhausted stream switches to it within 10 ms
(R407). -/
def execPendingKeyProgram (stream : Nat) (secret : Option Nat) (s : State) : Host.Outcome State Fault Refusal :=
  let x := s.stream stream
  let ok := (streamEnd stream).isSome && (if x.epoch < 255 then secret.isNone else (match secret with
    | some k => decide (x.secret < k)
    | none => false))
  if !ok then .next s
  else
    let y := { x with pend := true, pendSecret := secret }
    match x.state with
    | .active => .next (s.setStream stream y)
    | .exhausted => if s.ns < x.since + 10000000 then .next (s.setStream stream y.switch) else .next s
    | .error => .next s

/-- Loads of core n that wait for data on a way with a stream in ERROR (R407). -/
def State.lostLoads (s : State) (n : Nat) : List (Nat × Nat) :=
  ((s.core n).loads.filter (fun l => l.kind == .load && l.trans.ready && !l.err && s.wayState n l.trans == .error)).map (fun l =>
    match l.trans.pages.find? (fun p => s.reach n (4096 * p.2) == .error) with
    | some p => (l.id, s.errLane (dieOf n) (homeOf (4096 * p.2)))
    | none => (l.id, 0))

/-- The DATAERR of a die-to-die path (R305). -/
def pathErr (lane : Nat) : DataErr := ⟨12, BitVec.ofNat 16 lane, 0, 0⟩

/-- What the streams' states do to core n in a cycle (R407): its waiting performs go on when the stream carries them again, and what a
stream in ERROR has lost ends as data errors with SOURCE 0x0C (R305). -/
def State.linkCore (s : State) (n : Nat) : State :=
  let c := s.core n
  let s := if c.performs.isEmpty then s else s.runPerforms c.performs.length n
  let s := (s.lostLoads n).foldl (fun (s : State) e =>
    match execDataError n (pathErr e.2) (.onLoad e.1) s with
    | .next s' => s'
    | _ => s) s
  (s.core n).lost.foldl (fun (s : State) lane => s.pendData n (pathErr lane)) (s.updCore n (fun c => { c with lost := [] }))

/-- KEY_EXHAUSTED_TIMEOUT: 10 ms without a pending key: ERROR, and the waiting traffic is discarded (R407). -/
def execKeyExhaustedTimeout (stream : Nat) (s : State) : Host.Outcome State Fault Refusal :=
  let x := s.stream stream
  if x.state = .exhausted ∧ x.since + 10000000 ≤ s.ns then
    let s := s.setStream stream { x with state := .error }
    .next (s.cores.foldl (fun (s : State) e => s.linkCore e.1) s)
  else .next s

/-- FABRIC_KEY_HANDOVER: a new domain secret; the stream is ACTIVE at EPOCH 0 (R407). -/
def execFabricKeyHandover (stream secret : Nat) (s : State) : Host.Outcome State Fault Refusal :=
  let x := s.stream stream
  if (streamEnd stream).isSome ∧ x.secret < secret then
    .next (s.setStream stream { x with secret, pn := 0, epoch := 0, pend := false, pendSecret := none, state := .active })
  else .next s

/-- A packet number is new within the window of 1,024 behind the highest accepted (R406). -/
def acceptPn (old : Option (Nat × List Nat)) (pn : Nat) : Bool :=
  match old with
  | none => true
  | some (top, seen) => decide (top < pn) || (decide (top ≤ pn + 1024) && pn != top && !seen.contains pn)

/-- The receiver's record after it accepts a packet number. -/
def notePn (old : Option (Nat × List Nat)) (pn : Nat) : Nat × List Nat :=
  match old with
  | none => (pn, [])
  | some (top, seen) =>
    if top < pn then (pn, (top :: seen).filter (fun x => decide (pn ≤ x + 1024))) else (top, pn :: seen)

/-- FLIT_RECEIVE: a packet number is accepted once for its source, domain secret and epoch (R406), where the stream's port is up (R410). -/
def execFlitReceive (stream src secret epoch pn : Nat) (s : State) : Host.Outcome State Fault Refusal :=
  let x := s.stream stream
  let old := (x.recv.find? (fun e => e.1 == (src, secret, epoch))).map (fun e => e.2)
  match streamEnd stream with
  | none => .next s
  | some (_, port) => s.viaPort port (.flitReceive stream src secret epoch pn) (
    if 2 ^ 48 ≤ pn ∨ acceptPn old pn = false then .next s
    else
      let recv := ((src, secret, epoch), notePn old pn) :: x.recv.filter (fun e => e.1 != (src, secret, epoch))
      let s := s.setStream stream { x with recv }
      .next { s with out := { s.out with flits := (src, pn) :: s.out.flits } })

/-- The status register of a stream (R407). -/
def Stream.word (x : Stream) : Nat :=
  (match x.state with
    | .active => 0
    | .exhausted => 1
    | .error => 2) + b2n x.pend * 2 ^ 2 + x.epoch * 2 ^ 8 + x.pn * 2 ^ 16

/-! ## The time base -/

/-- TIME_SYNC: a grandmaster on port 18, or else on port 19, disciplines the rate, by at most 100 ppm; without one the last rate stays
(R412). -/
def execTimeSync (gm18 gm19 : Bool) (ppm : Int) (s : State) : Host.Outcome State Fault Refusal :=
  let gm := if gm18 then some 18 else if gm19 then some 19 else none
  .next { s with time := { s.time with gm, ppm := if gm.isSome then max (-100) (min 100 ppm) else s.time.ppm } }

/-- GRANDMASTER_LOSS: the time base runs free at its last disciplined rate (R412). -/
def execGrandmasterLoss (s : State) : Host.Outcome State Fault Refusal := .next { s with time := { s.time with gm := none } }

end Sys2Proof.Machine
end

