-- ==== Sys2Proof/Machine/Dispatch.lean ====
section
/-! DEFINITION. The meaning of every row of spec/opcode_table.json: one arm per constructor. A slot instruction runs on the core that
State.cur names (R52, R76); an event names its object. -/

namespace Sys2Proof.Machine

def exec (i : Instr) (s : State) : Host.Outcome State Fault Refusal :=
  match i with
  -- every slot (R55)
  | .nop sl => Sys2Proof.Machine.execNop sl s
  -- control slot (R62)
  | .prep j target => Sys2Proof.Machine.execPrep j target s
  | .br j => Sys2Proof.Machine.execBr j s
  | .brn j => Sys2Proof.Machine.execBrn j s
  | .jmp target => Sys2Proof.Machine.execJmp target s
  | .call target => Sys2Proof.Machine.execCall target s
  | .calli x cls => Sys2Proof.Machine.execCalli x cls s
  | .loop x last => Sys2Proof.Machine.execLoop x last s
  | .loopi trip last => Sys2Proof.Machine.execLoopi trip last s
  | .step g => Sys2Proof.Machine.execStep g s
  | .bari c x => Sys2Proof.Machine.execBari c x s
  | .bara c mask => Sys2Proof.Machine.execBara c mask s
  | .baraw c mask => Sys2Proof.Machine.execBaraw c mask s
  | .barw c => Sys2Proof.Machine.execBarw c s
  | .fence mask => Sys2Proof.Machine.execFence mask s
  | .txwait x phase => Sys2Proof.Machine.execTxwait x phase s
  | .trap code => Sys2Proof.Machine.execTrap code s
  | .csrr d csr => Sys2Proof.Machine.execCsrr d csr s
  | .csrw csr x => Sys2Proof.Machine.execCsrw csr x s
  | .pool count => Sys2Proof.Machine.execPool count s
  -- scalar slots (R63, R68)
  | .add u d x y => Sys2Proof.Machine.execAdd u d x y s
  | .sub u d x y => Sys2Proof.Machine.execSub u d x y s
  | .addi u d x imm => Sys2Proof.Machine.execAddi u d x imm s
  | .mul u d x y => Sys2Proof.Machine.execMul u d x y s
  | .mulh u d x y => Sys2Proof.Machine.execMulh u d x y s
  | .mulhu u d x y => Sys2Proof.Machine.execMulhu u d x y s
  | .div u d x y => Sys2Proof.Machine.execDiv u d x y s
  | .divu u d x y => Sys2Proof.Machine.execDivu u d x y s
  | .rem u d x y => Sys2Proof.Machine.execRem u d x y s
  | .remu u d x y => Sys2Proof.Machine.execRemu u d x y s
  | .min u d x y => Sys2Proof.Machine.execMin u d x y s
  | .max u d x y => Sys2Proof.Machine.execMax u d x y s
  | .minu u d x y => Sys2Proof.Machine.execMinu u d x y s
  | .maxu u d x y => Sys2Proof.Machine.execMaxu u d x y s
  | .and u d x y => Sys2Proof.Machine.execAnd u d x y s
  | .or u d x y => Sys2Proof.Machine.execOr u d x y s
  | .xor u d x y => Sys2Proof.Machine.execXor u d x y s
  | .andi u d x imm => Sys2Proof.Machine.execAndi u d x imm s
  | .ori u d x imm => Sys2Proof.Machine.execOri u d x imm s
  | .xori u d x imm => Sys2Proof.Machine.execXori u d x imm s
  | .shl u d x y => Sys2Proof.Machine.execShl u d x y s
  | .shr u d x y => Sys2Proof.Machine.execShr u d x y s
  | .sra u d x y => Sys2Proof.Machine.execSra u d x y s
  | .shli u d x amt => Sys2Proof.Machine.execShli u d x amt s
  | .shri u d x amt => Sys2Proof.Machine.execShri u d x amt s
  | .srai u d x amt => Sys2Proof.Machine.execSrai u d x amt s
  | .ceq u d x y => Sys2Proof.Machine.execCeq u d x y s
  | .cne u d x y => Sys2Proof.Machine.execCne u d x y s
  | .clt u d x y => Sys2Proof.Machine.execClt u d x y s
  | .cltu u d x y => Sys2Proof.Machine.execCltu u d x y s
  | .ceqi u d x imm => Sys2Proof.Machine.execCeqi u d x imm s
  | .clti u d x imm => Sys2Proof.Machine.execClti u d x imm s
  | .sel u d x y z => Sys2Proof.Machine.execSel u d x y z s
  | .movi u d imm => Sys2Proof.Machine.execMovi u d imm s
  | .movih u d imm => Sys2Proof.Machine.execMovih u d imm s
  | .clz u d x => Sys2Proof.Machine.execClz u d x s
  | .ctz u d x => Sys2Proof.Machine.execCtz u d x s
  | .popc u d x => Sys2Proof.Machine.execPopc u d x s
  | .agen u d x y z => Sys2Proof.Machine.execAgen u d x y z s
  | .rdli u d x => Sys2Proof.Machine.execRdli u d x s
  | .rdjt u d x => Sys2Proof.Machine.execRdjt u d x s
  | .rdxy u d => Sys2Proof.Machine.execRdxy u d s
  -- vector slots (R64, R69)
  | .vadd u ty k sat d x y => Sys2Proof.Machine.execVadd u ty k sat d x y s
  | .vsub u ty k sat d x y => Sys2Proof.Machine.execVsub u ty k sat d x y s
  | .vmul u ty k sat d x y => Sys2Proof.Machine.execVmul u ty k sat d x y s
  | .vfma u ty k sat d x y => Sys2Proof.Machine.execVfma u ty k sat d x y s
  | .vfms u ty k sat d x y => Sys2Proof.Machine.execVfms u ty k sat d x y s
  | .vmin u ty k d x y => Sys2Proof.Machine.execVmin u ty k d x y s
  | .vmax u ty k d x y => Sys2Proof.Machine.execVmax u ty k d x y s
  | .vabs u ty k sat d x => Sys2Proof.Machine.execVabs u ty k sat d x s
  | .vneg u ty k sat d x => Sys2Proof.Machine.execVneg u ty k sat d x s
  | .vaddi u ty k sat d x imm => Sys2Proof.Machine.execVaddi u ty k sat d x imm s
  | .vmuli u ty k sat d x imm => Sys2Proof.Machine.execVmuli u ty k sat d x imm s
  | .vand u ty k d x y => Sys2Proof.Machine.execVand u ty k d x y s
  | .vor u ty k d x y => Sys2Proof.Machine.execVor u ty k d x y s
  | .vxor u ty k d x y => Sys2Proof.Machine.execVxor u ty k d x y s
  | .vnot u ty k d x => Sys2Proof.Machine.execVnot u ty k d x s
  | .vshl u ty k d x y => Sys2Proof.Machine.execVshl u ty k d x y s
  | .vshr u ty k d x y => Sys2Proof.Machine.execVshr u ty k d x y s
  | .vsra u ty k d x y => Sys2Proof.Machine.execVsra u ty k d x y s
  | .vshli u ty k d x amt => Sys2Proof.Machine.execVshli u ty k d x amt s
  | .vshri u ty k d x amt => Sys2Proof.Machine.execVshri u ty k d x amt s
  | .vsrai u ty k d x amt => Sys2Proof.Machine.execVsrai u ty k d x amt s
  | .vclz u ty k d x => Sys2Proof.Machine.execVclz u ty k d x s
  | .vpop u ty k d x => Sys2Proof.Machine.execVpop u ty k d x s
  | .vcvt u ty k sat d x ts => Sys2Proof.Machine.execVcvt u ty k sat d x ts s
  | .vmov u ty k sat d x => Sys2Proof.Machine.execVmov u ty k sat d x s
  | .vbri u ty k d imm => Sys2Proof.Machine.execVbri u ty k d imm s
  | .vsplat u ty k d y => Sys2Proof.Machine.execVsplat u ty k d y s
  | .vsel u ty k d x y => Sys2Proof.Machine.execVsel u ty k d x y s
  | .vceq u ty k m x y => Sys2Proof.Machine.execVceq u ty k m x y s
  | .vcne u ty k m x y => Sys2Proof.Machine.execVcne u ty k m x y s
  | .vclt u ty k m x y => Sys2Proof.Machine.execVclt u ty k m x y s
  | .vcle u ty k m x y => Sys2Proof.Machine.execVcle u ty k m x y s
  | .vcmpu u k j m => Sys2Proof.Machine.execVcmpu u k j m s
  | .kand u d x y => Sys2Proof.Machine.execKand u d x y s
  | .kor u d x y => Sys2Proof.Machine.execKor u d x y s
  | .kxor u d x y => Sys2Proof.Machine.execKxor u d x y s
  | .kandn u d x y => Sys2Proof.Machine.execKandn u d x y s
  | .knot u d x => Sys2Proof.Machine.execKnot u d x s
  | .vredadd u ty k sat d x => Sys2Proof.Machine.execVredadd u ty k sat d x s
  | .vredmax u ty k d x => Sys2Proof.Machine.execVredmax u ty k d x s
  | .vredmin u ty k d x => Sys2Proof.Machine.execVredmin u ty k d x s
  | .vperm u ty k d x y => Sys2Proof.Machine.execVperm u ty k d x y s
  | .vrot u ty k d x dist => Sys2Proof.Machine.execVrot u ty k d x dist s
  | .vlane u ty k d => Sys2Proof.Machine.execVlane u ty k d s
  | .xmov u k d x => Sys2Proof.Machine.execXmov u k d x s
  | .vpack u ty k sat d x fmt => Sys2Proof.Machine.execVpack u ty k sat d x fmt s
  | .vunpk u ty k d x fmt => Sys2Proof.Machine.execVunpk u ty k d x fmt s
  | .vdiv ty k d x y => Sys2Proof.Machine.execVdiv ty k d x y s
  | .vsqrt ty k d x => Sys2Proof.Machine.execVsqrt ty k d x s
  | .vrcp ty k d x => Sys2Proof.Machine.execVrcp ty k d x s
  | .vrsq ty k d x => Sys2Proof.Machine.execVrsq ty k d x s
  | .vexp2 ty k d x => Sys2Proof.Machine.execVexp2 ty k d x s
  | .vlog2 ty k d x => Sys2Proof.Machine.execVlog2 ty k d x s
  | .vrcpl ty k d x => Sys2Proof.Machine.execVrcpl ty k d x s
  | .vsumx u ty k d x => Sys2Proof.Machine.execVsumx u ty k d x s
  -- matrix slot (R65, R70)
  | .mma af bf t aoff woff => Sys2Proof.Machine.execMma af bf t aoff woff s
  | .mmz af bf t aoff woff => Sys2Proof.Machine.execMmz af bf t aoff woff s
  | .mmat af bf t aoff woff => Sys2Proof.Machine.execMmat af bf t aoff woff s
  | .mmzt af bf t aoff woff => Sys2Proof.Machine.execMmzt af bf t aoff woff s
  | .mclr t => Sys2Proof.Machine.execMclr t s
  | .maddc t u => Sys2Proof.Machine.execMaddc t u s
  | .mcvt af t cl d => Sys2Proof.Machine.execMcvt af t cl d s
  | .mldc af t cl s_ => Sys2Proof.Machine.execMldc af t cl s_ s
  | .mbias af t cl s_ => Sys2Proof.Machine.execMbias af t cl s_ s
  | .mstc af t aoff => Sys2Proof.Machine.execMstc af t aoff s
  -- scale loads (R67, R205)
  | .slda sel aoff => Sys2Proof.Machine.execSlda sel aoff s
  | .sldb sel aoff => Sys2Proof.Machine.execSldb sel aoff s
  -- load/store slot (R66, R71)
  | .lds b d sz sgn off => Sys2Proof.Machine.execLds b d sz sgn off s
  | .sts col b d sz off => Sys2Proof.Machine.execSts col b d sz off s
  | .ldv b k off cl d => Sys2Proof.Machine.execLdv b k off cl d s
  | .stv col b k off cl s_ => Sys2Proof.Machine.execStv col b k off cl s_ s
  | .ldvs b g k off cl d => Sys2Proof.Machine.execLdvs b g k off cl d s
  | .stvs col b g k off cl s_ => Sys2Proof.Machine.execStvs col b g k off cl s_ s
  | .ldvb b k off cl d => Sys2Proof.Machine.execLdvb b k off cl d s
  | .ldvx b k idx cl d => Sys2Proof.Machine.execLdvx b k idx cl d s
  | .stvx col b k idx cl s_ => Sys2Proof.Machine.execStvx col b k idx cl s_ s
  | .ldk b k off cl m => Sys2Proof.Machine.execLdk b k off cl m s
  | .stk col b k off cl m => Sys2Proof.Machine.execStk col b k off cl m s
  | .atadd col b d sz off => Sys2Proof.Machine.execAtadd col b d sz off s
  | .atmin col b d sz off => Sys2Proof.Machine.execAtmin col b d sz off s
  | .atmax col b d sz off => Sys2Proof.Machine.execAtmax col b d sz off s
  | .atminu col b d sz off => Sys2Proof.Machine.execAtminu col b d sz off s
  | .atmaxu col b d sz off => Sys2Proof.Machine.execAtmaxu col b d sz off s
  | .atand col b d sz off => Sys2Proof.Machine.execAtand col b d sz off s
  | .ator col b d sz off => Sys2Proof.Machine.execAtor col b d sz off s
  | .atxch col b d sz off => Sys2Proof.Machine.execAtxch col b d sz off s
  | .atcas col b d c sz off => Sys2Proof.Machine.execAtcas col b d c sz off s
  | .pref b off => Sys2Proof.Machine.execPref b off s
  | .txinit b d off => Sys2Proof.Machine.execTxinit b d off s
  | .txarv b d off => Sys2Proof.Machine.execTxarv b d off s
  -- fill and park (R67)
  | .fill x n aoff => Sys2Proof.Machine.execFill x n aoff s
  | .park coff cl s_ => Sys2Proof.Machine.execPark coff cl s_ s
  | .unpk coff cl d => Sys2Proof.Machine.execUnpk coff cl d s
  -- landings and moves inside a core
  | .resultLanding core id => Sys2Proof.Machine.execResultLanding core id s
  | .longPendingLanding core id => Sys2Proof.Machine.execLongPendingLanding core id s
  | .globalLoadRead core id part back => Sys2Proof.Machine.execGlobalLoadRead core id part back s
  | .tileLanding core id => Sys2Proof.Machine.execTileLanding core id s
  | .mstcLanding core id => Sys2Proof.Machine.execMstcLanding core id s
  | .scaleLanding core id => Sys2Proof.Machine.execScaleLanding core id s
  | .fillComplete core id => Sys2Proof.Machine.execFillComplete core id s
  | .parkWrite core id => Sys2Proof.Machine.execParkWrite core id s
  | .markOverdue core => Sys2Proof.Machine.execMarkOverdue core s
  | .drainComplete core => Sys2Proof.Machine.execDrainComplete core s
  | .pageWalk die id => Sys2Proof.Machine.execPageWalk die id s
  | .translate core => Sys2Proof.Machine.execTranslate core s
  | .dataError core e site => Sys2Proof.Machine.execDataError core e site s
  | .correctedEvent core source unit => Sys2Proof.Machine.execCorrectedEvent core source unit s
  -- engines
  | .jobBegin die id => Sys2Proof.Machine.execJobBegin die id s
  | .copySector die id => Sys2Proof.Machine.execCopySector die id s
  | .bankProductSector die id => Sys2Proof.Machine.execBankProductSector die id s
  | .jobFault core => Sys2Proof.Machine.execJobFault core s
  -- synchronisation
  | .wake core => Sys2Proof.Machine.execWake core s
  | .txwake core => Sys2Proof.Machine.execTxwake core s
  | .release launch g => Sys2Proof.Machine.execRelease launch g s
  -- command processor
  | .doorbell vf die q prod => Sys2Proof.Machine.execDoorbell vf die q prod s
  | .queueEnable vf die q => Sys2Proof.Machine.execQueueEnable vf die q s
  | .queueDisable vf die q => Sys2Proof.Machine.execQueueDisable vf die q s
  | .queueErrorClear vf die q cons => Sys2Proof.Machine.execQueueErrorClear vf die q cons s
  | .queueCreate vf die q prio => Sys2Proof.Machine.execQueueCreate vf die q prio s
  | .waitWordPoll die q => Sys2Proof.Machine.execWaitWordPoll die q s
  | .nopPacket die q => Sys2Proof.Machine.execNopPacket die q s
  | .unassignedPacket die q => Sys2Proof.Machine.execUnassignedPacket die q s
  | .launchPacket die q => Sys2Proof.Machine.execLaunchPacket die q s
  | .launchStart launch => Sys2Proof.Machine.execLaunchStart launch s
  | .launchRetire launch => Sys2Proof.Machine.execLaunchRetire launch s
  | .graphPacket die q => Sys2Proof.Machine.execGraphPacket die q s
  | .conditionalNode inst node => Sys2Proof.Machine.execConditionalNode inst node s
  | .graphRegister die id version nodes => Sys2Proof.Machine.execGraphRegister die id version nodes s
  | .copySubmission die q => Sys2Proof.Machine.execCopySubmission die q s
  | .copySubmissionRetire id => Sys2Proof.Machine.execCopySubmissionRetire id s
  | .forwardedPacket die q seq packet => Sys2Proof.Machine.execForwardedPacket die q seq packet s
  | .slotInstall die slot epoch period entry => Sys2Proof.Machine.execSlotInstall die slot epoch period entry s
  | .slotOpen die slot => Sys2Proof.Machine.execSlotOpen die slot s
  | .slotOverrun die slot => Sys2Proof.Machine.execSlotOverrun die slot s
  | .segmentLineArrival core => Sys2Proof.Machine.execSegmentLineArrival core s
  | .saveRecord core => Sys2Proof.Machine.execSaveRecord core s
  | .resume core => Sys2Proof.Machine.execResume core s
  | .serviceResume core => Sys2Proof.Machine.execServiceResume core s
  | .skip core => Sys2Proof.Machine.execSkip core s
  | .rollback core => Sys2Proof.Machine.execRollback core s
  | .abort launch => Sys2Proof.Machine.execAbort launch s
  | .policyDeadline core => Sys2Proof.Machine.execPolicyDeadline core s
  | .shootdown vf base len pages => Sys2Proof.Machine.execShootdown vf base len pages s
  | .shootdownComplete vf => Sys2Proof.Machine.execShootdownComplete vf s
  | .imageLoad vf handle base len container => Sys2Proof.Machine.execImageLoad vf handle base len container s
  -- remeasurement and map changes
  | .claim u => Sys2Proof.Machine.execClaim u s
  | .testStart u => Sys2Proof.Machine.execTestStart u s
  | .testEnd u r => Sys2Proof.Machine.execTestEnd u r s
  | .evacuationTimeout launch => Sys2Proof.Machine.execEvacuationTimeout launch s
  | .mapChange die => Sys2Proof.Machine.execMapChange die s
  | .recompileDone image base len container => Sys2Proof.Machine.execRecompileDone image base len container s
  -- debug path
  | .debugStopRequest core => Sys2Proof.Machine.execDebugStopRequest core s
  | .debugStop core => Sys2Proof.Machine.execDebugStop core s
  | .debugResume core => Sys2Proof.Machine.execDebugResume core s
  | .debugStateWrite core loc v => Sys2Proof.Machine.execDebugStateWrite core loc v s
  | .registerWrite target v => Sys2Proof.Machine.execRegisterWrite target v s
  | .vecctlWrite vf v x => Sys2Proof.Machine.execVecctlWrite vf v x s
  | .vectorAgeExpiry vf v => Sys2Proof.Machine.execVectorAgeExpiry vf v s
  -- firmware
  | .firmwareStaged ctrl img => Sys2Proof.Machine.execFirmwareStaged ctrl img s
  | .handover ctrl => Sys2Proof.Machine.execHandover ctrl s
  | .alive ctrl => Sys2Proof.Machine.execAlive ctrl s
  | .probationDeadline ctrl => Sys2Proof.Machine.execProbationDeadline ctrl s
  | .firmwareRollback ctrl reason => Sys2Proof.Machine.execFirmwareRollback ctrl reason s
  | .partitionChange vf dies => Sys2Proof.Machine.execPartitionChange vf dies s
  | .pageAllocation vf stack whole pages => Sys2Proof.Machine.execPageAllocation vf stack whole pages s
  | .evidenceRequest vf nonce => Sys2Proof.Machine.execEvidenceRequest vf nonce s
  -- worlds and protected traffic
  | .frameTableWrite core epoch period entries args => Sys2Proof.Machine.execFrameTableWrite core epoch period entries args s
  | .frameOpen core entry => Sys2Proof.Machine.execFrameOpen core entry s
  | .frameClose core entry => Sys2Proof.Machine.execFrameClose core entry s
  | .clear core => Sys2Proof.Machine.execClear core s
  | .keySlotWrite core slot bits => Sys2Proof.Machine.execKeySlotWrite core slot bits s
  | .flitGroupSeal stream => Sys2Proof.Machine.execFlitGroupSeal stream s
  | .keyExhaustedTimeout stream => Sys2Proof.Machine.execKeyExhaustedTimeout stream s
  | .pendingKeyProgram stream secret => Sys2Proof.Machine.execPendingKeyProgram stream secret s
  | .flitReceive stream src secret epoch pn => Sys2Proof.Machine.execFlitReceive stream src secret epoch pn s
  | .portRetrain port => Sys2Proof.Machine.execPortRetrain port s
  | .timeSync gm18 gm19 ppm => Sys2Proof.Machine.execTimeSync gm18 gm19 ppm s
  | .pkgstatUpdate power tin tjmax => Sys2Proof.Machine.execPkgstatUpdate power tin tjmax s
  | .boot layers secondRoot => Sys2Proof.Machine.execBoot layers secondRoot s
  | .fabricKeyHandover stream secret => Sys2Proof.Machine.execFabricKeyHandover stream secret s
  | .worldKeyInstall vf world => Sys2Proof.Machine.execWorldKeyInstall vf world s
  | .instructionLineRefetch core line => Sys2Proof.Machine.execInstructionLineRefetch core line s
  -- without operands; they stand last because the compiler numbers only so many constructors with fields
  | .ret => Sys2Proof.Machine.execRet s
  | .lexit => Sys2Proof.Machine.execLexit s
  | .halt => Sys2Proof.Machine.execHalt s
  | .grandmasterLoss => Sys2Proof.Machine.execGrandmasterLoss s

end Sys2Proof.Machine
end

