-- ==== Sys2Proof/Machine/Issue.lean ====
section
/-! DEFINITION. What a core does in one cycle: waits and their ends, the causes of a boundary (R307), segments (R300, R301), holds (R46), and
the issue of a bundle with everything that goes with it (R37, R57, R113, R116, R122, R184, R301, R320, R335). -/

namespace Sys2Proof.Machine

/-- The state after an instruction or event. -/
def State.run (s : State) (i : Instr) : State :=
  match exec i s with
  | .next t => t
  | _ => s

/-! ## Before issue -/

/-- The segment of the pc becomes current, or its copy into the other frame begins (R300, R301). -/
def State.segmentStep (s : State) (n : Nat) : State :=
  match s.imageOf n with
  | none => s
  | some i =>
    match i.segOf (s.core n).regs.pc.toNat with
    | none => s
    | some (k, _) =>
      s.updCore n (fun c =>
        let st := c.istore
        let at_ := if st.frame0 = some k then some 0 else if st.frame1 = some k then some 1
          else (st.copying.find? (fun x => x.seg == k)).map (fun x => x.frame)
        match at_ with
        | some f => { c with istore := { st with current := f } }
        | none => { c with istore := st.startCopy i k (1 - st.current) })

/-- One held cycle counts for its cause (R46); the first of a kind gives the address of its record (R329). -/
def Held.count (h : Held) (k : HoldCause) (a : Nat) : Held :=
  match k with
  | .bank => { h with bank := h.bank + 1 }
  | .segment => { h with segment := h.segment + 1, segAddr := if h.segment = 0 then a else h.segAddr }
  | .prepare => { h with prepare := h.prepare + 1 }
  | .shadow => { h with shadow := h.shadow + 1 }
  | .walk => { h with walk := h.walk + 1, walkAddr := if h.walk = 0 then a else h.walkAddr }

/-- Scalars and targets that count as written in the cycle in which issue begins or resumes take this cycle (R113, R116). -/
def Core.stamp (c : Core) (now : Nat) : Core :=
  { c with
    sLand := c.sLand.map (fun o => some (o.getD now))
    jReady := c.jReady.map (fun o => some (o.getD (now + 3))) }

/-- The bundle at the pc is held for this cycle. -/
def State.holdCycle (s : State) (n : Nat) (k : HoldCause) (a : Nat) : State :=
  s.updCore n (fun c =>
    let c := if k = .prepare then c.stamp s.now else c
    { c with held := c.held.count k a })

/-! ## Issue -/

/-- The order in which the slots of a bundle act. All of them read what the core held at issue, since no result lands in its own cycle
(R38, R57) and CORESTAT is read as it stood at issue (R11). The order shows in one point that the manual leaves open: `ls` acts before
`ct`, so a store in the `ls` slot of a FENCE, BARA or BARAW is among the stores that it performs (DESIGN CHOICE, log 7). -/
def slotOrder : List Slot := [.sa, .sb, .va, .vb, .mx, .sf, .ls]

/-- The instructions that a bundle runs: its `ct` always, the other slots unless they hold NOP. -/
def bundleProgram (b : Bundle) : List Instr :=
  (slotOrder.map (fun sl => b.at sl)).filter (fun i => match i with
    | .nop _ => false
    | _ => true) ++ [b.ct]

/-- What stands when a bundle issues: the records of its hold, a fresh locket's CYCLE, the stamps, the place to which a mark or a wait
refers, and the view of a launch's first bundle, which stands at the last write of every byte (R251). The record of the hold is written
first, so that a CSRR of CORESTAT in the same bundle reads its DEVIATED (log 7). -/
def State.beginIssue (s : State) (n : Nat) : State :=
  (s.flushHeld n (s.core n).regs.pc.toNat).updCore n (fun c =>
    let c := c.fillLocket.stamp s.now
    { c with
      view := if c.begun then c.view else ⟨s.writes, []⟩
      begun := true
      issued := some c.regs.stat
      locket := c.locket.map (fun k => { k with awaits := false })
      expand := none
      dbg := { c.dbg with pass := none }
      markLoops := c.regs.loops
      markPc := c.regs.pc.toNat })

/-- The SEGB bit of the bundle at p: the copy of the next segment (R301). -/
def State.segb (s : State) (n p : Nat) : State :=
  match s.imageOf n with
  | none => s
  | some i =>
    match i.segOf p with
    | none => s
    | some (_, g) =>
      let st := (s.core n).istore
      let flying := st.copying.any (fun x => x.seg == g.next)
      if g.next = 0xFFFF ∨ st.frame0 = some g.next ∨ st.frame1 = some g.next ∨ flying = true then s
      else s.updCore n (fun c => { c with istore := st.startCopy i g.next (1 - st.current) })

/-- The MARK bit of the bundle at p, which has issued (R33, R122). On a STEP the mark-distance count is reset at its issue, and not again
when the STEP completes (DESIGN CHOICE, log 45). -/
def State.marked (s : State) (n p : Nat) : State :=
  let s := s.updCore n (fun c => { c with markDist := 0 })
  let c := s.core n
  if c.wait.isSome then s.setCore n { c with waitMark := true }
  else if c.expanding s.now then
    if c.run != .running then s else s.setCore n { c with stopNext := c.stopNext <|> s.markLater n p false }
  else s.stopAtMark n p 1 false

/-- After the slots: the length of an expansion in a waiting bundle, SEGB, MARK and the single step. -/
def State.endIssue (s : State) (n p : Nat) (b : Bundle) : State :=
  let s := s.updCore n (fun c => match c.wait, c.expand with
    | some _, some (t, _) => { c with waitLen := max 1 (t - s.now) }
    | _, _ => c)
  let s := if b.segb then s.segb n p else s
  let s := if b.mark then s.marked n p else s
  s.updCore n (fun c =>
    let c := { c with issued := none }
    if c.dbg.stepping then { c with dbg := { c.dbg with req := c.dbg.req ||| 16, stepping := false } } else c)

/-- A bundle issues on core n (R57, R112). -/
def State.issue (s : State) (n : Nat) (b : Bundle) : State :=
  let p := (s.core n).regs.pc.toNat
  let s := { s.beginIssue n with cur := n }
  ((bundleProgram b).foldl State.run s).endIssue n p b

/-! ## The boundary -/

/-- A stop at a mark that waits for the end of an expansion gives way to a trap, and stays requested (R307); the seal of a frame stays due
(R401). -/
def Core.dropMark (c : Core) : Core :=
  match c.stopNext with
  | some (.mark _) => { c with stopNext := none }
  | _ => c

/-- The bundle at the pc, when no earlier cause stands: it traps, is held, meets a debug stop or issues (R307, R335). -/
def State.attempt (s : State) (n : Nat) : State :=
  let s := s.segmentStep n
  let c := s.core n
  match s.verdict n with
  | .trap t => s.takeTrap n t
  | .hold k a => if c.debugNow then s.debugStop n 0 else s.holdCycle n k a
  | .issue b => if c.debugNow || c.breakHits != 0 then s.debugStop n c.breakHits else s.issue n b

/-- A bundle boundary of core n (R307). -/
def State.boundary (s : State) (n : Nat) : State :=
  let c := s.core n
  match c.pendNow with
  | some p => (s.setCore n c.dropMark).takePend n p
  | none =>
    if c.failed then (s.setCore n c.dropMark).stopTranslate n
    else match c.stopNext with
      | some w => (s.setCore n { c with stopNext := none }).beginStop n w
      | none => s.attempt n

/-- A cycle of a wait: what interrupts it, or its end (R124, R129, R131, R307, R336). -/
def State.waitCycle (s : State) (n : Nat) : State :=
  let c := s.core n
  match c.pendNow, c.stopNext with
  | some p, _ => s.takePend n p
  | none, some w =>
    ((s.waitRecord n (c.schedule - (c.waitSch + c.waitLen))).updCore n (fun c =>
      { c with stopNext := none, wait := none, wakeAt := none, waitMark := false })).beginStop n w
  | none, none =>
    if c.failed then s.stopTranslate n
    else if c.debugNow then s.debugStop n 0
    else match c.wait with
      | some (.step _) => match c.wakeAt with
        | some t => if t ≤ s.now then s.endWait n else s
        | none => s
      | some (.clasp _) => s.run (.wake n)
      | some (.tx _ _) => s.run (.txwake n)
      | none => s

/-- The start of a cycle on a core that waits: the wait goes on or ends, and the next bundle may issue in the same cycle. -/
def State.waitCore (s : State) (n : Nat) : State :=
  let c := s.core n
  if c.run == .running && c.wait.isSome && !c.expanding s.now then s.waitCycle n else s

/-- One cycle of core n before its CYCLE advances. -/
def State.issueCore (s : State) (n : Nat) : State := if (s.core n).atBoundary s.now then s.boundary n else s

/-! ## Starting and resuming -/

/-- A core whose start cycle has come begins, once no record of its launch waits to be loaded (R281, R319); it reads the present HMVER and
LATCLS (R37). -/
def State.startCore (s : State) (n : Nat) : State :=
  let c := s.core n
  match c.run, s.launchOf n with
  | .starting t, some (_, x) =>
    if t ≤ s.now ∧ (find? x.saves (32 * c.rrow + c.rcol)).isNone then
      (s.setCore n { c with run := .running, markDist := 0 }).readHallmark n
    else s
  | _, _ => s

/-- A core that resumes walks its fault list first; a failure stops it once more with the same index (R314), after a cause that R307 puts
before it. -/
def State.resumeCore (s : State) (n : Nat) : State :=
  let c := s.core n
  if c.run = .resuming ∧ c.walksDone = true then
    if c.failed then match c.pendNow with
      | some p => s.takePend n p
      | none => s.takeTrap n { c.translateRec with index := c.regs.pc.toNat }
    else match c.stopNext with
      | some w => s.setCore n { c with run := .draining, stop := some w, stopNext := none }
      | none => (s.readHallmark n).returnTo n c.regs.pc.toNat
  else s

/-- The end of a cycle in which core n runs: CYCLE and the mark distance advance (R33, R37). -/
def Core.tick (c : Core) : Core :=
  if c.run = .running then { c with regs := { c.regs with cycle := c.regs.cycle + 1 }, markDist := c.markDist + 1 } else c

end Sys2Proof.Machine
end

