-- ==== Sys2Proof/Machine/Cycle.lean ====
section
/-! DEFINITION. One cycle of the package: what comes due at its start, the issue of every core, the moves of the engines, the barrier
monitors, what the command processors and the firmware do, and the advance of time (R6). The manual gives no time for several of these;
where it gives none, a choice that is drawn (log 2) holds an event back for the cycle when it is not 0. -/

namespace Sys2Proof.Machine

/-- Runs instructions in order. -/
def State.runAll (s : State) (l : List Instr) : State := l.foldl State.run s

/-- Runs instructions now, or not in this cycle when the choice drawn says so. -/
def State.perhaps (s : State) (l : List Instr) : State :=
  match l with
  | [] => s
  | l =>
    let (d, s) := s.draw
    if d = 0 then s.runAll l else s

/-- The numbers of the cores that State lists, rising. -/
def State.coreList (s : State) : List Nat := s.cores.map (fun e => e.1)

/-! ## The start of a cycle -/

/-- Writes of control and status registers that issued in the last cycle take effect (R29, R134). -/
def Core.writeCsrs (c : Core) : Core :=
  { c with
    csrw := []
    regs := { c.regs with stat := c.csrw.foldl (fun t e => if e.1 = 1 then coreStatWrite t e.2 else t) c.regs.stat } }

/-- What lands in core n in this cycle (R38, R194, R205, R232, R233). -/
def Core.landings (c : Core) (n now : Nat) : List Instr :=
  (c.results.filter (fun r => decide (r.land ≤ now))).map (fun r => .resultLanding n r.id) ++
  (c.tiles.filter (fun r => decide (r.land ≤ now))).map (fun r => .tileLanding n r.id) ++
  (c.mstcs.filter (fun r => decide (r.due ≤ now))).map (fun r => .mstcLanding n r.id) ++
  (c.scales.filter (fun r => decide (r.due ≤ now))).map (fun r => .scaleLanding n r.id) ++
  (c.fills.filter (fun r => decide (r.due ≤ now))).map (fun r => .fillComplete n r.id) ++
  (c.parks.filter (fun r => decide (r.due ≤ now))).map (fun r => .parkWrite n r.id)

/-- The parts of global loads that core n may read in this cycle, as (load, part) (R243). -/
def Core.dueParts (c : Core) (now : Nat) : List (Nat × Nat) :=
  (c.loads.filter (fun l => l.kind == .load && l.trans.ready)).flatMap (fun l =>
    ((List.range l.parts.length).filter (fun i => match l.parts[i]? with
      | some p => !p.got && decide (p.due ≤ now)
      | none => false)).map (fun i => (l.id, i)))

/-- The reads of core n, each at a point of the history that is drawn (R243). -/
def State.readParts (s : State) (n : Nat) : State :=
  ((s.core n).dueParts s.now).foldl (fun (s : State) e =>
    let (back, s) := s.draw
    s.run (.globalLoadRead n e.1 e.2 back)) s

/-- Long-pending results that land in this cycle (R41). -/
def Core.dueLoads (c : Core) (n now : Nat) : List Instr :=
  (c.loads.filter (fun l => match l.land with
    | some t => decide (t ≤ now)
    | none => false)).map (fun l => .longPendingLanding n l.id)

/-- The start of a cycle on core n. -/
def State.landCore (s : State) (n : Nat) : State :=
  let c := s.core n
  let s := if c.csrw.isEmpty then s else s.updCore n Core.writeCsrs
  let s := s.runAll (c.landings n s.now)
  let s := s.readParts n
  s.runAll ((s.core n).dueLoads n s.now)

/-- Page walks of a die that end in this cycle (R311). -/
def State.dueWalks (s : State) (d : Nat) : List Instr :=
  ((s.die d).walks.filter (fun w => decide (w.due ≤ s.now))).map (fun w => .pageWalk d w.id)

/-- Releases that are due (R124). -/
def State.dueReleaseList (s : State) : List Instr :=
  s.launches.flatMap (fun e => (e.2.relAt.filter (fun r => decide (r.2 ≤ s.now))).map (fun r => .release e.1 r.1))

/-- Frame edges of a core, closing ones first (R400, R401). -/
def Core.frameEvents (c : Core) (n : Nat) : List Instr :=
  if c.framed then
    (List.range c.frames.entries.length).map (fun k => .frameClose n k) ++
      (List.range c.frames.entries.length).map (fun k => .frameOpen n k)
  else []

/-- What a core that drains, has stopped or is to resume waits for (R47, R318, R319). -/
def Core.stopEvents (c : Core) (n : Nat) : List Instr :=
  match c.run with
  | .draining => [.drainComplete n]
  | .stopped => if c.stop.isSome then [.drainComplete n, .saveRecord n] else []
  | .starting _ => [.resume n]
  | _ => []

/-- What stops, starts and resumes on core n at the start of a cycle. -/
def State.wakeCore (s : State) (n : Nat) : State :=
  let s := s.runAll ((s.core n).frameEvents n)
  let s := s.runAll ((s.core n).stopEvents n)
  (s.resumeCore n).startCore n

/-- The start of a cycle; the order of the cores is drawn (log 7). -/
def State.openCycle (s : State) : State :=
  let (order, s) := s.shuffle s.coreList
  let s := order.foldl (fun (s : State) n => s.landCore n) s
  let s := [0, 1, 2, 3].foldl (fun (s : State) d => s.runAll (s.dueWalks d)) s
  let s := s.runAll s.dueReleaseList
  order.foldl (fun (s : State) n => (s.wakeCore n).waitCore n) s

/-! ## The engines -/

/-- Jobs of a die that may begin (R266). -/
def State.beginJobs (s : State) (d : Nat) : State :=
  s.runAll (((s.die d).jobs.filter (fun j => j.state == .waiting && decide (j.due ≤ s.now))).map (fun j => .jobBegin d j.id))

/-- The moves of the jobs of a die: channels 0 to 15, then the bank queues (R254). Whether a job moves in this cycle is drawn: no rule gives a
Sector move its time (R242). -/
def State.moveJobs (s : State) (d : Nat) : State :=
  (sortBy (fun a b => decide (a.queue ≤ b.queue)) ((s.die d).jobs.filter (fun j => j.state == .running))).foldl (fun (s : State) j =>
    let (k, s) := s.draw
    if k % 2 = 1 then s
    else s.run (if tplBank j.tpl then .bankProductSector d j.id else .copySector d j.id)) s

/-- Faults of jobs reach their cores (R275). -/
def State.faultJobs (s : State) (d : Nat) : State :=
  s.runAll ((distinct (((s.die d).jobs.filter (fun j => j.state == .stopped && j.fault.isSome)).map (fun j => j.core))).map
    (fun n => .jobFault n))

def State.engines (s : State) : State :=
  [0, 1, 2, 3].foldl (fun (s : State) d => ((s.beginJobs d).moveJobs d).faultJobs d) s

/-! ## Instruction fetch -/

/-- Lines that core n may refetch: the pc's, the eight after it and the prepared targets (R369). -/
def Core.refetchable (c : Core) (p : Nat) : Bool :=
  let pc := c.regs.pc.toNat
  (decide (pc ≤ p) && decide (p ≤ pc + 8)) || c.regs.jt.toList.any (fun t => t.toNat == p)

/-- Lines of segment copies and refetched lines that arrive on core n (R301, R369). -/
def State.fetchCore (s : State) (n : Nat) : State :=
  let c := s.core n
  let s := if c.istore.copying.isEmpty then s else s.perhaps [.segmentLineArrival n]
  s.perhaps ((c.istore.invalid.filter c.refetchable).map (fun p => .instructionLineRefetch n p))

/-! ## Walks -/

/-- A page that some access waits for: (issue cycle, core, channel, virtual function, page) (R311). -/
abbrev WalkWant := Nat × Nat × Nat × Nat × Nat

/-- The pages that the accesses of core n wait for. -/
def State.coreWants (s : State) (n : Nat) : List WalkWant :=
  let c := s.core n
  let of := fun (t : Trans) => t.waits.map (fun v => ((t.issued, n, 0, s.vfOf n, v) : WalkWant))
  c.loads.flatMap (fun l => of l.trans) ++ c.queue.flatMap (fun e => of e.trans) ++
    c.istore.waits.map (fun e => (e.2, n, 0, s.vfOf n, e.1))

/-- The pages that the jobs of a die wait for. -/
def State.jobWants (s : State) (d : Nat) : List WalkWant :=
  (s.die d).jobs.filterMap (fun j => j.wvpn.map (fun v => (j.started, j.core, j.queue + 1, s.vfOf j.core, v)))

/-- The order in which walks begin: issue cycle, core, channel (R311). -/
def wantLess (a b : WalkWant) : Bool :=
  decide (a.1 < b.1) || (a.1 == b.1 && (decide (a.2.1 < b.2.1) || (a.2.1 == b.2.1 && decide (a.2.2.1 ≤ b.2.2.1))))

/-- Two page numbers of a virtual function lie in one page (R311). -/
def State.samePage (s : State) (vf u v : Nat) : Bool := walkServes u (s.pageOf vf (4096 * u)) v

/-- A walk begins unless one for the page runs, 256 run already, or the page lies in a range whose shootdown is open (R311, R315). -/
def State.beginWalk (s : State) (d : Nat) (w : WalkWant) : State :=
  let (_, n, _, vf, v) := w
  let ws := (s.die d).walks
  if 256 ≤ ws.length || ws.any (fun x => x.vf == vf && s.samePage vf x.vpn v) || s.shotDown vf v then s
  else
    let (id, s) := s.fresh
    let (t, s) := s.draw
    s.updDie d (fun y => { y with walks := y.walks ++ [⟨id, vf, v, n, s.now + 1 + t⟩] })

/-- The walks that begin on a die in this cycle. -/
def State.beginWalks (s : State) (d : Nat) : State :=
  let wants := (s.coreList.filter (fun n => dieOf n == d)).flatMap (fun n => s.coreWants n) ++ s.jobWants d
  (sortBy wantLess wants).foldl (fun (s : State) w => s.beginWalk d w) s

/-! ## Command processors -/

/-- The queue has something for its instance to do (R383, R384). -/
def Queue.busy (x : Queue) : Bool :=
  match x.hand with
  | .none => (x.en && x.state == .run && x.cons != x.prod) || x.packet.isSome
  | .graph _ => true
  | _ => false

/-- The packet at the head of a queue, whatever it is (R277). -/
def headEvents (d q : Nat) : List Instr :=
  [.waitWordPoll d q, .unassignedPacket d q, .nopPacket d q, .launchPacket d q, .graphPacket d q, .copySubmission d q]

/-- A launch at the head of a queue that neither the thermal state, nor its die, nor a map change lets start: t_first does not count the
cycle (R298, R355, R416). -/
def State.headWaits (s : State) (d : Nat) (x : Queue) : Bool :=
  match x.packet with
  | some p => pkType p == 1 && (!s.cool || !s.serves d || s.imageHeld x.vf p)
  | none => false

/-- The wait word of the packet at the head is due: a microsecond has passed since its last read, or since the packet came to the head, or
an item has retired on the die (R280). -/
def State.pollDue (s : State) (x : Queue) : Bool := x.hand == .none && !x.ready && (x.due || decide (x.polled + 999 ≤ s.ns))

/-- A packet stands at the head that its instance has not read. -/
def Queue.unread (x : Queue) : Bool := x.packet.isNone && x.hand == .none && x.en && x.state == .run && x.cons != x.prod

/-- The head of a queue has been eligible for 150 cycles, which t_first grants the instance (R298), or it has stood there unread as long, so
that it may have been. -/
def State.headLate (s : State) (d q : Nat) : Bool :=
  ((s.eligible d q).isSome || (s.queue d q).unread) && decide ((s.queue d q).since + 150 ≤ s.now)

/-- One queue's turn: its instance acts when the choice drawn says so, and no later than R280 and R298 allow. -/
def State.serveQueue (s : State) (d q : Nat) : State :=
  let s := if s.headWaits d (s.queue d q) then s.updQueue d q (fun x => { x with since := s.now + 1 }) else s
  let s := if s.pollDue (s.queue d q) || ((s.queue d q).unread && s.headLate d q) then s.run (.waitWordPoll d q) else s
  if s.headLate d q then s.runAll (headEvents d q) else s.perhaps (headEvents d q)

/-- The queues' turn. -/
def State.serveQueues (s : State) : State :=
  s.queues.foldl (fun (s : State) e => if e.2.busy then s.serveQueue (e.1 / 32) (e.1 % 32) else s) s

/-- The conditional nodes' turn (R294). -/
def State.serveNodes (s : State) : State :=
  s.runs.foldl (fun (s : State) e =>
    s.perhaps (((List.range e.2.nodes.length).filter (fun k => nth .retired e.2.nodes k == .active)).map (fun k => .conditionalNode e.1 k))) s

/-- Copies that end, launches that start and retire, slots, shootdowns and vectors (R279, R281, R290, R295, R297, R315, R387). -/
def State.packageEvents (s : State) : List Instr :=
  (s.copies.filter (fun e => decide (e.2.due ≤ s.now))).map (fun e => .copySubmissionRetire e.1) ++
  s.launches.map (fun e => .launchRetire e.1) ++
  [0, 1, 2, 3].flatMap (fun d => (s.die d).table.slots.flatMap (fun e => [.slotOverrun d e.1, .slotOpen d e.1])) ++
  (s.launches.filter (fun e => e.2.waits)).map (fun e => .launchStart e.1) ++
  [0, 1, 2, 3].flatMap (fun v => if (s.vf v).shoot.isSome then [.shootdownComplete v] else []) ++
  [0, 1, 2, 3].flatMap (fun v => (List.range 16).flatMap (fun k =>
    if 0 < (vget (s.vf v).vecs k Vec.zero).pend then [.vectorAgeExpiry v k] else []))

/-! ## Firmware -/

/-- Deadlines that have passed, and the rollbacks under way (R323, R353, R390, R391, R407). -/
def State.deadlines (s : State) : List Instr :=
  s.cores.flatMap (fun e => if e.2.trapped.isSome then
      (if e.2.stopNext = some .rollback then [.rollback e.1] else []) ++
        (if e.2.stopAt + 1000000 ≤ s.ns then [.policyDeadline e.1] else [])
    else []) ++
  (s.launches.filter (fun e => e.2.live)).map (fun e => .evacuationTimeout e.1) ++
  (s.firmware.filter (fun e => e.2.state == .probation)).map (fun e => .probationDeadline e.1) ++
  (s.streams.filter (fun e => e.2.state == .exhausted)).map (fun e => .keyExhaustedTimeout e.1)

/-- Services that a cause lists alone, which the scheduler applies in its own time (R390). -/
def State.soleServices (s : State) : State :=
  s.cores.foldl (fun (s : State) e => s.perhaps (s.soleService e.1).toList) s

/-- What waited at a port that is up again comes in, in its order; at a port that is DOWN it is lost (R410). -/
def State.flushIn (s : State) : State :=
  let go := s.portIn.filter (fun e => (s.portLink e.1).up)
  State.runAll { s with portIn := s.portIn.filter (fun e => (s.portLink e.1).state = 1) } (go.map (fun e => e.2))

/-- Ports that train come up within their lanes, in a time that the standards give (R408, R410), and their traffic goes on. -/
def State.trainPorts (s : State) : State :=
  (s.ports.foldl (fun (s : State) e => if e.2.state = 1 then s.perhaps [.portRetrain e.1] else s) s).flushOut.flushIn

/-- Claims and tests that may begin (R347, R348). -/
def State.remeasure (s : State) : State :=
  s.units.foldl (fun (s : State) e => if e.2.state == .scheduled then s.perhaps [.claim e.1, .testStart e.1] else s) s

/-- The reports of a map change are due: no later than 1 ms after the publication (R353 step 9). -/
def MapChange.late (c : MapChange) (ns : Nat) : Bool := c.step == 6 && decide (c.began + 990000 ≤ ns)

/-- Map changes that are under way or called for (R353). -/
def State.mapSteps (s : State) : State :=
  [0, 1, 2, 3].foldl (fun (s : State) d =>
    if (s.die d).change.late s.ns then s.run (.mapChange d)
    else if (s.die d).change.step ≠ 0 ∨ (s.changing d).isEmpty = false then s.perhaps [.mapChange d] else s) s

/-! ## The end of a cycle -/

/-- The reservation table keeps what is held beyond this cycle (R252), and CYCLE advances. -/
def Core.endCycle (c : Core) (now : Nat) : Core := { c with rsv := c.rsv.filter (fun r => decide (now < r.last)) }.tick

/-- The time base advances by one cycle of 1.1 GHz at its present rate (R6, R412). -/
def TimeBase.tick (t : TimeBase) : TimeBase := { t with units := t.units + (10 * (1000000 + t.ppm)).toNat }

/-- The end of a cycle. -/
def State.finishCycle (s : State) : State :=
  let s := s.coreList.foldl (fun (s : State) n => s.txEnd n) s
  let s := s.launches.foldl (fun (s : State) e => s.dueReleases e.1) s
  let s := [0, 1, 2, 3].foldl (fun (s : State) d => s.beginWalks d) s
  let s := s.coreList.foldl (fun (s : State) n => s.updCore n (fun c => c.endCycle s.now)) s
  { s with now := s.now + 1, time := s.time.tick }

/-- One cycle of the package, up to the start of the next: between two steps everything that lands in the present cycle has landed and
no bundle of it has issued. A service returns a core at the start of a cycle, so that the bundle it resumes at issues in that cycle with the
CYCLE and the mark distance that the service leaves (R33, R37, R320). -/
def State.cycle (s : State) : State :=
  let (order, s) := s.shuffle s.coreList
  let s := order.foldl (fun (s : State) n => s.issueCore n) s
  let s := s.engines
  let s := s.coreList.foldl (fun (s : State) n => (s.fetchCore n).linkCore n) s
  let s := s.serveQueues.serveNodes
  let s := s.runAll s.packageEvents
  let s := s.trainPorts.remeasure.mapSteps
  let s := s.finishCycle.openCycle
  (s.runAll s.deadlines).soleServices

/-- The first event that is due, and the others (log 2). -/
def takeInput (now : Nat) : List Input → Option (Instr × List Input)
  | [] => none
  | e :: rest => if e.cycle ≤ now then some (e.event, rest) else none

/-- One step of the package: the next event from outside that is due, or a cycle. -/
def State.advanceOnce (s : State) : Host.Outcome State Fault Refusal :=
  match takeInput s.now s.inputs with
  | some (i, rest) => exec i { s with inputs := rest }
  | none => .next s.cycle

/-! ## Placing an instruction -/

/-- The line of a bundle from a table word: its 64 bytes, the bits above `nbits` zero. -/
def fetchLine (nbits w : Nat) : Line := BitVec.ofNat 512 (w % 2 ^ nbits)

/-- An image of lines with the given line at every index. -/
def fetchImage (l : Line) (p : Nat) : Image where
  serial := 1
  version := 1
  entry := p
  nlines := p + 2
  rectw := 1
  recth := 1
  rectc := 0
  rectr := 0
  parkmap := 0
  flen := 0
  code := List.replicate (p + 2) l
  pools := []
  bound := 0
  marks := []
  templates := []
  data := []
  regions := []
  groups := []
  segments := []
  classes := []
  latency := [0]
  resume := []
  chesol := false
  base := 0
  valid := true
  latOnly := false
  stamps := []
  stale := []

/-- Core 0 runs a launch whose image holds the line where its pc stands, so that the next step issues it (log 1). -/
def State.placeLine (s : State) (l : Line) : State :=
  let p := (s.core 0).regs.pc.toNat
  let s := { s with inputs := [] }
  let s := s.updVf 0 (fun f => { f with images := put f.images 0 (fetchImage l p) })
  let s := s.setLaunch 0
    { vf := 0, origin := .queue 0 0, prio := 0, packet := 0, image := 0, col0 := 0, row0 := 0, wm1 := 0, hm1 := 0, cores := [(0, 0, 0)],
      imode := false, state := .running, start := some s.now, began := s.now, since := s.now, binds := [], clasps := [], arrived := [], relAt := [],
      code := 0, aborted := false, saves := [], evac := false, args := (0, 0) }
  s.updCore 0 (fun c => { c with run := .running, launch := some 0, wait := none, stop := none, expand := none, istore := IStore.empty })

end Sys2Proof.Machine
end

