-- ==== Sys2Proof/Machine/Step.lean ====
section
/-! DEFINITION. The step of the package and the placing of one instruction where it fetches its next one. -/

namespace Sys2Proof.Machine

/-- One step: an event from outside that is due is taken, or the package runs one cycle. -/
def step (s : State) : Host.Outcome State Fault Refusal := s.advanceOnce

/-- s with the bundle of a table word where core 0 issues next (log 1). -/
def State.withFetchWord (s : State) (nbits w : Nat) : State := s.placeLine (fetchLine nbits w)

end Sys2Proof.Machine
end

