-- ==== Sys2Proof/Safety.lean ====
section
/-! DEFINITION. What a safe run is, and the terms in which the statements are made: the state after a slot has recorded a result
(R38, R42), after the sequencer has moved (R112), and what a step leaves alone. -/

namespace Sys2Proof.Machine

/-- The memories of a core are in canonical form. -/
def Core.memoriesOk (c : Core) : Bool := Memory.wf c.bufA && Memory.wf c.bufC && Memory.wf c.bufW

/-- Every memory of the package is in canonical form. -/
def State.MemoriesOk (s : State) : Prop :=
  Memory.wf s.mem = true ∧ Memory.wf s.host = true ∧ (∀ d, Memory.wf (s.die d).commons = true) ∧ ∀ n, (s.core n).memoriesOk = true

/-- k steps from s all end in next states. -/
def State.RunsFor (s : State) : Nat → Prop
  | 0 => True
  | k + 1 => ∃ t, step s = .next t ∧ t.RunsFor k

/-- A safe run: it never stops. -/
def State.Safe (s : State) : Prop := ∀ k, s.RunsFor k

/-! ## Exact values -/

/-- (-1)^neg * m * 2^e, the number of a finite value (R83). -/
def ratOf (neg : Bool) (m : Nat) (e : Int) : Rat := (if neg then -1 else 1) * (m : Rat) * (2 : Rat) ^ e

/-- The magnitude of the finite pattern a (R83). -/
def FFmt.mag (f : FFmt) (a : Nat) : Rat :=
  let q := f.params
  if a / 2 ^ q.p = 0 then ratOf false (a % 2 ^ q.p) (1 - (q.bias : Int) - q.p)
  else ratOf false (2 ^ q.p + a % 2 ^ q.p) ((a / 2 ^ q.p : Nat) - (q.bias : Int) - q.p)

/-- The least magnitude that rounds to infinity: halfway past the largest finite one (R95). -/
def FFmt.overflow (f : FFmt) : Rat :=
  let q := f.params
  (2 - (2 : Rat) ^ (-(q.p : Int) - 1)) * (2 : Rat) ^ (2 ^ q.eb - 2 - (q.bias : Int))

/-- A magnitude, of which `le μ` says that it is at most μ and `ge μ` that it is at least μ, lies between the midpoints of the finite pattern a
and every other finite pattern; so no finite pattern is nearer to it. -/
def FFmt.Between (f : FFmt) (le ge : Rat → Prop) (a : Nat) : Prop :=
  a ≤ f.maxFinite ∧ ∀ b, b ≤ f.maxFinite →
    (a < b → le ((f.mag a + f.mag b) / 2)) ∧ (b < a → ge ((f.mag a + f.mag b) / 2))

/-- y is the pattern that the magnitude rounds to, ties to even (R95). -/
def FFmt.Rounds (f : FFmt) (le ge : Rat → Prop) (y : Nat) : Prop :=
  (f.hasInf = true → ge f.overflow → y = f.infPattern) ∧
  (¬ (f.hasInf = true ∧ ge f.overflow) → f.Between le ge y ∧ ∀ b, b ≤ f.maxFinite → b ≠ y →
    le ((f.mag y + f.mag b) / 2) → ge ((f.mag y + f.mag b) / 2) → y % 2 = 0)

/-- The sign bit of a pattern. -/
def FFmt.signBit (f : FFmt) (neg : Bool) : Nat := if neg then 2 ^ (f.width - 1) else 0

/-! ## Terms of the statements -/

/-- No unit of the core that i uses is out of service (R346). -/
def State.Serves (s : State) (i : Instr) : Prop := s.outOfService s.cur i = none

/-- s after the core `cur` has recorded a result of a slot on the given locations, landing `lat` cycles from now; nothing else
has changed (R38, R42). -/
def State.recorded (s : State) (slot lat : Nat) (locs : List LocRange) (v : ResVal) : State :=
  s.updCore s.cur (fun c => { c with
    nextId := c.nextId + 1
    results := c.results ++ [⟨c.nextId, c.regs.pc.toNat, slot, locs, s.now + lat, v⟩] })

/-- s after a slot has recorded the value v for scalar d; a write to s0 is discarded (R24). -/
def State.scalarSet (s : State) (slot lat : Nat) (d : BitVec 6) (v : Word) : State :=
  if d = 0 then s else s.recorded slot lat [⟨.scalar, d.toNat, 1⟩] (.scalar d.toNat v)

/-- s after a slot has recorded the value v for the condition half of steer register j (R25). -/
def State.condSet (s : State) (slot : Nat) (j : BitVec 6) (v : Bool) : State :=
  s.recorded slot 1 [⟨.cond, j.toNat, 1⟩] (.cond j.toNat v)

/-- s after a slot has recorded the value v for the half of mask k of a cluster, in all lanes; a write to k0 is discarded (R26). -/
def State.maskSet (s : State) (slot lat : Nat) (cl : Bool) (k : BitVec 6) (v : LaneMask) : State :=
  if k = 0 then s
  else s.recorded slot lat [⟨if cl then .maskB else .maskA, k.toNat, 1⟩] (.mask cl k.toNat v (BitVec.allOnes 256))

/-- t is s after a slot has recorded lane values for the slices of operand d of a cluster in the lanes of `en`: lane l takes the
4·w low bits of `f l` (R23, R38). -/
def State.LanesSet (s t : State) (slot lat : Nat) (cl : Bool) (d : SliceOp) (en : LaneMask) (f : Nat → Nat) : Prop :=
  ∃ lines : List SliceLine, lines.length = d.w ∧ (∀ l, l < 256 → laneOf lines l = f l % 2 ^ (4 * d.w)) ∧
    t = s.recorded slot lat [⟨if cl then .sliceB else .sliceA, d.start.toNat, d.w⟩] (.slices cl d.start.toNat en lines)

/-- The pattern of T that lane l of a slice operand holds (R93, R156). -/
def Core.elem (c : Core) (cl : Bool) (t : NumFmt) (o : SliceOp) (l : Nat) : Nat :=
  widen t o.w (laneOf (c.sliceLines cl o.start.toNat o.w) l)

/-- s after the sequencer of the core `cur` has moved to bundle p with the given loop stack (R112). -/
def State.movedTo (s : State) (p : Nat) (loops : List LoopEntry) : State :=
  s.updCore s.cur (fun c => { c with
    regs := { c.regs with pc := BitVec.ofNat 24 p, loops }
    istore := { c.istore with captured := nextCapture c.istore.captured c.regs.loops.length loops } })

/-- Core n stands at a bundle boundary on the line l, with nothing pending, its segment current and the mark distance not used up: what R76 checks
next is the bundle of l (R33, R76, R307). -/
def State.StandsAt (s : State) (n : Nat) (l : Line) : Prop :=
  (s.core n).atBoundary s.now = true ∧ (s.core n).pendNow = none ∧ (s.core n).failed = false ∧ (s.core n).stopNext = none ∧
    s.segmentStep n = s ∧ s.lineAt n (s.core n).regs.pc.toNat = .line l ∧ s.poolLine n (s.core n).regs.pc.toNat = false ∧
    ((s.core n).bound = 0 ∨ (s.core n).markDist < (s.core n).bound.toNat + 1)

/-- What no instruction that issues changes on its own core before its results land: the scalars, the steer registers, the masks,
the scale registers, the slices, the trap registers, TRAPPC to TRAPADDR, MODE, PREBOUND, PARKMAP, HMVER and LATCLS. -/
def Core.SameRegisters (c d : Core) : Prop :=
  d.regs.s = c.regs.s ∧ d.regs.jc = c.regs.jc ∧ d.regs.jt = c.regs.jt ∧ d.regs.kA = c.regs.kA ∧ d.regs.kB = c.regs.kB ∧
    d.regs.scaleA = c.regs.scaleA ∧ d.regs.scaleB = c.regs.scaleB ∧ d.sliceA = c.sliceA ∧ d.sliceB = c.sliceB ∧
    d.imode = c.imode ∧ d.bound = c.bound ∧ d.parkmap = c.parkmap ∧ d.trappc = c.trappc ∧ d.trapinfo = c.trapinfo ∧
    d.trapaddr = c.trapaddr ∧ d.hmver = c.hmver ∧ d.latcls = c.latcls

/-- The typed buffers of a core are unchanged. -/
def Core.SameBuffers (c d : Core) : Prop := d.bufA = c.bufA ∧ d.bufC = c.bufC ∧ d.bufW = c.bufW

/-- Every core but n, and the commons of every die, the global store and host memory are unchanged. -/
def State.SameElsewhere (s t : State) (n : Nat) : Prop :=
  (∀ m, m ≠ n → t.core m = s.core m) ∧ (∀ d, (t.die d).commons = (s.die d).commons) ∧ t.mem = s.mem ∧ t.host = s.host

/-- The commons of every die, the global store and host memory are unchanged. -/
def State.SameMemory (s t : State) : Prop :=
  (∀ d, (t.die d).commons = (s.die d).commons) ∧ t.mem = s.mem ∧ t.host = s.host

end Sys2Proof.Machine
end

