-- ==== Sys2Proof/Certificates/Slice0/Obligations.lean ====
section
/-! DEFINITION. The statements for the provers. Each says what the machine does; the docstring names the rules. -/

open Sys2Proof Sys2Proof.Machine

/-! ## Encoding -/

/-- Words written out from the encoding examples of the manual decode to the instructions they stand for (R56, R62 to R67). -/
def Obligations.ManualWordsDecode : Prop :=
  decodeSlot .ct 0x0210000000000040 = some (.prep 2 64) ∧
  decodeSlot .sa 0x0218828000000000 = some (.add .sa 3 4 5) ∧
  decodeSlot .va 0x0920000700870107 = some (.vfma .va 9 0 false ⟨0, 7⟩ ⟨8, 7⟩ ⟨16, 7⟩) ∧
  decodeSlot .vb 0x6120000700870107 = some (.vdiv 9 0 ⟨0, 7⟩ ⟨8, 7⟩ ⟨16, 7⟩) ∧
  decodeSlot .ls 0x060A00002000000F = some (.ldv 10 0 0x1000 false ⟨0, 15⟩) ∧
  decodeSlot .sf 0x0220030000000180 = some (.fill 4 3 0x180)

/-- The line that the encoder writes for a well-formed slot instruction reads back as the bundle of that instruction alone: every operand at
every value, NOP in the other slots, no attribute and no decode reason (R52 to R72). -/
def Obligations.EncodedInstructionsDecodeBack : Prop :=
  ∀ (i : Instr) (sl : Slot), slotOf i = some sl → WellFormed i →
    decodeLine (encode i) =
      { slots := allSlots.map (fun x => (x, some (if x = sl then i else .nop x))), bad := [], mark := false, segb := false }

/-- A slot word has one meaning: the instruction read from a word without a decode reason encodes to that word, its attribute bits in the control
slot apart (R53, R54, R72). A code that the opcode map does not list gives the OPCODE reason, stated for the control slot, whose codes end at
0x16 (R62). -/
def Obligations.EveryWordHasOneMeaning : Prop :=
  (∀ (sl : Slot) (w : Nat) (i : Instr), w < 2 ^ 64 → decodeSlot sl w = some i →
    slotOf i = some sl ∧ WellFormed i ∧ encodeWord i = slotBody sl w) ∧
  ∀ w : Nat, w < 2 ^ 64 → 0x16 < w / 2 ^ 57 → decodeSlot .ct w = none ∧ (slotReasons .ct w).opcode = true

/-! ## Steps -/

/-- A step takes the first event from outside that is due, and otherwise runs one cycle of the package; it never stops. A cycle begins with the
issue of every core, goes on with the engines, the fetch and the links, the command processors, the events of the package and the firmware, and ends
with the advance of time and what comes due at the start of the next cycle: landings, page walks, releases, the ends of stops and waits, and the
services of stopped cores (R6, R38, R57, R254). The queue of events is the model's own (log 2), and so is the order within a cycle where no rule
gives one, that of the cores being drawn (log 7). -/
def Obligations.StepTakesEventOrCycle : Prop :=
  ∀ s : State,
    (∀ (e : Input) (rest : List Input), s.inputs = e :: rest → e.cycle ≤ s.now →
      step s = exec e.event { s with inputs := rest }) ∧
    ((s.inputs = [] ∨ ∃ (e : Input) (rest : List Input), s.inputs = e :: rest ∧ s.now < e.cycle) →
      step s = .next (
        let o := s.shuffle s.coreList
        let a := (o.1.foldl (fun (t : State) n => t.issueCore n) o.2).engines
        let b := (a.coreList.foldl (fun (t : State) n => (t.fetchCore n).linkCore n) a).serveQueues.serveNodes
        let c := b.runAll b.packageEvents
        let d := (c.trainPorts.remeasure.mapSteps).finishCycle
        let e := d.shuffle d.coreList
        let f := [0, 1, 2, 3].foldl (fun (t : State) k => t.runAll (t.dueWalks k)) (e.1.foldl (fun (t : State) n => t.landCore n) e.2)
        let g := e.1.foldl (fun (t : State) n => (t.wakeCore n).waitCore n) (f.runAll f.dueReleaseList)
        (g.runAll g.deadlines).soleServices))

/-- A core whose pc stands on a line that holds a bundle of well-formed instructions, with nothing pending, no hazard, no hold and no trap at
issue, issues exactly the instructions of that line: `exec` of each that is not NOP, in slot order with the control slot last, between
`beginIssue` and `endIssue` (R57, R76, R112, R307). -/
def Obligations.StepIssuesTheDecodedBundle : Prop :=
  ∀ (s : State) (n : Nat) (l : Line),
    (s.core n).atBoundary s.now = true → (s.core n).pendNow = none → (s.core n).failed = false → (s.core n).stopNext = none →
    s.segmentStep n = s → s.lineAt n (s.core n).regs.pc.toNat = .line l → s.poolLine n (s.core n).regs.pc.toNat = false →
    ((s.core n).bound = 0 ∨ (s.core n).markDist < (s.core n).bound.toNat + 1) →
    (decodeLine l).bad = [] → (stepTwo (decodeLine l)).1 = 0 → s.hazards n (decodeLine l) = [] →
    ((decodeLine l).mark = false ∨ (s.core n).busy s.now = false) →
    s.holdOf n (decodeLine l) false = none → s.issueChecks n (decodeLine l) = none →
    (s.core n).debugNow = false → (s.core n).breakHits = 0 →
    s.issueCore n =
      State.endIssue ((bundleProgram (decodeLine l)).foldl State.run { s.beginIssue n with cur := n })
        n (s.core n).regs.pc.toNat (decodeLine l) ∧
    ∀ (i : Instr) (t t' : State), exec i t = .next t' → t.run i = t'

/-- Every instruction of a slot and every event has a next state: no bundle and no event ends the machine. -/
def Obligations.EveryInstructionHasANextState : Prop :=
  ∀ (i : Instr) (s : State), ∃ t, exec i s = .next t

/-! ## Invariants of every step, and reset -/

/-- The package time base never steps backwards (R412). -/
def Obligations.TimeNeverStepsBack : Prop :=
  ∀ s t : State, step s = .next t → s.ns ≤ t.ns

/-- Every memory of the package keeps its canonical form over a step: addresses rising, no listed zero. The form is the model's own. -/
def Obligations.MemoriesStayCanonical : Prop :=
  ∀ s t : State, s.MemoriesOk → step s = .next t → t.MemoriesOk

/-- After reset a core holds the values of R50 after power-on: pc 0, depth 0, every scalar, steer register, mask and slice zero, every buffer
byte zero, the trap registers zero, and it is idle (R50, R51). MODE.IMODE, PREBOUND and PARKMAP, to which R50 gives only their values at a
launch, are zero by the model's choice (log 4), and so is the canonical form in which every memory stands. -/
def Obligations.ResetHoldsTheStartValues : Prop :=
  State.reset.MemoriesOk ∧ ∀ n : Nat,
    let c := State.reset.core n
    c.run = .idle ∧ c.regs.pc = 0 ∧ c.regs.loops = [] ∧ (∀ r, c.sreg r = 0) ∧ (∀ j, c.cond j = false) ∧ (∀ j, c.target j = 0) ∧
      (∀ cl k, k ≠ 0 → c.mask cl k = 0) ∧ (∀ cl, c.mask cl 0 = BitVec.allOnes 256) ∧ (∀ cl i, c.slice cl i = 0) ∧
      (∀ b off, Memory.read (c.buf b) off = 0) ∧ c.imode = false ∧ c.bound = 0 ∧ c.parkmap = 0 ∧ c.trappc = 0 ∧
      c.trapinfo = 0 ∧ c.trapaddr = 0 ∧ c.regs.cycle = 0 ∧ c.results = [] ∧ c.rsv = [] ∧ c.queue = []

/-! ## Scalar slots -/

/-- The scalar instructions of two registers: which value each records for sd, and with which latency; nothing else changes (R136, R137, R141 to
R146, R151). -/
def Obligations.ScalarRegisterForms : Prop :=
  ∀ (u : ScalarSlot) (d x y : BitVec 6) (s : State),
    let X := (s.core s.cur).sreg x.toNat
    let Y := (s.core s.cur).sreg y.toNat
    let n := Y.toNat % 64
    let gives := fun (i : Instr) (lat : Nat) (v : Word) => exec i s = .next (s.scalarSet u.slot.index lat d v)
    gives (.add u d x y) 1 (BitVec.ofNat 64 (X.toNat + Y.toNat)) ∧
    gives (.sub u d x y) 1 (BitVec.ofInt 64 ((X.toNat : Int) - Y.toNat)) ∧
    gives (.mul u d x y) 3 (BitVec.ofNat 64 (X.toNat * Y.toNat)) ∧
    gives (.mulh u d x y) 3 ((X.signExtend 128 * Y.signExtend 128).extractLsb' 64 64) ∧
    gives (.mulhu u d x y) 3 ((X.zeroExtend 128 * Y.zeroExtend 128).extractLsb' 64 64) ∧
    gives (.min u d x y) 1 (if X.toInt ≤ Y.toInt then X else Y) ∧
    gives (.max u d x y) 1 (if X.toInt ≤ Y.toInt then Y else X) ∧
    gives (.minu u d x y) 1 (if X.toNat ≤ Y.toNat then X else Y) ∧
    gives (.maxu u d x y) 1 (if X.toNat ≤ Y.toNat then Y else X) ∧
    gives (.and u d x y) 1 (X &&& Y) ∧
    gives (.or u d x y) 1 (X ||| Y) ∧
    gives (.xor u d x y) 1 (X ^^^ Y) ∧
    gives (.shl u d x y) 1 (BitVec.ofNat 64 (X.toNat * 2 ^ n)) ∧
    gives (.shr u d x y) 1 (BitVec.ofNat 64 (X.toNat / 2 ^ n)) ∧
    gives (.sra u d x y) 1 (BitVec.ofInt 64 (X.toInt / (2 ^ n : Nat))) ∧
    ∀ sh : BitVec 6, sh.toNat ≤ 6 → gives (.agen u d x y sh) 1 (BitVec.ofNat 64 (X.toNat + Y.toNat * 2 ^ sh.toNat))

/-- Division and remainder: the quotient rounds toward zero, the remainder has the sign of the dividend, and the two borderline cases give the
values of the table (R143). -/
def Obligations.ScalarDivision : Prop :=
  ∀ (u : ScalarSlot) (d x y : BitVec 6) (s : State),
    let X := (s.core s.cur).sreg x.toNat
    let Y := (s.core s.cur).sreg y.toNat
    let gives := fun (i : Instr) (v : Word) => exec i s = .next (s.scalarSet u.slot.index 20 d v)
    (Y = 0 → gives (.div u d x y) (BitVec.allOnes 64) ∧ gives (.divu u d x y) (BitVec.allOnes 64) ∧
      gives (.rem u d x y) X ∧ gives (.remu u d x y) X) ∧
    (X.toInt = -(2 ^ 63 : Nat) → Y.toInt = -1 → gives (.div u d x y) X ∧ gives (.rem u d x y) 0) ∧
    (Y ≠ 0 → ∃ q r : Int, X.toInt = q * Y.toInt + r ∧ r.natAbs < Y.toInt.natAbs ∧ (r = 0 ∨ (r < 0 ↔ X.toInt < 0)) ∧
      gives (.div u d x y) (BitVec.ofInt 64 q) ∧ gives (.rem u d x y) (BitVec.ofInt 64 r)) ∧
    (Y ≠ 0 → gives (.divu u d x y) (BitVec.ofNat 64 (X.toNat / Y.toNat)) ∧
      gives (.remu u d x y) (BitVec.ofNat 64 (X.toNat % Y.toNat)))

/-- The scalar instructions with an immediate, the counts, the moves, SEL, the reads of sequencer and position state, and the compares, which
record the condition half of jd and leave its target half (R141, R145 to R154). -/
def Obligations.ScalarImmediateReadAndCompareForms : Prop :=
  (∀ (u : ScalarSlot) (d x y z : BitVec 6) (imm : BitVec 32) (amt : BitVec 6) (long : BitVec 48) (s : State),
    let c := s.core s.cur
    let X := c.sreg x.toNat
    let gives := fun (i : Instr) (lat : Nat) (v : Word) => exec i s = .next (s.scalarSet u.slot.index lat d v)
    gives (.addi u d x imm) 1 (BitVec.ofInt 64 (X.toNat + imm.toInt)) ∧
    gives (.andi u d x imm) 1 (X &&& BitVec.ofNat 64 imm.toNat) ∧
    gives (.ori u d x imm) 1 (X ||| BitVec.ofNat 64 imm.toNat) ∧
    gives (.xori u d x imm) 1 (X ^^^ BitVec.ofNat 64 imm.toNat) ∧
    gives (.shli u d x amt) 1 (BitVec.ofNat 64 (X.toNat * 2 ^ amt.toNat)) ∧
    gives (.shri u d x amt) 1 (BitVec.ofNat 64 (X.toNat / 2 ^ amt.toNat)) ∧
    gives (.srai u d x amt) 1 (BitVec.ofInt 64 (X.toInt / (2 ^ amt.toNat : Nat))) ∧
    gives (.movi u d long) 1 (BitVec.ofInt 64 long.toInt) ∧
    gives (.movih u d long) 1 (BitVec.ofNat 64 (long.toNat * 2 ^ 16)) ∧
    (∃ k : Nat, gives (.clz u d x) 2 (BitVec.ofNat 64 k) ∧ (X = 0 → k = 64) ∧
      (X ≠ 0 → k < 64 ∧ X.toNat < 2 ^ (64 - k) ∧ 2 ^ (64 - k) ≤ 2 * X.toNat)) ∧
    (∃ k : Nat, gives (.ctz u d x) 2 (BitVec.ofNat 64 k) ∧ (X = 0 → k = 64) ∧
      (X ≠ 0 → k < 64 ∧ X.toNat % 2 ^ k = 0 ∧ X.getLsbD k = true)) ∧
    gives (.popc u d x) 2 (BitVec.ofNat 64 ((List.range 64).filter (fun b => X.getLsbD b)).length) ∧
    (z.toNat < 12 → gives (.sel u d x y z) 1 (if c.cond z.toNat then X else c.sreg y.toNat)) ∧
    (x.toNat < 6 → gives (.rdli u d x) 1 (match c.regs.loops.reverse[x.toNat]? with
      | some e => BitVec.ofNat 64 e.iter.toNat
      | none => 0)) ∧
    (x.toNat < 12 → gives (.rdjt u d x) 1 (BitVec.ofNat 64 (c.target x.toNat).toNat)) ∧
    gives (.rdxy u d) 1 (BitVec.ofNat 64 (c.rcol + 2 ^ 8 * c.rrow + 2 ^ 16 * colOf s.cur + 2 ^ 24 * rowOf s.cur))) ∧
  ∀ (u : ScalarSlot) (j x y : BitVec 6) (imm : BitVec 32) (s : State), j.toNat < 12 →
    let X := (s.core s.cur).sreg x.toNat
    let Y := (s.core s.cur).sreg y.toNat
    let gives := fun (i : Instr) (v : Bool) => exec i s = .next (s.condSet u.slot.index j v)
    gives (.ceq u j x y) (decide (X.toNat = Y.toNat)) ∧
    gives (.cne u j x y) (decide (X.toNat ≠ Y.toNat)) ∧
    gives (.clt u j x y) (decide (X.toInt < Y.toInt)) ∧
    gives (.cltu u j x y) (decide (X.toNat < Y.toNat)) ∧
    gives (.ceqi u j x imm) (decide (X.toInt = imm.toInt)) ∧
    gives (.clti u j x imm) (decide (X.toInt < imm.toInt))

/-! ## Number formats -/

/-- The placement rules and the one rounding. An operand is extended or cut to its type, and an integer result wraps or clamps into its slices. A
finite pattern has the value of its fields; a finite value rounds to the nearest pattern, ties to even, or overflows as the format says, with the
sign of the value; infinities and NaN round as R95 says. An element under the E8M0 scale E has its value times 2^(E − 127), and is NaN under 0xFF.
An exact sum or product has the exact value and the sign of R96. A quotient and a square root are the exact ones rounded once, compared with the
midpoints of the patterns, with the zeros, infinities and NaN of R98. The conversions between formats saturate, round and clamp (R83, R88, R93 to
R102). -/
def Obligations.NumberFormatsRoundAndPlace : Prop :=
  let signed := fun (sg : Bool) (n p : Nat) => if sg ∧ 2 ^ (n - 1) ≤ p then (p : Int) - (2 ^ n : Nat) else (p : Int)
  let least := fun (sg : Bool) (n : Nat) => if sg then -((2 ^ (n - 1) : Nat) : Int) else 0
  let most := fun (sg : Bool) (n : Nat) => if sg then ((2 ^ (n - 1) : Nat) : Int) - 1 else ((2 ^ n : Nat) : Int) - 1
  let clamp := fun (sg : Bool) (n : Nat) (x : Int) => max (least sg n) (min (most sg n) x)
  let real := ratOf
  let sign := FFmt.signBit
  (∀ (sg : Bool) (n w v : Nat), 0 < n → 0 < w → v < 2 ^ (4 * w) →
    (4 * w ≤ n → widen (.int sg n) w v < 2 ^ n ∧ signed sg n (widen (.int sg n) w v) = signed sg (4 * w) v) ∧
    (n ≤ 4 * w → widen (.int sg n) w v = v % 2 ^ n)) ∧
  (∀ (sg sat : Bool) (n w : Nat) (x : Int), 0 < n → 0 < w →
    let b := min n (4 * w)
    ∃ y : Int, least sg b ≤ y ∧ y ≤ most sg b ∧ fitInt sg n w sat x = (y % ((2 ^ (4 * w) : Nat) : Int)).toNat ∧
      if sat then y = clamp sg b x else (y - x) % ((2 ^ b : Nat) : Int) = 0) ∧
  (∀ (f : FFmt) (sat : Bool) (w v : Nat), widen (.flt f) w v = v % 2 ^ f.width ∧ fit (.flt f) w sat (.pat v) = v % 2 ^ (4 * w)) ∧
  (∀ f : FFmt,
    let q := f.params
    let mag := f.mag
    (∀ (neg : Bool) (a : Nat), a ≤ f.maxFinite → ∃ m e, f.value (a + sign f neg) = .fin neg m e ∧ real false m e = mag a) ∧
    (∀ (neg : Bool) (m : Nat) (e : Int),
      let X := real false m e
      let big := f.hasInf = true ∧ f.overflow ≤ X
      (big → f.round (.fin neg m e) = f.infPattern + sign f neg) ∧
      (¬ big → ∃ a, a ≤ f.maxFinite ∧ f.round (.fin neg m e) = a + sign f neg ∧ ∀ b, b ≤ f.maxFinite → b ≠ a →
        |X - mag a| ≤ |X - mag b| ∧ (|X - mag a| = |X - mag b| → a % 2 = 0))) ∧
    (∀ neg : Bool, f.round (.inf neg) = (if f.hasInf then f.infPattern else f.maxFinite) + sign f neg) ∧
    f.round .nan = match q.nan with
      | .ieee => f.infPattern + 2 ^ (q.p - 1)
      | .e4m3 => 0x7F
      | .none => 0) ∧
  (∀ (f : FFmt) (scale : BitVec 2048) (row k x : Nat), row < 256 →
    let E := scale.toNat / 2 ^ (8 * row) % 256
    let y := scaledElem (.num (.flt f)) .mx scale row k x
    (E = 255 → y = .nan) ∧ (E ≠ 255 → (f.value x = .nan → y = .nan) ∧ (∀ neg, f.value x = .inf neg → y = .inf neg) ∧
      ∀ neg m e, f.value x = .fin neg m e → ∃ i, y = .fin neg m i ∧ real neg m i = real neg m e * (2 : Rat) ^ ((E : Int) - 127))) ∧
  (∀ (a b : Bool) (m n : Nat) (e g : Int), ∃ (s p : Bool) (k l : Nat) (h i : Int),
    FVal.add (.fin a m e) (.fin b n g) = .fin s k h ∧ real s k h = real a m e + real b n g ∧
      (k = 0 → (s = true ↔ a = true ∧ b = true ∧ m = 0 ∧ n = 0)) ∧
    FVal.mul (.fin a m e) (.fin b n g) = .fin p l i ∧ p = (a != b) ∧ real p l i = real a m e * real b n g) ∧
  (∀ (f : FFmt) (a b : Bool) (m n : Nat) (e g : Int) (x : FVal),
    let X := real false m e
    (n ≠ 0 → ∃ y, f.div (.fin a m e) (.fin b n g) = y + sign f (a != b) ∧
      f.Rounds (fun μ => X ≤ μ * real false n g) (fun μ => μ * real false n g ≤ X) y) ∧
    (m ≠ 0 → f.div (.fin a m e) (.fin b 0 g) = f.round (.inf (a != b))) ∧
    f.div (.fin a 0 e) (.fin b 0 g) = f.round .nan ∧ f.div (.inf a) (.inf b) = f.round .nan ∧
    f.div (.inf a) (.fin b n g) = f.round (.inf (a != b)) ∧ f.div (.fin a m e) (.inf b) = sign f (a != b) ∧
    f.div .nan x = f.round .nan ∧ f.div x .nan = f.round .nan ∧
    (m ≠ 0 → m < 2 ^ 64 → f.Rounds (fun μ => X ≤ μ * μ) (fun μ => μ * μ ≤ X) (f.sqrt (.fin false m e))) ∧
    f.sqrt (.fin a 0 e) = sign f a ∧ (m ≠ 0 → f.sqrt (.fin true m e) = f.round .nan) ∧
    f.sqrt (.inf false) = f.round (.inf false) ∧ f.sqrt (.inf true) = f.round .nan ∧ f.sqrt .nan = f.round .nan) ∧
  (∀ (v : FVal) (f : FFmt), convert (.flt v) (.flt f) false = .pat (f.round v) ∧
    convert (.flt v) (.flt f) true = .pat (if f.hasInf = true ∧ f.round v = f.infPattern then f.maxFinite
      else if f.hasInf = true ∧ f.round v = f.infPattern + sign f true then f.maxFinite + sign f true else f.round v)) ∧
  (∀ (sg sat : Bool) (n : Nat), convert (.flt .nan) (.int sg n) sat = .int 0 ∧
    (∀ neg : Bool, convert (.flt (.inf neg)) (.int sg n) sat = .int (if neg then least sg n else most sg n)) ∧
    ∀ (neg : Bool) (m : Nat) (e : Int), ∃ k : Int, convert (.flt (.fin neg m e)) (.int sg n) sat = .int (clamp sg n k) ∧
      |real neg m e - k| ≤ 1 / 2 ∧ (|real neg m e - k| = 1 / 2 → k % 2 = 0)) ∧
  ∀ (x : Int) (f : FFmt) (sg sat : Bool) (n : Nat), convert (.int x) (.int sg n) sat = .int x ∧
    convert (.int x) (.flt f) sat = convert (.flt (.fin (decide (x < 0)) x.natAbs 0)) (.flt f) sat

/-! ## Landing -/

/-- A recorded result whose cycle has come lands on all its locations at once and leaves the scoreboard; one whose cycle has not come stays.
Writes to s0 and k0 are discarded, masked lanes keep their slices, and no buffer, no memory and no other core changes (R23, R24, R26, R38). -/
def Obligations.ResultsLandOnTheirLocations : Prop :=
  ∀ (s : State) (n id : Nat) (r : Result), (s.core n).results.find? (fun x => x.id == id) = some r →
    (s.now < r.land → exec (.resultLanding n id) s = .next s) ∧
    (r.land ≤ s.now → ∃ t, exec (.resultLanding n id) s = .next t ∧ s.SameElsewhere t n ∧ (s.core n).SameBuffers (t.core n) ∧
      (t.core n).results = (s.core n).results.filter (fun x => x.id != id) ∧
      (t.core n).regs.pc = (s.core n).regs.pc ∧ (t.core n).regs.loops = (s.core n).regs.loops ∧
      (∀ k, k < 64 → (t.core n).sreg k = match r.val with
        | .scalar d v => if k = d ∧ k ≠ 0 then v else (s.core n).sreg k
        | _ => (s.core n).sreg k) ∧
      (∀ j, j < 12 → (t.core n).cond j = match r.val with
        | .cond i v => if j = i then v else (s.core n).cond j
        | _ => (s.core n).cond j) ∧
      (∀ j, j < 12 → (t.core n).target j = match r.val with
        | .target i v => if j = i then v else (s.core n).target j
        | _ => (s.core n).target j) ∧
      (∀ cl k l, k < 16 → ((t.core n).mask cl k).getLsbD l = match r.val with
        | .mask c i v en => if cl = c ∧ k = i ∧ k ≠ 0 ∧ en.getLsbD l = true then v.getLsbD l else ((s.core n).mask cl k).getLsbD l
        | _ => ((s.core n).mask cl k).getLsbD l) ∧
      (∀ cl i l, l < 256 → ((t.core n).slice cl i).toNat / 2 ^ (4 * l) % 16 = match r.val with
        | .slices c start en lines =>
          if cl = c ∧ start ≤ i ∧ i < start + lines.length ∧ en.getLsbD l = true then (nth 0 lines (i - start)).toNat / 2 ^ (4 * l) % 16
          else ((s.core n).slice cl i).toNat / 2 ^ (4 * l) % 16
        | _ => ((s.core n).slice cl i).toNat / 2 ^ (4 * l) % 16))

/-! ## Control slot -/

/-- A bundle whose control slot neither transfers control nor leaves a loop goes on at p + 1, or takes the loop step at the END of the innermost
loop; NOP in another slot has no effect; LOOP and LOOPI push an entry below depth 6, also where END is the image's last line, or skip the body when
the trip count is zero; a skip out of the image raises TARGET (R55, R112, R118, R119). -/
def Obligations.LoopsOpenAndStep : Prop :=
  ∀ s : State,
    let p := (s.core s.cur).regs.pc.toNat
    let goes := fun (q : Nat) (loops : List LoopEntry) =>
      q < s.imageLen s.cur → exec (.nop .ct) s = .next (s.movedTo q loops)
    ((s.core s.cur).regs.loops = [] → goes (p + 1) []) ∧
    (∀ e r, (s.core s.cur).regs.loops = e :: r → e.last.toNat ≠ p → goes (p + 1) (e :: r)) ∧
    (∀ e r, (s.core s.cur).regs.loops = e :: r → e.last.toNat = p → e.iter.toNat + 1 < e.trip.toNat →
      goes e.first.toNat ({ e with iter := e.iter + 1 } :: r)) ∧
    (∀ e, (s.core s.cur).regs.loops = [e] → e.last.toNat = p → e.trip.toNat ≤ e.iter.toNat + 1 → goes (p + 1) []) ∧
    (∀ e f r, (s.core s.cur).regs.loops = e :: f :: r → e.last.toNat = p → e.trip.toNat ≤ e.iter.toNat + 1 → f.last.toNat ≠ p →
      goes (p + 1) (f :: r)) ∧
    (∀ e f r, (s.core s.cur).regs.loops = e :: f :: r → e.last.toNat = p → e.trip.toNat ≤ e.iter.toNat + 1 → f.last.toNat = p →
      goes (stepOn p (f :: r)).1 (stepOn p (f :: r)).2) ∧
    (∀ sl : Slot, sl ≠ .ct → exec (.nop sl) s = .next s) ∧
    ∀ (x : BitVec 6) (trip last : BitVec 24),
      let loops := (s.core s.cur).regs.loops
      let n := ((s.core s.cur).sreg x.toNat).toNat
      let out := Host.Outcome.next (s.takeTrap s.cur ⟨3, 1, 5, 0, p⟩)
      p < last.toNat → (∀ e r, loops = e :: r → last.toNat ≤ e.last.toNat ∧ p ≠ e.last.toNat) →
      (last.toNat + 1 < s.imageLen s.cur →
        (n = 0 → exec (.loop x last) s = .next (s.movedTo (last.toNat + 1) loops)) ∧
        (trip = 0 → exec (.loopi trip last) s = .next (s.movedTo (last.toNat + 1) loops))) ∧
      (s.imageLen s.cur ≤ last.toNat + 1 →
        (n = 0 → exec (.loop x last) s = out) ∧ (trip = 0 → exec (.loopi trip last) s = out)) ∧
      (n ≠ 0 → n < 2 ^ 32 → loops.length < 6 → p + 1 < s.imageLen s.cur → exec (.loop x last) s =
        .next (s.movedTo (p + 1) (⟨BitVec.ofNat 32 n, 0, last, BitVec.ofNat 24 (p + 1)⟩ :: loops))) ∧
      (trip ≠ 0 → loops.length < 6 → p + 1 < s.imageLen s.cur → exec (.loopi trip last) s =
        .next (s.movedTo (p + 1) (⟨BitVec.ofNat 32 trip.toNat, 0, last, BitVec.ofNat 24 (p + 1)⟩ :: loops)))

/-- Branches, direct and dynamic transfers, PREP, LEXIT and POOL: the next bundle, the link register and the loop stack (R112 to R116, R120,
R135). -/
def Obligations.TransfersSelectTheNextBundle : Prop :=
  ∀ (s : State) (j : BitVec 4) (tgt : BitVec 24) (x : BitVec 6) (cls : BitVec 8) (count : BitVec 13),
    let c := s.core s.cur
    let p := c.regs.pc.toNat
    let len := s.imageLen s.cur
    let nx := stepOn p c.regs.loops
    let linked := s.scalarSet 0 1 63 (BitVec.ofNat 64 (p + 1))
    (j.toNat < 12 → c.cond j.toNat = true → (c.target j.toNat).toNat < len →
      exec (.br j) s = .next (s.movedTo (c.target j.toNat).toNat c.regs.loops)) ∧
    (j.toNat < 12 → c.cond j.toNat = false → nx.1 < len → exec (.br j) s = .next (s.movedTo nx.1 nx.2)) ∧
    (j.toNat < 12 → c.cond j.toNat = false → (c.target j.toNat).toNat < len →
      exec (.brn j) s = .next (s.movedTo (c.target j.toNat).toNat c.regs.loops)) ∧
    (j.toNat < 12 → c.cond j.toNat = true → nx.1 < len → exec (.brn j) s = .next (s.movedTo nx.1 nx.2)) ∧
    (tgt.toNat < len → exec (.jmp tgt) s = .next (s.movedTo tgt.toNat c.regs.loops)) ∧
    (tgt.toNat < len → exec (.call tgt) s = .next (linked.movedTo tgt.toNat c.regs.loops)) ∧
    (∀ im, s.imageOf s.cur = some im → (c.sreg x.toNat).toNat < 2 ^ 24 → cls ≠ 0 →
      getD 0 im.classes (c.sreg x.toNat).toNat = cls.toNat → (c.sreg x.toNat).toNat < len →
      exec (.calli x cls) s = .next (linked.movedTo (c.sreg x.toNat).toNat c.regs.loops)) ∧
    ((c.sreg 63).toNat < 2 ^ 24 → (c.sreg 63).toNat < len → exec .ret s = .next (s.movedTo (c.sreg 63).toNat c.regs.loops)) ∧
    (c.regs.loops ≠ [] → p + 1 < len → exec .lexit s = .next (s.movedTo (p + 1) c.regs.loops.tail)) ∧
    (count ≠ 0 → count.toNat ≤ 8191 → p + 1 + count.toNat < len → exec (.pool count) s = .next (s.movedTo (p + 1 + count.toNat) c.regs.loops)) ∧
    (j.toNat < 12 → nx.1 < len → exec (.prep j tgt) s =
      .next (((s.recorded 0 1 [⟨.target, j.toNat, 1⟩] (.target j.toNat tgt)).updCore s.cur (fun k =>
        { k with jReady := vset k.jReady j.toNat (some (s.now + 3)) })).movedTo nx.1 nx.2))

/-- The control faults: what each condition raises, and that the core then stops and drains with the record of R110: SLOTS 1, the sub-cause, and
an address for TXADDR alone. MARKPOS and MARKBUSY are those of a core whose bundle has passed the earlier checks of R76; that a pending load into s0
or k0 counts for MARKBUSY as one into any other register is the model's choice (log 45) (R48, R110, R112, R116, R118, R120, R121, R124, R127 to R129,
R131). -/
def Obligations.ControlFaults : Prop :=
  (∀ (s : State) (x : BitVec 6) (j : BitVec 4) (trip last tgt : BitVec 24) (cls mask : BitVec 8) (g phase : BitVec 4) (k : BitVec 7)
      (count : BitVec 13),
    let c := s.core s.cur
    let p := c.regs.pc.toNat
    let nx := stepOn p c.regs.loops
    let len := s.imageLen s.cur
    let v := (c.sreg x.toNat).toNat
    let faults := fun (i : Instr) (sub addr : Nat) =>
      exec i s = .next (s.takeTrap s.cur ⟨3, 1, sub, BitVec.ofNat 64 addr, p⟩)
    (c.regs.loops.length = 6 → p < last.toNat → (∀ e r, c.regs.loops = e :: r → last.toNat ≤ e.last.toNat ∧ p ≠ e.last.toNat) →
      (trip ≠ 0 → faults (.loopi trip last) 1 0) ∧ (v ≠ 0 → v < 2 ^ 32 → faults (.loop x last) 1 0)) ∧
    (c.regs.loops = [] → faults .lexit 2 0) ∧
    (last.toNat ≤ p → faults (.loopi trip last) 3 0 ∧ faults (.loop x last) 3 0) ∧
    (∀ e r, c.regs.loops = e :: r → e.last.toNat < last.toNat ∨ p = e.last.toNat →
      faults (.loopi trip last) 3 0 ∧ faults (.loop x last) 3 0) ∧
    (p < last.toNat → (∀ e r, c.regs.loops = e :: r → last.toNat ≤ e.last.toNat ∧ p ≠ e.last.toNat) → 2 ^ 32 ≤ v →
      faults (.loop x last) 4 0) ∧
    (len ≤ tgt.toNat → faults (.jmp tgt) 5 0 ∧ faults (.call tgt) 5 0) ∧
    (2 ^ 24 ≤ (c.sreg 63).toNat ∨ len ≤ (c.sreg 63).toNat → faults .ret 5 0) ∧
    (cls ≠ 0 → 2 ^ 24 ≤ v → faults (.calli x cls) 5 0) ∧
    (len ≤ nx.1 → faults (.nop .ct) 5 0 ∧ faults (.fence mask) 5 0 ∧ faults (.csrr x 1) 5 0 ∧ faults (.csrw 1 x) 5 0 ∧
      (j.toNat < 12 → faults (.prep j tgt) 5 0 ∧ (c.cond j.toNat = false → faults (.br j) 5 0) ∧
        (c.cond j.toNat = true → faults (.brn j) 5 0))) ∧
    (j.toNat < 12 → len ≤ (c.target j.toNat).toNat → (c.cond j.toNat = true → faults (.br j) 5 0) ∧
      (c.cond j.toNat = false → faults (.brn j) 5 0)) ∧
    (len ≤ p + 1 → c.regs.loops ≠ [] → faults .lexit 5 0) ∧
    (count ≠ 0 → len ≤ p + 1 + count.toNat → faults (.pool count) 5 0) ∧
    (∀ im, s.imageOf s.cur = some im → cls ≠ 0 → v < 2 ^ 24 → getD 0 im.classes v ≠ cls.toNat → faults (.calli x cls) 6 0) ∧
    (s.memberOf s.cur g.toNat = false → faults (.step g) 9 0) ∧
    (∀ l y, s.launchOf s.cur = some (l, y) →
      let q := y.clasp k.toNat
      let own := c.clasp k.toNat
      (v = 0 ∨ y.cores.length < v ∨ (q.init = true ∧ (q.count ≠ v ∨ 0 < q.arrived)) → faults (.bari k x) 10 0) ∧
      (q.init = false ∨ (own.aval = true ∧ own.adone = false) → faults (.bara k mask) 11 0 ∧ faults (.baraw k mask) 11 0) ∧
      (q.init = false ∨ own.aval = false → faults (.barw k) 12 0)) ∧
    (s.Serves (.txwait x phase) → v % 16 ≠ 0 ∨ v < aBase ∨ aBase + 0x80000 < v + 16 → faults (.txwait x phase) 13 v)) ∧
  ∀ (s : State) (n : Nat) (l : Line), s.StandsAt n l →
    let c := s.core n
    let p := c.regs.pc.toNat
    let b := decodeLine l
    let stops := fun (sub : Nat) => s.issueCore n = s.takeTrap n ⟨3, 1, sub, 0, p⟩
    b.mark = true → stepTwo b = (0, 0) → s.hazards n b = [] →
    (c.imode = false → (c.results ≠ [] ∨ c.tiles ≠ [] ∨ c.scales ≠ [] ∨ s.now < c.arrayFree ∨ ∃ x ∈ c.loads, x.kind ≠ .pref) → stops 8) ∧
    (c.busy s.now = false → s.holdOf n b false = none → (c.stepFour b).1 = 0 → s.bundleService n b = none →
      ((∃ e r, c.regs.loops = e :: r ∧ e.last.toNat ≠ p) ∨
        (∃ (j : BitVec 4) (x : BitVec 6) (t u : BitVec 24) (k : BitVec 8), b.ct = .br j ∨ b.ct = .brn j ∨ b.ct = .jmp t ∨ b.ct = .call t ∨
          b.ct = .calli x k ∨ b.ct = .ret ∨ b.ct = .lexit ∨ b.ct = .loop x t ∨ b.ct = .loopi u t)) → stops 7)

/-- TRAP raises the software trap with its code; a trap that is taken stops the core, which drains with the record of its cause, and changes no
register, no buffer and no memory, and no other core when no hold of its bundle is still to be recorded (R47, R48, R111, R132). -/
def Obligations.SoftwareTrapStopsTheCore : Prop :=
  ∀ (s : State) (code : BitVec 16),
    let p := (s.core s.cur).regs.pc.toNat
    ∃ t, exec (.trap code) s = .next t ∧ (t.core s.cur).run = .draining ∧
      (t.core s.cur).stop = some (.trap ⟨4, 1, code.toNat, 0, p⟩) ∧ (t.core s.cur).regs.pc = (s.core s.cur).regs.pc ∧
      (t.core s.cur).regs.loops = (s.core s.cur).regs.loops ∧ (s.core s.cur).SameRegisters (t.core s.cur) ∧
      (s.core s.cur).SameBuffers (t.core s.cur) ∧ (t.core s.cur).results = (s.core s.cur).results ∧ s.SameMemory t ∧
      ((s.core s.cur).held = Held.zero → ∀ m, m ≠ s.cur → t.core m = s.core m)

/-- STEP by a mapped member arrives at its group and waits; TXWAIT on a barrier of the A buffer waits while the phase has not completed, with its
view as it was, and when it has completed goes on at once with the view joined from the jobs that decremented the barrier (R124, R131, R242). -/
def Obligations.StepAndTxwaitWait : Prop :=
  ∀ (s : State) (g phase : BitVec 4) (x : BitVec 6),
    let c := s.core s.cur
    let p := c.regs.pc.toNat
    let nx := stepOn p c.regs.loops
    let a := (c.sreg x.toNat).toNat
    nx.1 < s.imageLen s.cur →
    (∀ l k, s.launchOf s.cur = some (l, k) → s.memberOf s.cur g.toNat = true → ∃ t, exec (.step g) s = .next t ∧
      (t.core s.cur).wait = some (.step g.toNat) ∧ (t.core s.cur).waitPc = p ∧ (t.core s.cur).regs.pc = BitVec.ofNat 24 nx.1 ∧
      (t.core s.cur).regs.loops = nx.2 ∧ t.launch? l = some { k with arrived := k.arrived ++ [(g.toNat, s.cur)] } ∧
      c.SameRegisters (t.core s.cur) ∧ c.SameBuffers (t.core s.cur) ∧ s.SameElsewhere t s.cur) ∧
    (s.Serves (.txwait x phase) → a % 16 = 0 → aBase ≤ a → a + 16 ≤ aBase + 0x80000 → ∃ t, exec (.txwait x phase) s = .next t ∧
      (c.txPhase (a - aBase) = phase.toNat → (t.core s.cur).wait = some (.tx a phase.toNat) ∧ (t.core s.cur).waitPc = p ∧
        (t.core s.cur).view = c.view) ∧
      (c.txPhase (a - aBase) ≠ phase.toNat → (t.core s.cur).wait = c.wait ∧
        (t.core s.cur).view = c.view.join (s.txView s.cur (a - aBase))) ∧
      (t.core s.cur).regs.pc = BitVec.ofNat 24 nx.1 ∧ (t.core s.cur).regs.loops = nx.2 ∧
      c.SameRegisters (t.core s.cur) ∧ c.SameBuffers (t.core s.cur) ∧ s.SameElsewhere t s.cur)

/-- The clasp instructions: BARI initialises, and on a clasp of the same count with no arrivals clears AVAL and ADONE of its core alone, while another
count or an arrival raises CINIT; BARA and BARAW count an arrival once the released colours are performed, the arrival that completes
the count flips the phase, and BARW and BARAW wait for a phase that has not completed (R126 to R129). The arrival is stated for a core with no
perform under way and no store queued in the released colours. -/
def Obligations.ClaspInstructions : Prop :=
  ∀ (s : State) (k : BitVec 7) (x : BitVec 6) (mask : BitVec 8) (l : Nat) (y : Launch),
    let c := s.core s.cur
    let nx := stepOn c.regs.pc.toNat c.regs.loops
    let v := (c.sreg x.toNat).toNat
    let q := y.clasp k.toNat
    let own := c.clasp k.toNat
    let moved := fun (t : State) => (t.core s.cur).regs.pc = BitVec.ofNat 24 nx.1 ∧ (t.core s.cur).regs.loops = nx.2 ∧
      c.SameRegisters (t.core s.cur) ∧ c.SameBuffers (t.core s.cur)
    s.launchOf s.cur = some (l, y) → nx.1 < s.imageLen s.cur →
    (0 < v → v ≤ y.cores.length → q.init = false → ∃ t y', exec (.bari k x) s = .next t ∧ t.launch? l = some y' ∧
      (y'.clasp k.toNat).init = true ∧ (y'.clasp k.toNat).count = v ∧ (y'.clasp k.toNat).arrived = 0 ∧
      (y'.clasp k.toNat).phase = false ∧ ((t.core s.cur).clasp k.toNat).aval = false ∧ ((t.core s.cur).clasp k.toNat).adone = false ∧
      (t.core s.cur).regs.stat.window = false ∧ moved t) ∧
    (0 < v → v ≤ y.cores.length → q.init = true →
      (q.count = v → q.arrived = 0 → ∃ t, exec (.bari k x) s = .next t ∧ t.launch? l = some y ∧
        ((t.core s.cur).clasp k.toNat).aval = false ∧ ((t.core s.cur).clasp k.toNat).adone = false ∧
        (t.core s.cur).regs.stat.window = false ∧ moved t ∧ ∀ m, m ≠ s.cur → t.core m = s.core m) ∧
      (q.count ≠ v ∨ q.arrived ≠ 0 → exec (.bari k x) s = .next (s.takeTrap s.cur ⟨3, 1, 10, 0, c.regs.pc.toNat⟩))) ∧
    (q.init = true → (own.aval = false ∨ own.adone = true) → c.performs = [] →
      (∀ e ∈ c.queue, inColours (mask ||| y.bound k.toNat) e = false) → s.cur ∈ y.cores.map (fun m => m.1) →
      ∀ i, i = .bara k mask ∨ i = .baraw k mask → ∃ t y', exec i s = .next t ∧ t.launch? l = some y' ∧
        ((t.core s.cur).clasp k.toNat).aval = true ∧ ((t.core s.cur).clasp k.toNat).aph = q.phase ∧
        (t.core s.cur).regs.stat.window = false ∧ moved t ∧
        (q.arrived + 1 < q.count → (y'.clasp k.toNat).arrived = q.arrived + 1 ∧ (y'.clasp k.toNat).phase = q.phase ∧
          ((t.core s.cur).clasp k.toNat).adone = false ∧ (i = .baraw k mask → (t.core s.cur).wait = some (.clasp k.toNat))) ∧
        (q.count ≤ q.arrived + 1 → (y'.clasp k.toNat).arrived = 0 ∧ (y'.clasp k.toNat).phase = !q.phase ∧
          ((t.core s.cur).clasp k.toNat).adone = true ∧ (i = .baraw k mask → (t.core s.cur).wait = c.wait))) ∧
    (q.init = true → own.aval = true → ∃ t, exec (.barw k) s = .next t ∧ moved t ∧
      (own.adone = false → (t.core s.cur).wait = some (.clasp k.toNat)) ∧ (own.adone = true → (t.core s.cur).wait = c.wait))

/-- FENCE with mask 0 has no effect but the next bundle; any other closes the replay window, and with no store queued in its colours and no
perform under way changes nothing else. HALT closes the window, drops the loop stack and stops the core; that its own issue cycle counts in CYCLE
is read from R37 (log 12, DEDUCED) (R37, R130, R133). -/
def Obligations.FenceAndHalt : Prop :=
  ∀ (s : State) (mask : BitVec 8),
    let c := s.core s.cur
    let nx := stepOn c.regs.pc.toNat c.regs.loops
    (nx.1 < s.imageLen s.cur → exec (.fence 0) s = .next (s.movedTo nx.1 nx.2)) ∧
    (nx.1 < s.imageLen s.cur → mask ≠ 0 → c.performs = [] → (∀ e ∈ c.queue, inColours mask e = false) →
      exec (.fence mask) s = .next ((s.updCore s.cur (fun d =>
        { d with regs := { d.regs with stat := { d.regs.stat with window := false } } })).movedTo nx.1 nx.2)) ∧
    (c.performs = [] → c.queue = [] → ∃ t, exec .halt s = .next t ∧ (t.core s.cur).run = .draining ∧ (t.core s.cur).stop = some .halt ∧
      (t.core s.cur).regs.loops = [] ∧ (t.core s.cur).regs.stat.window = false ∧
      (t.core s.cur).regs.cycle = c.regs.cycle + 1 ∧ c.SameRegisters (t.core s.cur) ∧ c.SameBuffers (t.core s.cur) ∧
      s.SameMemory t)

/-- CSRR samples a listed register at issue and records it for two cycles later, and so does an aligned LDS.n64 of the control and status window;
CSRW of CORESTAT, and an STS.n64 to it, take effect at the start of the next cycle, where a one clears DEVIATED or RACE and every other bit of
the write is discarded (R27 to R29, R31, R36, R37, R134, R211, R212). -/
def Obligations.ControlRegisterAccess : Prop :=
  (∀ (s : State) (d x : BitVec 6),
    let c := s.core s.cur
    let nx := stepOn c.regs.pc.toNat c.regs.loops
    let st := c.issued.getD c.regs.stat
    let reads := fun (csr : BitVec 12) (v : Word) => exec (.csrr d csr) s = .next ((s.scalarSet 0 2 d v).movedTo nx.1 nx.2)
    nx.1 < s.imageLen s.cur →
    reads 0 (if c.imode then 1 else 0) ∧
    reads 1 (BitVec.ofNat 64 ((if st.race then 1 else 0) + (if st.noreplay then 2 else 0) +
      (if st.deviated then 4 else 0) + (if st.window then 8 else 0) + (if st.replay then 16 else 0) +
      256 * c.regs.loops.length)) ∧
    reads 2 (c.bound.zeroExtend 64) ∧ reads 3 (c.parkmap.zeroExtend 64) ∧ reads 4 c.trappc ∧ reads 5 c.trapinfo ∧
    reads 6 c.trapaddr ∧ reads 8 (BitVec.ofNat 64 (c.hmver.toNat * 2 ^ 32 + dieOf s.cur)) ∧ reads 9 (c.latcls.zeroExtend 64) ∧
    reads 10 (BitVec.ofNat 64 (dieOf s.cur * 2 ^ 16 + rowOf s.cur * 2 ^ 8 + colOf s.cur)) ∧
    reads 11 (BitVec.ofNat 64 c.regs.cycle) ∧
    exec (.csrw 1 x) s = .next ((s.updCore s.cur (fun k => { k with csrw := k.csrw ++ [(1, c.sreg x.toNat)] })).movedTo nx.1 nx.2)) ∧
  (∀ (s : State) (b d : BitVec 6) (sgn : Bool) (col : BitVec 3) (off : BitVec 32),
    let c := s.core s.cur
    let a := ((c.sreg b.toNat).toNat + (off.signExtend 64).toNat) % 2 ^ 64
    let frame := fun (z : State) => c.SameRegisters (z.core s.cur) ∧ c.SameBuffers (z.core s.cur) ∧ s.SameElsewhere z s.cur
    (s.die (dieOf s.cur)).jobs = [] →
    (∀ r v, a = 0x7F00000300000000 + 8 * r → r < 12 → s.csrRead s.cur r = some v → s.Serves (.lds b d 3 sgn off) →
      ∃ z, exec (.lds b d 3 sgn off) s = .next z ∧ frame z ∧ (z.core s.cur).csrw = c.csrw ∧ (z.core s.cur).results = c.results ++
        (if d = 0 then [] else [⟨c.nextId, c.regs.pc.toNat, 6, [⟨.scalar, d.toNat, 1⟩], s.now + 2, .scalar d.toNat v⟩])) ∧
    (a = 0x7F00000300000008 → s.Serves (.sts col b d 3 off) →
      ∃ z, exec (.sts col b d 3 off) s = .next z ∧ frame z ∧ (z.core s.cur).results = c.results ∧ (z.core s.cur).regs = c.regs ∧
        (z.core s.cur).csrw = c.csrw ++ [(1, c.sreg d.toNat)])) ∧
  ∀ (s : State) (n : Nat) (v : Word),
    let c := s.core n
    c.csrw = [(1, v)] → c.results = [] → c.tiles = [] → c.mstcs = [] → c.scales = [] → c.fills = [] → c.parks = [] → c.loads = [] →
    s.landCore n = s.setCore n { c with csrw := [], regs := { c.regs with stat := { c.regs.stat with
      deviated := c.regs.stat.deviated && !v.getLsbD 2
      race := c.regs.stat.race && !v.getLsbD 0 } } }

/-! ## Vector slots -/

/-- The lane arithmetic: every enabled lane takes the exact result, placed by fit for an integer type and rounded once for a floating type, with
the latencies of R158; nothing else changes (R93 to R95, R156, R158, R161). -/
def Obligations.VectorArithmetic : Prop :=
  ∀ (u : VectorSlot) (ty k : BitVec 4) (sat : Bool) (d x y : SliceOp) (s : State),
    let t := vtypeD ty
    let c := s.core s.cur
    let cl := clusterOf u
    let D := fun l => t.value (c.elem cl t d l)
    let X := fun l => t.value (c.elem cl t x l)
    let Y := fun l => t.value (c.elem cl t y l)
    let place := fun (i : Int) (f : FVal) => match t with
      | .int sg n => fitInt sg n d.w sat i
      | .flt g => g.round f
    let gives := fun (i : Instr) (lat : Nat) (f : Nat → Nat) => WellFormed i → s.Serves i →
      ∃ z, exec i s = .next z ∧ s.LanesSet z u.slot.index lat cl d (c.mask cl k.toNat) f
    gives (.vadd u ty k sat d x y) (if isClassI ty then 1 else 4)
      (fun l => place ((X l).toI + (Y l).toI) ((X l).toF.add (Y l).toF)) ∧
    gives (.vsub u ty k sat d x y) (if isClassI ty then 1 else 4)
      (fun l => place ((X l).toI - (Y l).toI) ((X l).toF.add (Y l).toF.neg)) ∧
    gives (.vmul u ty k sat d x y) (if isClassI ty then 3 else 5)
      (fun l => place ((X l).toI * (Y l).toI) ((X l).toF.mul (Y l).toF)) ∧
    gives (.vfma u ty k sat d x y) (if isClassI ty then 3 else 6)
      (fun l => place ((X l).toI * (Y l).toI + (D l).toI) (((X l).toF.mul (Y l).toF).add (D l).toF)) ∧
    gives (.vfms u ty k sat d x y) (if isClassI ty then 3 else 6)
      (fun l => place ((D l).toI - (X l).toI * (Y l).toI) ((D l).toF.add ((X l).toF.mul (Y l).toF).neg))

/-- Minimum, maximum, absolute value, negation and the arithmetic with an immediate (R60, R162 to R164). -/
def Obligations.VectorUnaryAndImmediate : Prop :=
  ∀ (u : VectorSlot) (ty k : BitVec 4) (sat : Bool) (d x y : SliceOp) (imm : BitVec 16) (s : State),
    let t := vtypeD ty
    let c := s.core s.cur
    let cl := clusterOf u
    let X := c.elem cl t x
    let Y := c.elem cl t y
    let v := fun p => (t.value p).toI
    let w := fun (g : FFmt) p => g.value p
    let gives := fun (i : Instr) (lat : Nat) (f : Nat → Nat) => WellFormed i → s.Serves i →
      ∃ z, exec i s = .next z ∧ s.LanesSet z u.slot.index lat cl d (c.mask cl k.toNat) f
    gives (.vmin u ty k d x y) (if isClassI ty then 1 else 2) (fun l => match t with
      | .int sg n => fitInt sg n d.w false (min (v (X l)) (v (Y l)))
      | .flt g => if (w g (X l)).isNaN || (w g (Y l)).isNaN then g.canonicalNaN
          else if (w g (Y l)).before (w g (X l)) then Y l else X l) ∧
    gives (.vmax u ty k d x y) (if isClassI ty then 1 else 2) (fun l => match t with
      | .int sg n => fitInt sg n d.w false (max (v (X l)) (v (Y l)))
      | .flt g => if (w g (X l)).isNaN || (w g (Y l)).isNaN then g.canonicalNaN
          else if (w g (X l)).before (w g (Y l)) then Y l else X l) ∧
    gives (.vabs u ty k sat d x) 1 (fun l => match t with
      | .int sg n => fitInt sg n d.w sat ((v (X l)).natAbs : Int)
      | .flt g => if (w g (X l)).isNaN then g.canonicalNaN else X l % 2 ^ (g.width - 1)) ∧
    gives (.vneg u ty k sat d x) 1 (fun l => match t with
      | .int sg n => fitInt sg n d.w sat (-(v (X l)))
      | .flt g => if (w g (X l)).isNaN then g.canonicalNaN
          else if X l < 2 ^ (g.width - 1) then X l + 2 ^ (g.width - 1) else X l - 2 ^ (g.width - 1)) ∧
    ∀ (sg : Bool) (n : Nat), t = .int sg n →
      let b := min n 16
      let a : Int := if sg ∧ 2 ^ (b - 1) ≤ imm.toNat % 2 ^ b then (imm.toNat % 2 ^ b : Nat) - (2 ^ b : Nat) else (imm.toNat % 2 ^ b : Nat)
      gives (.vaddi u ty k sat d x imm) 1 (fun l => fitInt sg n d.w sat (v (X l) + a)) ∧
      gives (.vmuli u ty k sat d x imm) 3 (fun l => fitInt sg n d.w sat (v (X l) * a))

/-- Lane logic, shifts and counts on the n-bit patterns of an integer type (R165 to R167). -/
def Obligations.VectorLogicShiftsCounts : Prop :=
  ∀ (u : VectorSlot) (ty k : BitVec 4) (d x y : SliceOp) (amt : BitVec 6) (s : State) (sg : Bool) (n : Nat), vtypeD ty = .int sg n →
    let t := vtypeD ty
    let c := s.core s.cur
    let cl := clusterOf u
    let X := c.elem cl t x
    let Y := c.elem cl t y
    let value := fun (p : Nat) => if sg ∧ 2 ^ (n - 1) ≤ p then (p : Int) - (2 ^ n : Nat) else (p : Int)
    let signed := fun (p : Nat) => if 2 ^ (n - 1) ≤ p then (p : Int) - (2 ^ n : Nat) else (p : Int)
    let pattern := fun (p : Nat) => fitInt sg n d.w false (value p)
    let gives := fun (i : Instr) (f : Nat → Nat) => WellFormed i → s.Serves i →
      ∃ z, exec i s = .next z ∧ s.LanesSet z u.slot.index 1 cl d (c.mask cl k.toNat) f
    gives (.vand u ty k d x y) (fun l => pattern (X l &&& Y l)) ∧
    gives (.vor u ty k d x y) (fun l => pattern (X l ||| Y l)) ∧
    gives (.vxor u ty k d x y) (fun l => pattern (X l ^^^ Y l)) ∧
    gives (.vnot u ty k d x) (fun l => pattern (2 ^ n - 1 - X l)) ∧
    gives (.vshl u ty k d x y) (fun l => pattern (X l * 2 ^ (Y l % 64) % 2 ^ n)) ∧
    gives (.vshr u ty k d x y) (fun l => pattern (X l / 2 ^ (Y l % 64))) ∧
    gives (.vsra u ty k d x y) (fun l => pattern ((signed (X l) / (2 ^ (Y l % 64) : Nat)) % (2 ^ n : Nat)).toNat) ∧
    gives (.vshli u ty k d x amt) (fun l => pattern (X l * 2 ^ amt.toNat % 2 ^ n)) ∧
    gives (.vshri u ty k d x amt) (fun l => pattern (X l / 2 ^ amt.toNat)) ∧
    gives (.vsrai u ty k d x amt) (fun l => pattern ((signed (X l) / (2 ^ amt.toNat : Nat)) % (2 ^ n : Nat)).toNat) ∧
    gives (.vclz u ty k d x) (fun l => fitInt sg n d.w false (if X l = 0 then n else n - 1 - Nat.log2 (X l))) ∧
    gives (.vpop u ty k d x) (fun l => fitInt sg n d.w false ((List.range n).filter (fun b => (X l).testBit b)).length)

/-- Conversion, moves, broadcasts, selects and the lane number: VSEL writes every lane, the others the enabled ones (R168 to R172, R179). -/
def Obligations.VectorMovesAndConversion : Prop :=
  ∀ (u : VectorSlot) (ty k ts : BitVec 4) (sat : Bool) (d x y : SliceOp) (imm : BitVec 16) (r : BitVec 6) (s : State),
    let t := vtypeD ty
    let c := s.core s.cur
    let cl := clusterOf u
    let m := c.mask cl k.toNat
    let gives := fun (i : Instr) (lat : Nat) (en : LaneMask) (f : Nat → Nat) => WellFormed i → s.Serves i →
      ∃ z, exec i s = .next z ∧ s.LanesSet z u.slot.index lat cl d en f
    gives (.vcvt u ty k sat d x ts) 4 m (fun l => fit t d.w sat (convert ((vtypeD ts).value (c.elem cl (vtypeD ts) x l)) t sat)) ∧
    gives (.vmov u ty k sat d x) 1 m (fun l => fit t d.w sat (patConv t (c.elem cl t x l))) ∧
    gives (.vbri u ty k d imm) 1 m (fun _ => match t with
      | .int _ _ => fit t d.w false (.int (immInt t imm))
      | .flt _ => fit t d.w false (convert (FFmt.bf16.value imm.toNat |> Val.flt) t false)) ∧
    gives (.vsplat u ty k d r) 1 m (fun _ => fit t d.w false (patConv t ((c.sreg r.toNat).toNat % 2 ^ t.width))) ∧
    gives (.vsel u ty k d x y) 1 (BitVec.allOnes 256)
      (fun l => fit t d.w false (patConv t (if m.getLsbD l then c.elem cl t x l else c.elem cl t y l))) ∧
    gives (.vlane u ty k d) 1 m (fun l => fit t d.w false (.int (l : Int)))

/-- Vector compares write the whole half of their mask, 0 where K does not enable the lane; mask logic acts on all lanes; VCMPU records the
uniform condition of the enabled lanes, and traps when they disagree: cause 0x05, the slot, ENABLED and ONES, and no result (R160, R173 to R176).
-/
def Obligations.VectorComparesAndMasks : Prop :=
  ∀ (u : VectorSlot) (ty k : BitVec 4) (m j a b : BitVec 6) (x y : SliceOp) (s : State),
    let t := vtypeD ty
    let c := s.core s.cur
    let cl := clusterOf u
    let E := c.mask cl k.toNat
    let X := fun l => t.value (c.elem cl t x l)
    let Y := fun l => t.value (c.elem cl t y l)
    let compares := fun (i : Instr) (r : Val → Val → Bool) => WellFormed i → s.Serves i →
      ∃ v : LaneMask, (∀ l, l < 256 → v.getLsbD l = (E.getLsbD l && r (X l) (Y l))) ∧
        exec i s = .next (s.maskSet u.slot.index (if isClassI ty then 1 else 2) cl m v)
    let logic := fun (i : Instr) (f : Bool → Bool → Bool) => WellFormed i →
      ∃ v : LaneMask, (∀ l, l < 256 → v.getLsbD l = f ((c.mask cl a.toNat).getLsbD l) ((c.mask cl b.toNat).getLsbD l)) ∧
        exec i s = .next (s.maskSet u.slot.index 1 cl m v)
    compares (.vceq u ty k m x y) (fun p q => Rel.eq.on p q) ∧
    compares (.vcne u ty k m x y) (fun p q => Rel.ne.on p q) ∧
    compares (.vclt u ty k m x y) (fun p q => Rel.lt.on p q) ∧
    compares (.vcle u ty k m x y) (fun p q => Rel.le.on p q) ∧
    logic (.kand u m a b) (fun p q => p && q) ∧ logic (.kor u m a b) (fun p q => p || q) ∧
    logic (.kxor u m a b) (fun p q => p != q) ∧ logic (.kandn u m a b) (fun p q => p && !q) ∧
    logic (.knot u m a) (fun p _ => !p) ∧
    (j.toNat < 12 → m.toNat < 16 → (∀ l, l < 256 → E.getLsbD l = true → (c.mask cl m.toNat).getLsbD l = true) →
      exec (.vcmpu u k j m) s = .next (s.condSet u.slot.index j (decide (E ≠ 0)))) ∧
    (j.toNat < 12 → m.toNat < 16 → (∀ l, l < 256 → E.getLsbD l = true → (c.mask cl m.toNat).getLsbD l = false) →
      exec (.vcmpu u k j m) s = .next (s.condSet u.slot.index j false)) ∧
    ∀ p q : Nat, j.toNat < 12 → m.toNat < 16 → p < 256 → q < 256 → E.getLsbD p = true → E.getLsbD q = true →
      (c.mask cl m.toNat).getLsbD p = true → (c.mask cl m.toNat).getLsbD q = false →
      exec (.vcmpu u k j m) s = .next (s.takeTrap s.cur ⟨5, 2 ^ u.slot.index,
        ((List.range 256).filter (fun l => E.getLsbD l && (c.mask cl m.toNat).getLsbD l)).length +
          ((List.range 256).filter (fun l => E.getLsbD l)).length * 2 ^ 16, 0, c.regs.pc.toNat⟩)

/-- The reductions of integer types: the sum, maximum or minimum of the enabled lanes, written to every enabled lane; of floating types: the
value of the pairwise tree (R177). -/
def Obligations.VectorReductions : Prop :=
  ∀ (u : VectorSlot) (ty k : BitVec 4) (sat : Bool) (d x : SliceOp) (s : State),
    let t := vtypeD ty
    let c := s.core s.cur
    let cl := clusterOf u
    let m := c.mask cl k.toNat
    let lanes := (List.range 256).filter (fun l => m.getLsbD l)
    let ints := lanes.map (fun l => (t.value (c.elem cl t x l)).toI)
    let pats := fun (none : Nat) => (List.range 256).map (fun l => if m.getLsbD l then c.elem cl t x l else none)
    let gives := fun (i : Instr) (lat : Nat) (v : Nat) => WellFormed i → s.Serves i →
      ∃ z, exec i s = .next z ∧ s.LanesSet z u.slot.index lat cl d m (fun _ => v)
    (∀ sg n, t = .int sg n →
      gives (.vredadd u ty k sat d x) 4 (fitInt sg n d.w sat (ints.foldr (· + ·) 0)) ∧
      gives (.vredmax u ty k d x) 4 (fitInt sg n d.w false (ints.foldr max (intMin sg n))) ∧
      gives (.vredmin u ty k d x) 4 (fitInt sg n d.w false (ints.foldr min (intMax sg n)))) ∧
    (∀ g, t = .flt g →
      gives (.vredadd u ty k sat d x) 12
        (treeOf 0 (fun a b => g.round ((g.value a).add (g.value b))) (pats (2 ^ (g.width - 1)))) ∧
      gives (.vredmax u ty k d x) 6 (treeOf 0 (maxPat (.flt g)) (pats (g.infPattern + 2 ^ (g.width - 1)))) ∧
      gives (.vredmin u ty k d x) 6 (treeOf 0 (minPat (.flt g)) (pats g.infPattern)))

/-- Permute, rotate, the move to the other cluster, pack and unpack (R178, R180, R181). -/
def Obligations.VectorCrossLane : Prop :=
  ∀ (u : VectorSlot) (ty k : BitVec 4) (sat : Bool) (d x y : SliceOp) (dist : BitVec 8) (fmt : BitVec 5) (s : State),
    let t := vtypeD ty
    let c := s.core s.cur
    let cl := clusterOf u
    let raw := fun (o : SliceOp) (l : Nat) => laneOf (c.sliceLines cl o.start.toNat o.w) l
    let gives := fun (i : Instr) (lat : Nat) (into : Bool) (f : Nat → Nat) => WellFormed i → s.Serves i →
      ∃ z, exec i s = .next z ∧ s.LanesSet z u.slot.index lat into d (c.mask into k.toNat) f
    gives (.vperm u ty k d x y) 2 cl (fun l => fit t d.w false (patConv t (c.elem cl t x (raw y l % 256)))) ∧
    gives (.vrot u ty k d x dist) 2 cl (fun l => fit t d.w false (patConv t (c.elem cl t x ((l + 256 - dist.toNat) % 256)))) ∧
    gives (.xmov u k d x) 2 (!cl) (fun l => raw x l) ∧
    gives (.vpack u ty k sat d x fmt) 4 cl (fun l => packBits (narrowFmt fmt).width ((List.range (4 * x.w / t.width)).map (fun i =>
      convertPattern (t.value (raw x l / 2 ^ (t.width * i) % 2 ^ t.width)) (narrowFmt fmt) sat))) ∧
    gives (.vunpk u ty k d x fmt) 4 cl (fun l => packBits t.width ((List.range (4 * x.w / (narrowFmt fmt).width)).map (fun i =>
      convertPattern ((narrowFmt fmt).value (raw x l / 2 ^ ((narrowFmt fmt).width * i) % 2 ^ (narrowFmt fmt).width)) t false)))

/-- The long operations of `vb`: one rounding for divide and square root, two for the approximations, with their latencies; the deprecated
instructions land after 12 cycles and hold the next bundle back for 4 or 10. Rounded to P12, 1/x and 1/√x are compared exactly with the midpoints
of the patterns; 2^x and log2 x exactly where they are integer powers and integers, and else to within 2^-200 of the power and 2^-99 of the
logarithm, which leaves open only a midpoint that close; and each has its special values (R158, R182 to R184). -/
def Obligations.LongAndDeprecatedOperations : Prop :=
  ∀ (u : VectorSlot) (ty k : BitVec 4) (d x y : SliceOp) (s : State) (g : FFmt), vtypeD ty = .flt g →
    let t := vtypeD ty
    let c := s.core s.cur
    let X := fun l => g.value (c.elem true t x l)
    let Y := fun l => g.value (c.elem true t y l)
    let dv := if ty = 8 then 22 else if c.latcls.getLsbD 1 then 16 else 14
    let twice := fun (p : Nat) => g.round (FFmt.p12.value p)
    let gives := fun (i : Instr) (lat : Nat) (f : Nat → Nat) => WellFormed i → s.Serves i →
      ∃ z, exec i s = .next z ∧ s.LanesSet z 4 lat true d (c.mask true k.toNat) f
    let expands := fun (i : Instr) (slot steps : Nat) (cl : Bool) (f : Nat → Nat) => WellFormed i → s.Serves i →
      ∃ z, s.LanesSet z slot 12 cl d (c.mask cl k.toNat) f ∧ exec i s = .next (z.updCore s.cur (fun e => { e with
        expand := some (s.now + steps, c.nextId)
        markLoops := c.regs.loops
        markPc := c.regs.pc.toNat }))
    gives (.vdiv ty k d x y) dv (fun l => g.div (X l) (Y l)) ∧
    gives (.vsqrt ty k d x) dv (fun l => g.sqrt (X l)) ∧
    gives (.vrcp ty k d x) 8 (fun l => twice (FFmt.p12.recip (X l))) ∧
    gives (.vrsq ty k d x) 8 (fun l => twice (FFmt.p12.rsqrt (X l))) ∧
    gives (.vexp2 ty k d x) 10 (fun l => twice (FFmt.p12.exp2 (X l))) ∧
    gives (.vlog2 ty k d x) 10 (fun l => twice (FFmt.p12.log2 (X l))) ∧
    expands (.vrcpl ty k d x) 4 4 true (fun l => g.recip (X l)) ∧
    expands (.vsumx u ty k d x) u.slot.index 10 (clusterOf u) (fun _ => g.round (exactSum (((List.range 256).filter
      (fun l => (c.mask (clusterOf u) k.toNat).getLsbD l)).map (fun l => g.value (c.elem (clusterOf u) t x l))))) ∧
    let f := FFmt.p12
    let inf := fun (neg : Bool) => f.infPattern + f.signBit neg
    let nan := f.round .nan
    (f.recip .nan = nan ∧ f.rsqrt .nan = nan ∧ f.exp2 .nan = nan ∧ f.log2 .nan = nan) ∧
    (∀ neg : Bool, f.recip (.inf neg) = f.signBit neg ∧ f.rsqrt (.inf neg) = (if neg then nan else 0) ∧
      f.exp2 (.inf neg) = (if neg then 0 else inf false) ∧ f.log2 (.inf neg) = (if neg then nan else inf false)) ∧
    ∀ (neg : Bool) (m : Nat) (e : Int),
      let v := FVal.fin neg m e
      let X := ratOf false m e
      let pow : Real := (2 : Real) ^ ((ratOf neg m e : Rat) : Real)
      let log : Real := |Real.logb 2 ((X : Rat) : Real)|
      let δ : Real := (2 : Real) ^ (-200 : Int)
      let ε : Real := (2 : Real) ^ (-99 : Int)
      (m = 0 → f.recip v = inf neg ∧ f.rsqrt v = inf neg ∧ f.exp2 v = f.round (.fin false 1 0) ∧ f.log2 v = inf true) ∧
      (m ≠ 0 → ∃ p, f.recip v = p + f.signBit neg ∧ f.Rounds (fun μ => 1 ≤ X * μ) (fun μ => X * μ ≤ 1) p) ∧
      (m ≠ 0 → neg = true → f.rsqrt v = nan ∧ f.log2 v = nan) ∧
      (m ≠ 0 → m < 2 ^ 64 → neg = false →
        f.Rounds (fun μ => 1 ≤ X * (μ * μ)) (fun μ => X * (μ * μ) ≤ 1) (f.rsqrt v)) ∧
      (∀ i : Int, ratOf neg m e = i → f.exp2 v = f.round (.fin false 1 i)) ∧
      (∀ i : Int, neg = false → X = (2 : Rat) ^ i → f.log2 v = f.round (.fin (decide (i < 0)) i.natAbs 0)) ∧
      (m < 2 ^ 64 → -1100 ≤ e →
        ((f.overflow : Real) ≤ pow * (1 - δ) → f.exp2 v = f.infPattern) ∧
        (pow * (1 + δ) < (f.overflow : Real) →
          f.Between (fun μ => pow * (1 - δ) ≤ (μ : Real)) (fun μ => (μ : Real) ≤ pow * (1 + δ)) (f.exp2 v))) ∧
      (m ≠ 0 → m < 2 ^ 64 → -1100 ≤ e → e ≤ 1100 → neg = false → ∃ p, f.log2 v = p + f.signBit (decide (X < 1)) ∧
        f.Between (fun μ => log - ε ≤ (μ : Real)) (fun μ => (μ : Real) ≤ log + ε) p)

/-! ## Matrix slot, scale loads, fill and park -/

/-- The array instructions: the accumulators of the product are recorded for the tile, landing q + drain cycles from now; the array is busy for q
cycles; no register, buffer or memory changes at issue (R189, R193, R194, R200). -/
def Obligations.ArrayInstructionsStart : Prop :=
  ∀ (s : State) (af bf : BitVec 5) (t : BitVec 4) (aoff : BitVec 11) (woff : BitVec 12) (fa fb : MFmt) (sh : Shape),
    mfmt af.toNat = some fa → mfmt bf.toNat = some fb → shapeOf fa fb = some sh →
    let c := s.core s.cur
    let starts := fun (i : Instr) (zero trans : Bool) => WellFormed i → s.Serves i →
      ∃ z, exec i s = .next z ∧
        (z.core s.cur).tiles = c.tiles ++ [⟨c.nextId, t.toNat, s.now + (sh.q + (if c.latcls.getLsbD 2 then 14 else 12)), true, 0,
          sh.m * sh.n * sh.acc.bytes, (c.arrayResult s.now af bf t aoff woff zero trans).1, c.regs.pc.toNat, c.schedule⟩] ∧
        (z.core s.cur).arrayFree = s.now + sh.q ∧ (z.core s.cur).results = c.results ∧
        c.SameRegisters (z.core s.cur) ∧ c.SameBuffers (z.core s.cur) ∧ s.SameElsewhere z s.cur
    starts (.mma af bf t aoff woff) false false ∧ starts (.mmz af bf t aoff woff) true false ∧
    starts (.mmat af bf t aoff woff) false true ∧ starts (.mmzt af bf t aoff woff) true true

/-- The values of the matrix unit, element by element. Accumulator (m, n) of an INT8 product is the sum over k of A[m, k] · B[k, n] modulo 2^32;
of a BF16 product, the start (−0 for MMZ, the tile's accumulator for MMA with nothing pending) to which the exact sums of eight products each are
added in ascending k, with one rounding per group; A stands by rows and B by columns, or by rows in the T forms. An E4M3 product takes each element
times the E8M0 scale of its row or column, and a BFP8 product each mantissa times the exponent of its block of sixteen, whose sums are rounded
together. MADDC adds FP32 words. MLDC and MBIAS convert the packed elements of the lanes and replace or add; MCVT converts accumulators into the
lanes; MSTC converts every accumulator, an E8M10 element into the high bits of its 32-bit container (R88 to R90, R92, R104, R105, R188 to R190,
R192, R200, R202 to R204). -/
def Obligations.MatrixAndTileValues : Prop :=
  ∀ (s : State) (t u : BitVec 4) (aoff : BitVec 11) (woff : BitVec 12),
    let c := s.core s.cur
    (∀ m n : Nat, m < 32 → n < 64 →
      let f : BitVec 5 := 19
      let i8 : Nat → Int := fun x => if x < 128 then (x : Int) else (x : Int) - 256
      let A : Nat → Int := fun k => i8 (c.bufRead .a (256 * aoff.toNat) 1024 / 2 ^ (8 * (32 * m + k)) % 256)
      let W : Nat → Int := fun i => i8 (c.bufRead .w (256 * woff.toNat) 2048 / 2 ^ (8 * i) % 256)
      let sum := fun (B : Nat → Int) => (((List.range 32).map (fun k => A k * B k)).foldr (· + ·) (0 : Int) % ((2 ^ 32 : Nat) : Int)).toNat
      let elem := fun (v : Nat) => v / 2 ^ (32 * (64 * m + n)) % 2 ^ 32
      elem (c.arrayResult s.now f f t aoff woff true false).1 = sum (fun k => W (32 * n + k)) ∧
      elem (c.arrayResult s.now f f t aoff woff true true).1 = sum (fun k => W (64 * k + n))) ∧
    (∀ m n : Nat, m < 32 → n < 32 →
      let f : BitVec 5 := 3
      let A : Nat → FVal := fun k => FFmt.bf16.value (c.bufRead .a (256 * aoff.toNat) 2048 / 2 ^ (16 * (32 * m + k)) % 2 ^ 16)
      let W : Nat → FVal := fun i => FFmt.bf16.value (c.bufRead .w (256 * woff.toNat) 2048 / 2 ^ (16 * i) % 2 ^ 16)
      let sum := fun (start : Nat) (B : Nat → FVal) => (List.range 4).foldl (fun acc g => FFmt.f32.round
        ((FFmt.f32.value acc).add (exactSum ((List.range 8).map (fun k => (A (8 * g + k)).mul (B (8 * g + k))))))) start
      let elem := fun (v : Nat) => v / 2 ^ (32 * (32 * m + n)) % 2 ^ 32
      elem (c.arrayResult s.now f f t aoff woff true false).1 = sum (2 ^ 31) (fun k => W (32 * n + k)) ∧
      elem (c.arrayResult s.now f f t aoff woff true true).1 = sum (2 ^ 31) (fun k => W (32 * k + n)) ∧
      (c.tiles = [] → elem (c.arrayResult s.now f f t aoff woff false false).1 =
        sum (elem (c.bufRead .c (32768 * t.toNat) 32768)) (fun k => W (32 * n + k)))) ∧
    (let e8m0 : Nat → FVal := fun e => if e = 255 then .nan else .fin false 1 ((e : Int) - 127)
      let byte := fun (r : BitVec 2048) (i : Nat) => r.toNat / 2 ^ (8 * i) % 256
      let dot := fun (g groups : Nat) (A B : Nat → FVal) => (List.range groups).foldl (fun acc j => FFmt.f32.round
        ((FFmt.f32.value acc).add (exactSum ((List.range g).map (fun k => (A (g * j + k)).mul (B (g * j + k))))))) (2 ^ 31)
      (∀ m n : Nat, m < 32 → n < 64 →
        let f : BitVec 5 := 5
        let A : Nat → FVal := fun k => (FFmt.e4m3.value (c.bufRead .a (256 * aoff.toNat) 1024 / 2 ^ (8 * (32 * m + k)) % 256)).mul
          (e8m0 (byte c.regs.scaleA m))
        let W : Nat → FVal := fun i => (FFmt.e4m3.value (c.bufRead .w (256 * woff.toNat) 2048 / 2 ^ (8 * i) % 256)).mul
          (e8m0 (byte c.regs.scaleB n))
        let elem := fun (v : Nat) => v / 2 ^ (32 * (64 * m + n)) % 2 ^ 32
        elem (c.arrayResult s.now f f t aoff woff true false).1 = dot 8 4 A (fun k => W (32 * n + k)) ∧
        elem (c.arrayResult s.now f f t aoff woff true true).1 = dot 8 4 A (fun k => W (64 * k + n))) ∧
      ∀ m n : Nat, m < 64 → n < 128 →
        let f : BitVec 5 := 16
        let mant : Nat → FVal := fun x => .fin (decide (128 ≤ x)) (if x < 128 then x else 256 - x) (-6)
        let A : Nat → FVal := fun k => (mant (c.bufRead .a (256 * aoff.toNat) 2048 / 2 ^ (8 * (32 * m + k)) % 256)).mul
          (e8m0 (byte c.regs.scaleA (2 * m + k / 16)))
        let W : Nat → Nat → FVal := fun i k => (mant (c.bufRead .w (256 * woff.toNat) 4096 / 2 ^ (8 * i) % 256)).mul
          (e8m0 (byte c.regs.scaleB (2 * n + k / 16)))
        let elem := fun (v : Nat) => v / 2 ^ (32 * (128 * m + n)) % 2 ^ 32
        elem (c.arrayResult s.now f f t aoff woff true false).1 = dot 16 2 A (fun k => W (32 * n + k) k) ∧
        elem (c.arrayResult s.now f f t aoff woff true true).1 = dot 16 2 A (fun k => W (128 * k + n) k)) ∧
    (∀ (af : BitVec 5) (f : NumFmt) (d : SliceOp) (l k : Nat), tileFmt af false = some f → l < 256 → k < tileG f d →
      let b := 8 * (accOf f).bytes
      let x := nth 0 (c.cvtLanes f t.toNat d) l
      x < 2 ^ (f.width * tileG f d) ∧ x / 2 ^ (f.width * k) % 2 ^ f.width = convertPattern ((accOf f).num.value
        (c.bufRead .c (32768 * t.toNat) 32768 / 2 ^ (b * (tileG f d * l + k)) % 2 ^ b)) f (accOf f == .int32)) ∧
    (∀ i : Nat, i < 8192 →
      let word := fun (v : BitVec 4) => FFmt.f32.value (c.bufRead .c (32768 * v.toNat) 32768 / 2 ^ (32 * i) % 2 ^ 32)
      c.addTiles t.toNat u.toNat / 2 ^ (32 * i) % 2 ^ 32 = FFmt.f32.round ((word t).add (word u))) ∧
    (∀ (af : BitVec 5) (f : NumFmt) (cl : Bool) (o : SliceOp) (l k : Nat), tileFmt af false = some f → l < 256 → k < tileG f o →
      let b := 8 * (accOf f).bytes
      let i := tileG f o * l + k
      let old := c.bufRead .c (32768 * t.toNat) 32768 / 2 ^ (b * i) % 2 ^ b
      let v := convertPattern (f.value (laneOf (c.sliceLines cl o.start.toNat o.w) l / 2 ^ (f.width * k) % 2 ^ f.width)) (accOf f).num false
      (c.ldcBytes f t.toNat cl o false).1 / 2 ^ (b * i) % 2 ^ b = v ∧
      (c.ldcBytes f t.toNat cl o true).1 / 2 ^ (b * i) % 2 ^ b = match accOf f with
        | .int32 => (old + v) % 2 ^ 32
        | .fp32 => FFmt.f32.round ((FFmt.f32.value old).add (FFmt.f32.value v))
        | .fp64 => FFmt.f64.round ((FFmt.f64.value old).add (FFmt.f64.value v))) ∧
    ∀ (af : BitVec 5) (f : NumFmt) (i : Nat), tileFmt af true = some f → i < 32768 / (accOf f).bytes →
      let b := 8 * (accOf f).bytes
      let v := convertPattern ((accOf f).num.value (c.bufRead .c (32768 * t.toNat) 32768 / 2 ^ (b * i) % 2 ^ b)) f (accOf f == .int32)
      (f ≠ .flt .e8m10 → c.stcBytes f t.toNat / 2 ^ (f.width * i) % 2 ^ f.width = v) ∧
      (f = .flt .e8m10 → c.stcBytes f t.toNat / 2 ^ (32 * i) % 2 ^ 32 = v * 2 ^ 13)

/-- The tile instructions: MCLR, MADDC, MLDC and MBIAS record a landing on the tile, MCVT one on slices, MSTC a late write of the A buffer; no
register, buffer or memory changes at issue (R194, R201 to R204). -/
def Obligations.TileInstructions : Prop :=
  ∀ (s : State) (af : BitVec 5) (t u : BitVec 4) (cl : Bool) (d o : SliceOp) (aoff : BitVec 11),
    let c := s.core s.cur
    let frame := fun (z : State) => c.SameRegisters (z.core s.cur) ∧ c.SameBuffers (z.core s.cur) ∧ s.SameElsewhere z s.cur
    let lands := fun (i : Instr) (lat len val : Nat) => WellFormed i → s.Serves i →
      ∃ z, exec i s = .next z ∧ frame z ∧ (z.core s.cur).results = c.results ∧
        (z.core s.cur).tiles = c.tiles ++ [⟨c.nextId, t.toNat, s.now + lat, false, 0, len, val, c.regs.pc.toNat, c.schedule⟩]
    lands (.mclr t) 1 32768 0 ∧
    lands (.maddc t u) 8 32768 (c.addTiles t.toNat u.toNat) ∧
    (∀ f, tileFmt af false = some f →
      lands (.mldc af t cl o) 4 (256 * tileG f o * (accOf f).bytes) (c.ldcBytes f t.toNat cl o false).1 ∧
      lands (.mbias af t cl o) 4 (256 * tileG f o * (accOf f).bytes) (c.ldcBytes f t.toNat cl o true).1 ∧
      (WellFormed (.mcvt af t cl d) → s.Serves (.mcvt af t cl d) → ∃ z, exec (.mcvt af t cl d) s = .next z ∧ frame z ∧
        (z.core s.cur).tiles = c.tiles ∧ ∃ r : Result, (z.core s.cur).results = c.results ++ [r] ∧ r.slot = 5 ∧ r.land = s.now + 4 ∧
          ∃ lines : List SliceLine, r.val = .slices cl d.start.toNat (BitVec.allOnes 256) lines ∧ lines.length = d.w ∧
            ∀ l, l < 256 → laneOf lines l = packBits f.width ((List.range (tileG f d)).map (fun k =>
              readout (accOf f) f (elemAt (8 * (accOf f).bytes) (c.tileBytes t.toNat) (tileG f d * l + k)))) % 2 ^ (4 * d.w))) ∧
    (∀ f, tileFmt af true = some f → WellFormed (.mstc af t aoff) → s.Serves (.mstc af t aoff) →
      ∃ z, exec (.mstc af t aoff) s = .next z ∧ frame z ∧ (z.core s.cur).tiles = c.tiles ∧
        (z.core s.cur).mstcs = c.mstcs ++ [⟨c.nextId, s.now + 8, 256 * aoff.toNat, mstcBytes f, c.stcBytes f t.toNat,
          c.regs.pc.toNat, c.schedule⟩])

/-- The scale loads, FILL, PARK and UNPK: what each records and for which cycle; no register, buffer or memory changes at issue (R205, R232,
R233). -/
def Obligations.FillSlotInstructions : Prop :=
  ∀ (s : State) (sel : BitVec 4) (aoff : BitVec 15) (x : BitVec 6) (n : BitVec 11) (coff : BitVec 12) (cl : Bool) (o : SliceOp),
    let c := s.core s.cur
    let frame := fun (z : State) => c.SameRegisters (z.core s.cur) ∧ c.SameBuffers (z.core s.cur) ∧ s.SameElsewhere z s.cur
    let does := fun (i : Instr) (post : State → Prop) => WellFormed i → s.Serves i → s.addressFault s.cur i = none →
      ∃ z, exec i s = .next z ∧ frame z ∧ post z
    does (.slda sel aoff) (fun z => (z.core s.cur).scales = c.scales ++ [⟨c.nextId, s.now + 4, false, 16 * (sel.toNat + 1),
      c.bufRead .a (16 * aoff.toNat) (16 * (sel.toNat + 1))⟩]) ∧
    does (.sldb sel aoff) (fun z => (z.core s.cur).scales = c.scales ++ [⟨c.nextId, s.now + 4, true, 16 * (sel.toNat + 1),
      c.bufRead .a (16 * aoff.toNat) (16 * (sel.toNat + 1))⟩]) ∧
    does (.fill x n aoff) (fun z => ∃ w : LateWrite, (z.core s.cur).fills = c.fills ++ [w] ∧ w.due = s.now + 2 + n.toNat / 32 ∧
      w.off = 16 * aoff.toNat ∧ w.len = 16 * (n.toNat + 1) ∧
      ∀ i, i < 2 * (n.toNat + 1) → w.val / 2 ^ (64 * i) % 2 ^ 64 = (c.sreg x.toNat).toNat) ∧
    does (.park coff cl o) (fun z => ∃ w : LateWrite, (z.core s.cur).parks = c.parks ++ [w] ∧ w.due = s.now + 2 ∧
      w.off = 128 * coff.toNat ∧ w.len = 128 * o.w ∧
      ∀ i, i < o.w → w.val / 2 ^ (1024 * i) % 2 ^ 1024 = (c.slice cl (o.start.toNat + i)).toNat) ∧
    does (.unpk coff cl o) (fun z => ∃ r : Result, (z.core s.cur).results = c.results ++ [r] ∧ r.slot = 7 ∧ r.land = s.now + 4 ∧
      r.val = .slices cl o.start.toNat (BitVec.allOnes 256) ((List.range o.w).map (fun i =>
        BitVec.ofNat 1024 (c.bufRead .c (128 * (coff.toNat + i)) 128))))

/-- A tile result, an MSTC, a FILL, a PARK and a scale load take effect in their cycle: the bytes of the write take its value, every other byte
of every buffer keeps its own, and no memory changes (R194, R204, R205, R232, R233). -/
def Obligations.LateWritesLand : Prop :=
  ∀ (s : State) (n id : Nat),
    let c := s.core n
    let writes := fun (i : Instr) (b : Buf) (off len val : Nat) => ∃ t, exec i s = .next t ∧ s.SameMemory t ∧
      c.SameRegisters (t.core n) ∧
      (∀ k, k < len → Memory.read ((t.core n).buf b) (off + k) = BitVec.ofNat 8 (val / 2 ^ (8 * k))) ∧
      ∀ e a, (e ≠ b ∨ a < off ∨ off + len ≤ a) → Memory.read ((t.core n).buf e) a = Memory.read (c.buf e) a
    (∀ l : TileLanding, c.tiles.find? (fun x => x.id == id) = some l → l.land ≤ s.now →
      writes (.tileLanding n id) .c (32768 * l.tile + l.off) l.len l.val) ∧
    (∀ w : LateWrite, c.mstcs.find? (fun x => x.id == id) = some w → w.due ≤ s.now → writes (.mstcLanding n id) .a w.off w.len w.val) ∧
    (∀ w : LateWrite, c.fills.find? (fun x => x.id == id) = some w → w.due ≤ s.now → writes (.fillComplete n id) .a w.off w.len w.val) ∧
    (∀ w : LateWrite, c.parks.find? (fun x => x.id == id) = some w → w.due ≤ s.now → writes (.parkWrite n id) .c w.off w.len w.val) ∧
    (∀ w : ScaleLoad, c.scales.find? (fun x => x.id == id) = some w → w.due ≤ s.now → w.n ≤ 256 →
      ∃ t, exec (.scaleLanding n id) s = .next t ∧ s.SameElsewhere t n ∧ c.SameBuffers (t.core n) ∧
        (t.core n).regs.s = c.regs.s ∧ (t.core n).sliceA = c.sliceA ∧ (t.core n).sliceB = c.sliceB ∧
        ∀ k, k < 256 → (elemAt 8 (if w.b then (t.core n).regs.scaleB else (t.core n).regs.scaleA).toNat k =
            if k < w.n then elemAt 8 w.val k else elemAt 8 (if w.b then c.regs.scaleB else c.regs.scaleA).toNat k) ∧
          (if w.b then (t.core n).regs.scaleA = c.regs.scaleA else (t.core n).regs.scaleB = c.regs.scaleB))

/-! ## Load/store slot -/

/-- LDS outside global memory: the little-endian bytes at the effective address, extended as the form says, land after the latency of their
window: of a typed buffer; of the present plane of the commons, later for each mesh hop to the farthest core that hosts a byte; and an aligned
LDS.n64 of an aperture gives the number of jobs queued or running in its queue (R207, R211, R212, R218, R227, R250). -/
def Obligations.ScalarLoads : Prop :=
  (∀ (s : State) (b d : BitVec 6) (sz : BitVec 2) (sgn : Bool) (off : BitVec 32),
    let c := s.core s.cur
    let i := Instr.lds b d sz sgn off
    let n := 2 ^ sz.toNat
    let a := ((c.sreg b.toNat).toNat + (off.signExtend 64).toNat) % 2 ^ 64
    let lands := fun (lat v : Nat) => ∃ z, exec i s = .next z ∧
      (z.core s.cur).results = c.results ++ (if d = 0 then [] else [⟨c.nextId, c.regs.pc.toNat, 6, [⟨.scalar, d.toNat, 1⟩], s.now + lat,
        .scalar d.toNat (BitVec.ofInt 64 (if sgn ∧ 2 ^ (8 * n - 1) ≤ v then (v : Int) - (2 ^ (8 * n) : Nat) else (v : Int)))⟩]) ∧
      c.SameRegisters (z.core s.cur) ∧ c.SameBuffers (z.core s.cur) ∧ s.SameElsewhere z s.cur
    WellFormed i → s.Serves i → (s.die (dieOf s.cur)).jobs = [] →
    (∀ buf : Buf, Memory.wf (c.buf buf) = true → buf.base ≤ a → a + n ≤ buf.base + buf.size →
      lands (match buf with
        | .w => 8
        | _ => if c.latcls.getLsbD 0 then 6 else 4) (c.bufRead buf (a - buf.base) n)) ∧
    let at_ := a - 0x7F00000100000000
    let far := fun (x : Nat) => hops (localOf s.cur) ((s.die (dieOf s.cur)).hallmark.host (x / 4096))
    (Memory.wf (s.die (dieOf s.cur)).commons = true → 0x7F00000100000000 ≤ a →
      at_ + n ≤ 262144 * (s.die (dieOf s.cur)).hallmark.npresent → (s.regionAt s.cur at_).isSome = true →
      (s.regionAt s.cur (at_ + n - 1)).isSome = true →
      lands (4 + max (far at_) (far (at_ + n - 1)) * (if c.latcls.getLsbD 3 then 3 else 2))
        (Memory.readN (s.die (dieOf s.cur)).commons at_ n))) ∧
  ∀ (s : State) (b d : BitVec 6) (sgn : Bool) (off : BitVec 32) (q : Nat),
    let c := s.core s.cur
    let i := Instr.lds b d 3 sgn off
    let a := ((c.sreg b.toNat).toNat + (off.signExtend 64).toNat) % 2 ^ 64
    (q < 16 ∧ a = 0x7F00000200000000 + 0x1000 * q) ∨ (16 ≤ q ∧ q < 24 ∧ a = 0x7F00000200040000 + 0x1000 * (q - 16)) →
    s.Serves i → c.performs = [] → d ≠ 0 → ∃ z, exec i s = .next z ∧
      (z.core s.cur).results = c.results ++ [⟨c.nextId, c.regs.pc.toNat, 6, [⟨.scalar, d.toNat, 1⟩], s.now + 4,
        .scalar d.toNat (BitVec.ofNat 64 ((s.die (dieOf s.cur)).jobs.filter (fun j =>
          j.core == s.cur && j.queue == q && j.state != .complete)).length)⟩] ∧
      c.SameRegisters (z.core s.cur) ∧ c.SameBuffers (z.core s.cur) ∧ s.SameMemory z

/-- The loads of slices and masks from a typed buffer: the bytes that each enabled lane takes, by form, and the latency of the buffer (R207,
R211, R219 to R223). -/
def Obligations.VectorLoads : Prop :=
  ∀ (s : State) (b g : BitVec 6) (k : BitVec 4) (off : BitVec 21) (idx d : SliceOp) (cl : Bool) (m : BitVec 6) (buf : Buf),
    let c := s.core s.cur
    let en := c.mask cl k.toNat
    let ea : Nat := ((c.sreg b.toNat).toNat + (off.signExtend 64).toNat) % 2 ^ 64
    let w := d.w
    let lat := match buf with
      | .w => 8
      | _ => if c.latcls.getLsbD 0 then 6 else 4
    let inside := fun (a n : Nat) => buf.base ≤ a ∧ a + n ≤ buf.base + buf.size
    let byte := fun (a n : Nat) => c.bufRead buf (a - buf.base) n
    let strided : Nat → Nat := fun l => (((ea : Int) + (l : Int) * (c.sreg g.toNat).toInt) % ((2 ^ 64 : Nat) : Int)).toNat
    let index : Nat → Nat := fun l => ((((c.sreg b.toNat).toNat : Int) +
      toSigned (4 * idx.w) (laneOf (c.sliceLines cl idx.start.toNat idx.w) l)) % ((2 ^ 64 : Nat) : Int)).toNat
    let frame := fun (z : State) => c.SameRegisters (z.core s.cur) ∧ c.SameBuffers (z.core s.cur) ∧ s.SameElsewhere z s.cur
    let loads := fun (i : Instr) (f : Nat → Nat) => WellFormed i → s.Serves i → (s.die (dieOf s.cur)).jobs = [] → en ≠ 0 →
      ∃ z, exec i s = .next z ∧ frame z ∧ ∃ (r : Result) (lines : List SliceLine), (z.core s.cur).results = c.results ++ [r] ∧
        r.slot = 6 ∧ r.land = s.now + lat ∧ r.val = .slices cl d.start.toNat en lines ∧ lines.length = w ∧
        ∀ l, l < 256 → en.getLsbD l = true → laneOf lines l = f l % 2 ^ (4 * w)
    ((∀ l, l < 256 → en.getLsbD l = true → inside (ea + w * l / 2) ((4 * (w * l % 2) + 4 * w + 7) / 8)) →
      loads (.ldv b k off cl d) (fun l => byte (ea + w * l / 2) ((4 * (w * l % 2) + 4 * w + 7) / 8) / 2 ^ (4 * (w * l % 2)))) ∧
    ((∀ l, l < 256 → en.getLsbD l = true → inside (strided l) ((w + 1) / 2)) →
      loads (.ldvs b g k off cl d) (fun l => byte (strided l) ((w + 1) / 2))) ∧
    (inside ea ((w + 1) / 2) → loads (.ldvb b k off cl d) (fun _ => byte ea ((w + 1) / 2))) ∧
    ((∀ l, l < 256 → en.getLsbD l = true → inside (index l) ((w + 1) / 2)) →
      loads (.ldvx b k idx cl d) (fun l => byte (index l) ((w + 1) / 2))) ∧
    (inside ea 32 → m ≠ 0 → WellFormed (.ldk b k off cl m) → s.Serves (.ldk b k off cl m) → (s.die (dieOf s.cur)).jobs = [] →
      en ≠ 0 → ∃ z r, exec (.ldk b k off cl m) s = .next z ∧ frame z ∧ (z.core s.cur).results = c.results ++ [r] ∧
        r.slot = 6 ∧ r.land = s.now + lat ∧ r.val = .mask cl m.toNat (BitVec.ofNat 256 (byte ea 32)) en)

/-- A load of global memory is long-pending: it joins the outstanding accesses with its destination, and lands nothing yet (R41, R211, R312). -/
def Obligations.GlobalLoadsAreLongPending : Prop :=
  ∀ (s : State) (i : Instr) (p : Plan) (dst : LoadDest),
    let c := s.core s.cur
    (∃ b d sz sgn off, i = .lds b d sz sgn off) ∨ (∃ b k off cl d, i = .ldv b k off cl d ∨ i = .ldvb b k off cl d) ∨
      (∃ b g k off cl d, i = .ldvs b g k off cl d) ∨ (∃ b k x cl d, i = .ldvx b k x cl d) ∨ (∃ b k off cl m, i = .ldk b k off cl m) →
    c.plan i = some p → p.dest = some dst → p.pieces ≠ [] → (∀ x ∈ p.pieces, x.addr + x.len ≤ 2 ^ 52) →
    WellFormed i → s.Serves i → (s.die (dieOf s.cur)).jobs = [] →
    ∃ z l, exec i s = .next z ∧ (z.core s.cur).loads = c.loads ++ [l] ∧ l.kind = .load ∧ l.dest = dst ∧ l.locs = dst.locs ∧
      l.land = none ∧ l.err = false ∧ (∀ q ∈ l.parts, q.got = false) ∧ (z.core s.cur).results = c.results ∧
      c.SameRegisters (z.core s.cur) ∧ c.SameBuffers (z.core s.cur) ∧ s.SameElsewhere z s.cur

/-- A store to typed buffers takes place at once, and to the commons joins the store list of the superstep. For every form, every buffer byte
outside the pieces of the access keeps its value and no register and no memory changes. STS stores the low bytes of its scalar, little-endian.
STV stores exactly the 4·w bits of each enabled lane; STVS and STVX store the zero-extended value of each enabled lane at its address, the
highest lane remaining where lanes meet; STK stores the mask bits of the enabled lanes. A store to the commons leaves the present plane, and adds
one store of its core at its place in the program (R5, R207, R212, R218 to R223, R250, R261). -/
def Obligations.BufferAndCommonsStores : Prop :=
  (∀ (s : State) (i : Instr) (p : Plan),
    let c := s.core s.cur
    (∃ col b d sz off, i = .sts col b d sz off) ∨ (∃ col b k off cl o, i = .stv col b k off cl o) ∨
      (∃ col b g k off cl o, i = .stvs col b g k off cl o) ∨ (∃ col b k x cl o, i = .stvx col b k x cl o) ∨
      (∃ col b k off cl m, i = .stk col b k off cl m) →
    c.plan i = some p → WellFormed i → s.Serves i →
    ((∀ x ∈ p.pieces, ∃ b : Buf, b.base ≤ x.addr ∧ x.addr + x.len ≤ b.base + b.size) → s.addressFault s.cur i = none →
      ∃ z, exec i s = .next z ∧ c.SameRegisters (z.core s.cur) ∧ s.SameMemory z ∧
        (z.core s.cur).results = c.results ∧ (z.core s.cur).queue = c.queue ∧ (z.core s.cur).pos = c.pos + 1 ∧
        (∀ (b : Buf) (a : Nat), (∀ x ∈ p.pieces, b.base + a < x.addr ∨ x.addr + x.len ≤ b.base + a) →
          Memory.read ((z.core s.cur).buf b) a = Memory.read (c.buf b) a)) ∧
    ∀ r : Region, dieOf s.cur < 4 → p.pieces ≠ [] → (∃ x ∈ p.pieces, ∃ e ∈ x.cells, e.2.2 ≠ 0) →
      (∀ x ∈ p.pieces, 0 < x.len ∧ 0x7F00000100000000 ≤ x.addr ∧
        x.addr + x.len ≤ 0x7F00000100000000 + 262144 * (s.die (dieOf s.cur)).hallmark.npresent ∧
        ∀ k, k < x.len → s.regionAt s.cur (x.addr + k - 0x7F00000100000000) = some r) →
      (∀ y ∈ (s.die (dieOf s.cur)).stores, ¬(y.core = s.cur ∧ y.pos = c.pos)) →
      ∃ z, exec i s = .next z ∧ c.SameRegisters (z.core s.cur) ∧ c.SameBuffers (z.core s.cur) ∧ s.SameMemory z ∧
        (z.core s.cur).pos = c.pos + 1 ∧ (z.die (dieOf s.cur)).stores = (s.die (dieOf s.cur)).stores ++
          [⟨r.launch, r.group, s.cur, c.pos, 0, (p.pieces.flatMap Piece.cells).filterMap (fun e =>
            if e.2.2 = 0 then none else some (e.1 - 0x7F00000100000000, e.2))⟩]) ∧
  (∀ (s : State) (col : BitVec 3) (b d : BitVec 6) (sz : BitVec 2) (off : BitVec 32) (buf : Buf),
    let c := s.core s.cur
    let i := Instr.sts col b d sz off
    let n := 2 ^ sz.toNat
    let a := ((c.sreg b.toNat).toNat + (off.signExtend 64).toNat) % 2 ^ 64
    WellFormed i → s.Serves i → buf.base ≤ a → a + n ≤ buf.base + buf.size →
    ∃ z, exec i s = .next z ∧ s.SameMemory z ∧ c.SameRegisters (z.core s.cur) ∧
      (∀ j, j < n → Memory.read ((z.core s.cur).buf buf) (a - buf.base + j) = BitVec.ofNat 8 ((c.sreg d.toNat).toNat / 2 ^ (8 * j))) ∧
      ∀ e x, (e ≠ buf ∨ x < a - buf.base ∨ a - buf.base + n ≤ x) → Memory.read ((z.core s.cur).buf e) x = Memory.read (c.buf e) x) ∧
  ∀ (s : State) (col : BitVec 3) (b g : BitVec 6) (k : BitVec 4) (off : BitVec 21) (cl : Bool) (o idx : SliceOp) (m : BitVec 6) (buf : Buf),
    let c := s.core s.cur
    let en := c.mask cl k.toNat
    let w := o.w
    let n := (w + 1) / 2
    let ea : Nat := ((c.sreg b.toNat).toNat + (off.signExtend 64).toNat) % 2 ^ 64
    let val : Nat → Nat := fun l => laneOf (c.sliceLines cl o.start.toNat w) l
    let inside := fun (a len : Nat) => buf.base ≤ a ∧ a + len ≤ buf.base + buf.size
    let strided : Nat → Nat := fun l => (((ea : Int) + (l : Int) * (c.sreg g.toNat).toInt) % ((2 ^ 64 : Nat) : Int)).toNat
    let indexed : Nat → Nat := fun l => ((((c.sreg b.toNat).toNat : Int) +
      toSigned (4 * idx.w) (laneOf (c.sliceLines cl idx.start.toNat idx.w) l)) % ((2 ^ 64 : Nat) : Int)).toNat
    let bitOf := fun (x : Core) (q : Nat) => (Memory.read (x.buf buf) ((q - 8 * buf.base) / 8)).getLsbD ((q - 8 * buf.base) % 8)
    let byteOf := fun (x : Core) (a : Nat) => Memory.read (x.buf buf) (a - buf.base)
    let stores := fun (i : Instr) (post : Core → Prop) => WellFormed i → s.Serves i → ∃ z, exec i s = .next z ∧
      c.SameRegisters (z.core s.cur) ∧ s.SameMemory z ∧ post (z.core s.cur)
    let lanes := fun (i : Instr) (addr : Nat → Nat) => (∀ l, l < 256 → en.getLsbD l = true → inside (addr l) n) → stores i (fun x =>
      (∀ l j, l < 256 → en.getLsbD l = true → j < n →
        (∀ h, l < h → h < 256 → en.getLsbD h = true → addr l + j < addr h ∨ addr h + n ≤ addr l + j) →
        byteOf x (addr l + j) = BitVec.ofNat 8 (val l / 2 ^ (8 * j))) ∧
      ∀ a, buf.base ≤ a → (∀ l, l < 256 → en.getLsbD l = true → a < addr l ∨ addr l + n ≤ a) → byteOf x a = byteOf c a)
    Memory.wf (c.buf buf) = true →
    ((∀ l, l < 256 → en.getLsbD l = true → inside (ea + w * l / 2) ((4 * (w * l % 2) + 4 * w + 7) / 8)) → stores (.stv col b k off cl o) (fun x =>
      (∀ l i, l < 256 → en.getLsbD l = true → i < 4 * w → bitOf x (8 * ea + 4 * w * l + i) = (val l).testBit i) ∧
      ∀ q, 8 * buf.base ≤ q → (∀ l i, l < 256 → en.getLsbD l = true → i < 4 * w → q ≠ 8 * ea + 4 * w * l + i) → bitOf x q = bitOf c q)) ∧
    lanes (.stvs col b g k off cl o) strided ∧ lanes (.stvx col b k idx cl o) indexed ∧
    (inside ea 32 → en ≠ 0 → stores (.stk col b k off cl m) (fun x =>
      (∀ l, l < 256 → en.getLsbD l = true → bitOf x (8 * ea + l) = (c.mask cl m.toNat).getLsbD l) ∧
      ∀ q, 8 * buf.base ≤ q → (∀ l, l < 256 → en.getLsbD l = true → q ≠ 8 * ea + l) → bitOf x q = bitOf c q))

/-- A store to global memory enters the colour queue of its COL and changes no byte of memory, when the queue has room for its sectors. A store
that the queue has no room for performs its whole queue first, in program order, closes the window and sets NOREPLAY; FENCE performs the queues
of its mask, and HALT all, and both close the window. The performs are stated for entries that stand in program order, are translated, reach no
notify page, and find their die-to-die ways active (R130, R133, R213, R242, R244, R312). -/
def Obligations.GlobalStoresWaitAndPerform : Prop :=
  (∀ (s : State) (i : Instr) (p : Plan),
    let c := s.core s.cur
    let cells := p.pieces.flatMap Piece.cells
    let sectors := c.queueSectors p.col + (sectorsOf (distinct (cells.map (fun e => e.1)))).length
    (∃ col b d sz off, i = .sts col b d sz off) ∨ (∃ col b k off cl o, i = .stv col b k off cl o) ∨
      (∃ col b g k off cl o, i = .stvs col b g k off cl o) ∨ (∃ col b k x cl o, i = .stvx col b k x cl o) ∨
      (∃ col b k off cl m, i = .stk col b k off cl m) →
    c.plan i = some p → cells ≠ [] → (∀ x ∈ p.pieces, x.addr + x.len ≤ 2 ^ 52) →
    WellFormed i → s.Serves i → (s.die (dieOf s.cur)).jobs = [] →
    (sectors ≤ 512 →
      ∃ z e, exec i s = .next z ∧ (z.core s.cur).queue = c.queue ++ [e] ∧ e.col = p.col ∧ e.bytes = cells ∧ e.bundle = c.regs.pc.toNat ∧
        (z.core s.cur).pos = c.pos + 1 ∧ c.SameRegisters (z.core s.cur) ∧ c.SameBuffers (z.core s.cur) ∧ s.SameElsewhere z s.cur) ∧
    (512 < sectors → c.performs = [] → (c.queue.map (fun e => e.seq)).Pairwise (· < ·) →
      (∀ e ∈ c.queue, e.col = p.col → e.trans.ready = true ∧ s.notifying (s.vfOf s.cur) e.trans = none ∧
        s.transReach s.cur e.trans = .active) →
      ∃ z e, exec i s = .next z ∧ (z.core s.cur).queue = c.queue.filter (fun x => x.col != p.col) ++ [e] ∧ e.col = p.col ∧ e.bytes = cells ∧
        z.mem = s.mem.writeCells ((c.queue.filter (fun x => x.col == p.col)).flatMap (fun x =>
          x.written.map (fun y => (x.trans.phys y.1, y.2)))) ∧
        (z.core s.cur).regs.stat = { c.regs.stat with window := false, noreplay := true } ∧
        c.SameRegisters (z.core s.cur) ∧ c.SameBuffers (z.core s.cur))) ∧
  ∀ (s : State) (mask : BitVec 8),
    let c := s.core s.cur
    let nx := stepOn c.regs.pc.toNat c.regs.loops
    let performs := fun (i : Instr) (which : Entry → Bool) =>
      c.performs = [] → (c.queue.map (fun e => e.seq)).Pairwise (· < ·) →
      (∀ e ∈ c.queue, which e = true → e.trans.ready = true ∧ s.notifying (s.vfOf s.cur) e.trans = none ∧
        s.transReach s.cur e.trans = .active) →
      ∃ z, exec i s = .next z ∧ (z.core s.cur).queue = c.queue.filter (fun e => !which e) ∧ (z.core s.cur).performs = [] ∧
        z.mem = s.mem.writeCells ((c.queue.filter which).flatMap (fun x => x.written.map (fun y => (x.trans.phys y.1, y.2)))) ∧
        (z.core s.cur).regs.stat.window = false ∧ c.SameRegisters (z.core s.cur) ∧ c.SameBuffers (z.core s.cur)
    (nx.1 < s.imageLen s.cur → mask ≠ 0 → performs (.fence mask) (inColours mask)) ∧ performs .halt (fun _ => true)

/-- An aligned STS.n64 to a copy aperture, or to a bank-product aperture, starts a job with the template and parameter that its scalar names, on
the channel or the stack's queue of the aperture, behind the jobs that are there; the window closes when the template's write footprint lies in
global memory. Stated for a colour with no store queued (R226). -/
def Obligations.ApertureStoreStartsAJob : Prop :=
  ∀ (s : State) (col : BitVec 3) (b d : BitVec 6) (off : BitVec 32) (q : Nat),
    let c := s.core s.cur
    let i := Instr.sts col b d 3 off
    let v := c.sreg d.toNat
    let die := dieOf s.cur
    let a := ((c.sreg b.toNat).toNat + (off.signExtend 64).toNat) % 2 ^ 64
    let tpl := getD 0 c.templates (v.toNat % 256)
    let param := BitVec.ofNat 64 (v.toNat / 256)
    let global := bits tpl.toNat 767 704 ≠ 0 ∧ movedField tpl param 703 640 1 < 2 ^ 52
    (q < 16 ∧ a = 0x7F00000200000000 + 0x1000 * q) ∨ (16 ≤ q ∧ q < 24 ∧ a = 0x7F00000200040000 + 0x1000 * (q - 16)) →
    s.Serves i → (∀ e ∈ c.queue, e.col ≠ col.toNat) → c.performs = [] → die < 4 →
    ∃ z j, exec i s = .next z ∧ (z.die die).jobs = (s.die die).jobs ++ [j] ∧ j.core = s.cur ∧ j.queue = q ∧
      j.template = v.toNat % 256 ∧ j.param = param ∧ j.tpl = tpl ∧ j.state = .waiting ∧ j.due = s.now + 1 ∧ j.bundle = c.regs.pc.toNat ∧
      j.view = c.view ∧ j.pos = c.pos ∧ (z.core s.cur).queue = c.queue ∧ (z.core s.cur).pos = c.pos + 1 ∧
      (z.core s.cur).regs.stat.window = (c.regs.stat.window && !decide global) ∧
      c.SameRegisters (z.core s.cur) ∧ c.SameBuffers (z.core s.cur) ∧ s.SameMemory z

/-- An atomic of global memory whose page the core's TLB holds and whose way is active, with no store queued and no perform under way, is one
step of the global store: the new value is written, the old one returns with the access, and the replay window closes (R224, R225). -/
def Obligations.AtomicsAreOneStep : Prop :=
  ∀ (s : State) (col : BitVec 3) (b d e : BitVec 6) (sz : BitVec 2) (off : BitVec 32) (pg : Page),
    let c := s.core s.cur
    let n := 2 ^ sz.toNat
    let a := ((c.sreg b.toNat).toNat + (off.signExtend 64).toNat) % 2 ^ 64
    let pa := 4096 * pageFrame pg (a / 4096) + a % 4096
    let old := s.mem.readN pa n
    let x := (c.sreg d.toNat).toNat % 2 ^ (8 * n)
    let y := (c.sreg e.toNat).toNat % 2 ^ (8 * n)
    let sg := fun (v : Nat) => toSigned (8 * n) v
    let does := fun (i : Instr) (new : Nat) => s.Serves i → ∃ z l, exec i s = .next z ∧
      (∀ j, j < n → Memory.read z.mem (pa + j) = BitVec.ofNat 8 (new / 2 ^ (8 * j))) ∧
      (∀ q, q < pa ∨ pa + n ≤ q → Memory.read z.mem q = Memory.read s.mem q) ∧
      (z.core s.cur).loads = c.loads ++ [l] ∧ l.kind = .atomic ∧ l.dest = .scalar d.toNat n false a ∧
      (∀ j, j < n → Memory.read l.got (a + j) = BitVec.ofNat 8 (old / 2 ^ (8 * j))) ∧ l.land.isSome = true ∧
      (z.core s.cur).regs.stat.window = false ∧ c.SameRegisters (z.core s.cur) ∧ c.SameBuffers (z.core s.cur)
    2 ≤ sz.toNat → a + n ≤ 2 ^ 52 → a % n = 0 → old < 2 ^ (8 * n) →
    findPage c.tlb (s.vfOf s.cur) (4096 * (a / 4096)) = some pg → pg.r = true → pg.w = true →
    s.reach s.cur (4096 * pageFrame pg (a / 4096)) = .active → c.queue = [] → c.performs = [] → c.loads = [] → (s.die (dieOf s.cur)).jobs = [] →
    does (.atadd col b d sz off) ((old + x) % 2 ^ (8 * n)) ∧
    does (.atmin col b d sz off) (if sg x < sg old then x else old) ∧
    does (.atmax col b d sz off) (if sg old < sg x then x else old) ∧
    does (.atminu col b d sz off) (min old x) ∧ does (.atmaxu col b d sz off) (max old x) ∧
    does (.atand col b d sz off) (old &&& x) ∧ does (.ator col b d sz off) (old ||| x) ∧
    does (.atxch col b d sz off) x ∧ does (.atcas col b d e sz off) (if old = y then x else old)

/-- PREF outside global memory has no effect, and inside it changes no architectural state; TXINIT and TXARV with a value that R231 admits hand
their barrier and value to the barrier monitor of this cycle (R208, R228, R229, R231). The end of the cycle (`State.txEnd`, which every cycle
runs for every core), stated for a core one of whose barriers was touched: on the bytes that a store of the cycle left, TXINIT or TXARV applies,
then one decrement of SECTORS for each sector that a job made visible; with ARRIVALS and SECTORS both 0 the phase completes, once; no other byte
of the buffer changes (R229 to R231). -/
def Obligations.PrefetchAndBarrierUpdates : Prop :=
  ∀ (s : State) (b d : BitVec 6) (off : BitVec 32),
    let c := s.core s.cur
    let a := ((c.sreg b.toNat).toNat + (off.signExtend 64).toNat) % 2 ^ 64
    let v := c.sreg d.toNat
    let hands := fun (i : Instr) (init : Bool) => s.Serves i → ∃ z, exec i s = .next z ∧
      (z.core s.cur).txOp = some ⟨a - aBase, v, init, c.regs.pc.toNat, c.schedule⟩ ∧ a - aBase ∈ (z.core s.cur).txTouch ∧
      a - aBase ∈ (z.core s.cur).txKnown ∧ c.SameRegisters (z.core s.cur) ∧ c.SameBuffers (z.core s.cur) ∧ s.SameMemory z
    (s.Serves (.pref b off) → 2 ^ 52 ≤ a → exec (.pref b off) s = .next s) ∧
    (s.Serves (.pref b off) → a < 2 ^ 52 → ∃ z, exec (.pref b off) s = .next z ∧ c.SameRegisters (z.core s.cur) ∧
      c.SameBuffers (z.core s.cur) ∧ (z.core s.cur).regs = c.regs ∧ s.SameElsewhere z s.cur) ∧
    (aBase ≤ a → a + 16 ≤ aBase + 0x80000 → a % 16 = 0 → (s.die (dieOf s.cur)).jobs = [] →
      (v ≠ 0 → v.toNat < 2 ^ 20 → hands (.txinit b d off) true) ∧
      (-(2 ^ 39 : Nat) ≤ v.toInt → v.toInt < (2 ^ 39 : Nat) → c.bufRead .a (a - aBase) 16 / 16 % 2 ^ 20 ≠ 0 →
        hands (.txarv b d off) false)) ∧
    ∀ n x : Nat,
      let c := s.core n
      let t := s.txEnd n
      let field := fun (y : Core) (hi lo : Nat) => bits (y.bufRead .a x 16) hi lo
      let reload := match c.txOp with
        | some o => if o.init then o.val.toNat else field c 83 64
        | none => field c 83 64
      let arrivals := match c.txOp with
        | some o => if o.init then o.val.toNat else (field c 23 4 + (2 ^ 20 - 1)) % 2 ^ 20
        | none => field c 23 4
      let phase := match c.txOp with
        | some o => if o.init then 0 else field c 3 0
        | none => field c 3 0
      let expected : Int := match c.txOp with
        | some o => if o.init then 0 else field c 63 24 + o.val.toInt
        | none => field c 63 24
      let sectors := (expected - c.txDecs.length) % (2 ^ 40 : Nat)
      x + 16 ≤ 2 ^ 19 → x % 16 = 0 → Memory.wf c.bufA = true → (∀ y ∈ c.txTouch, y = x) → (∀ y ∈ c.txDecs, y.off = x) →
      (∀ o, c.txOp = some o → o.off = x ∧ (o.init = true → o.val.toNat < 2 ^ 20)) →
      (c.txTouch ≠ [] ∨ c.txDecs ≠ [] ∨ c.txOp.isSome = true) →
      field (t.core n) 83 64 = reload ∧ (field (t.core n) 63 24 : Int) = sectors ∧
      (arrivals = 0 ∧ sectors = 0 → field (t.core n) 23 4 = reload ∧ field (t.core n) 3 0 = (phase + 1) % 16) ∧
      (arrivals ≠ 0 ∨ sectors ≠ 0 → field (t.core n) 23 4 = arrivals ∧ field (t.core n) 3 0 = phase) ∧
      (∀ y, y < x ∨ x + 16 ≤ y → Memory.read (t.core n).bufA y = Memory.read c.bufA y) ∧
      (t.core n).txTouch = [] ∧ (t.core n).txOp = none ∧ (t.core n).txDecs = [] ∧ (t.core n).oldA = none ∧ (t.core n).regs = c.regs ∧
      s.SameMemory t

/-- What stops an access or a bundle at issue. The address faults have cause 0x07 with SLOTS, the sub-cause, the lane and the first byte: a first
byte that no window holds, bytes over a window's end, an atomic outside global memory, the control and status window, an access that its window
does not admit, a missing alignment, a C tile that is not free, and a barrier value that R231 refuses; strided and indexed accesses are judged
lane by lane, and `ls` and `sf` together mark both slots (R28, R206 to R210, R231, R233). The lines: a pool line traps with cause 0x02, a broken
one with 0x0C; an illegal bundle traps with cause 0x01, the reasons found and the slots that take part; a bundle in hazard raises the shadow
fault in native mode and is held in interlocked mode (R42 to R44, R72 to R80). That `ls` and `sf` together give SLOTS 0xC0 with the address of
the lower slot is the model's reading (log 16), and that a broken line traps with 0x0C although it is a pool line its choice (log 49). -/
def Obligations.AddressFaultsAndIssueTraps : Prop :=
  (∀ (s : State) (col : BitVec 3) (b d g : BitVec 6) (sz : BitVec 2) (sgn : Bool) (off : BitVec 32) (k : BitVec 4) (voff : BitVec 21)
      (cl : Bool) (o idx : SliceOp) (m : BitVec 6) (coff : BitVec 12),
    let c := s.core s.cur
    let n := 2 ^ sz.toNat
    let a := ((c.sreg b.toNat).toNat + (off.signExtend 64).toNat) % 2 ^ 64
    let commons : Nat := 0x7F00000100000000
    let wins : List (Nat × Nat × Nat) := [(0, 2 ^ 52, 0), (aBase, 0x80000, 0), (cBase, 0x80000, 0), (wBase, 0x100000, 0),
      (commons, 262144 * (s.die (dieOf s.cur)).hallmark.npresent, 0), (0x7F00000200000000, 0x10000, 3),
      (0x7F00000200040000, 0x8000, 3), (0x7F00000300000000, 0x8000, 5)]
    let holds := fun (w : Nat × Nat × Nat) (x len : Nat) => w.1 ≤ x ∧ x + len ≤ w.1 + w.2.1
    let outside := fun (x len sub : Nat) => (sub = 1 ∧ ∀ w ∈ wins, ¬ holds w x 1) ∨ (sub = 2 ∧ ∃ w ∈ wins, holds w x 1 ∧ ¬ holds w x len)
    let bad := fun (x len sub : Nat) => outside x len sub ∨ ∃ w ∈ wins, holds w x len ∧ sub = w.2.2 ∧ sub ≠ 0
    let good := fun (x len : Nat) => ∃ w ∈ wins, holds w x len ∧ w.2.2 = 0 ∧ w.1 ≠ commons
    let traps := fun (i : Instr) (slots sub lane x : Nat) => WellFormed i → s.Serves i →
      exec i s = .next (s.takeTrap s.cur ⟨7, slots, sub + lane * 2 ^ 8, BitVec.ofNat 64 x, c.regs.pc.toNat⟩)
    let faults := fun (i : Instr) (sub : Nat) => traps i 0x40 sub 0 a
    let en := c.mask cl k.toNat
    let ea : Nat := ((c.sreg b.toNat).toNat + (voff.signExtend 64).toNat) % 2 ^ 64
    let strided : Nat → Nat := fun l => (((ea : Int) + (l : Int) * (c.sreg g.toNat).toInt) % ((2 ^ 64 : Nat) : Int)).toNat
    let indexed : Nat → Nat := fun l => ((((c.sreg b.toNat).toNat : Int) +
      toSigned (4 * idx.w) (laneOf (c.sliceLines cl idx.start.toNat idx.w) l)) % ((2 ^ 64 : Nat) : Int)).toNat
    let bytes := (o.w + 1) / 2
    let byLane := fun (i : Instr) (addr : Nat → Nat) => ∀ l sub, l < 256 → en.getLsbD l = true → bad (addr l) bytes sub →
      (∀ h, h < l → en.getLsbD h = true → good (addr h) bytes) → traps i 0x40 sub l (addr l)
    (∀ sub, outside a n sub → faults (.lds b d sz sgn off) sub ∧ faults (.sts col b d sz off) sub) ∧
    (∀ w ∈ wins, w.2.2 = 3 → holds w a n → (sz ≠ 3 ∨ a % 0x1000 ≠ 0) → faults (.lds b d sz sgn off) 3 ∧ faults (.sts col b d sz off) 3) ∧
    (∀ w ∈ wins, w.2.2 = 5 → holds w a n →
      let index := (a - w.1) / 8
      let listed := sz = 3 ∧ a % 8 = 0 ∧ (index < 7 ∨ (8 ≤ index ∧ index < 12))
      (¬ listed → faults (.lds b d sz sgn off) 5) ∧ (¬ listed ∨ index ≠ 1 → faults (.sts col b d sz off) 5)) ∧
    (∀ w ∈ wins, w.1 = commons → holds w a n → s.regionAt s.cur (a - commons) = none →
      faults (.lds b d sz sgn off) 3 ∧ faults (.sts col b d sz off) 3) ∧
    (2 ≤ sz.toNat → (∀ sub, outside a n sub → faults (.atadd col b d sz off) sub) ∧
      (∀ w ∈ wins, w.1 ≠ 0 → holds w a n → faults (.atadd col b d sz off) 6 ∧ faults (.atxch col b d sz off) 6 ∧
        faults (.atcas col b d g sz off) 6) ∧
      (a + n ≤ 2 ^ 52 → a % n ≠ 0 → faults (.atadd col b d sz off) 4 ∧ faults (.atmaxu col b d sz off) 4)) ∧
    (∀ sub, outside a 16 sub → faults (.txinit b d off) sub ∧ faults (.txarv b d off) sub) ∧
    (∀ w ∈ wins, w.1 ≠ aBase → holds w a 16 → faults (.txinit b d off) (max 3 w.2.2) ∧ faults (.txarv b d off) (max 3 w.2.2)) ∧
    (aBase ≤ a → a + 16 ≤ aBase + 0x80000 →
      (a % 16 ≠ 0 → faults (.txinit b d off) 4 ∧ faults (.txarv b d off) 4) ∧
      (a % 16 = 0 → (c.sreg d.toNat = 0 ∨ 2 ^ 20 ≤ (c.sreg d.toNat).toNat) → faults (.txinit b d off) 8) ∧
      (a % 16 = 0 → ((c.sreg d.toNat).toInt < -(2 ^ 39 : Nat) ∨ (2 ^ 39 : Nat) ≤ (c.sreg d.toNat).toInt ∨
        c.bufRead .a (a - aBase) 16 / 16 % 2 ^ 20 = 0) → faults (.txarv b d off) 8)) ∧
    (∀ t, 128 * coff.toNat / 32768 ≤ t → t ≤ (128 * (coff.toNat + o.w) - 1) / 32768 → c.parkmap.getLsbD t = false →
      traps (.park coff cl o) 0x80 7 0 (cBase + 128 * coff.toNat) ∧ traps (.unpk coff cl o) 0x80 7 0 (cBase + 128 * coff.toNat)) ∧
    byLane (.ldvs b g k voff cl o) strided ∧ byLane (.stvs col b g k voff cl o) strided ∧
    byLane (.ldvx b k idx cl o) indexed ∧ byLane (.stvx col b k idx cl o) indexed ∧
    ∀ l, l < 256 → en.getLsbD l = true → (∀ h, h < l → en.getLsbD h = false) → ∀ sub,
      (bad ea bytes sub → traps (.ldvb b k voff cl o) 0x40 sub l ea) ∧
      (bad ea 32 sub → traps (.ldk b k voff cl m) 0x40 sub l ea ∧ traps (.stk col b k voff cl m) 0x40 sub l ea) ∧
      let first := (ea + o.w * l / 2) % 2 ^ 64
      let whole := fun (w : Nat × Nat × Nat) => ∀ h, h < 256 → en.getLsbD h = true →
        holds w ((ea + o.w * h / 2) % 2 ^ 64) ((4 * (o.w * h % 2) + 4 * o.w + 7) / 8)
      ((sub = 1 ∧ ∀ w ∈ wins, ¬ holds w first 1) ∨ (sub = 2 ∧ ∃ w ∈ wins, holds w first 1 ∧ ¬ whole w) ∨
        (∃ w ∈ wins, whole w ∧ sub = w.2.2 ∧ sub ≠ 0) →
        traps (.ldv b k voff cl o) 0x40 sub l first ∧ traps (.stv col b k voff cl o) 0x40 sub l first)) ∧
  ∀ (s : State) (n : Nat),
    let c := s.core n
    let p := c.regs.pc.toNat
    let traps := fun (r : TrapRec) => s.issueCore n = s.takeTrap n r
    (c.atBoundary s.now = true → c.pendNow = none → c.failed = false → c.stopNext = none → s.segmentStep n = s → c.bound = 0 →
      (∀ l, s.lineAt n p = .line l → s.poolLine n p = true → traps ⟨2, 0, 0, 0, p⟩) ∧
      ∀ sub, s.lineAt n p = .broken sub → traps ⟨12, 0, sub, BitVec.ofNat 64 (s.lineAddr n p), p⟩) ∧
    ∀ l, s.StandsAt n l →
      let b := decodeLine l
      let marks := fun (m : Nat) (sl : Slot) => m.testBit sl.index = true
      let illegal := fun (reason : Nat) (sls : List Slot) => ∃ r m, traps ⟨1, m, r, 0, p⟩ ∧ r.testBit reason = true ∧ ∀ sl ∈ sls, marks m sl
      (b.bad ≠ [] → ∃ r m, traps ⟨1, m, r, 0, p⟩ ∧ (∀ e ∈ b.bad, marks m e.1) ∧
        (r.testBit 0 = true ↔ ∃ e ∈ b.bad, e.2.opcode = true) ∧ (r.testBit 1 = true ↔ ∃ e ∈ b.bad, e.2.type = true) ∧
        (r.testBit 2 = true ↔ ∃ e ∈ b.bad, e.2.operand = true) ∧ (r.testBit 3 = true ↔ ∃ e ∈ b.bad, e.2.reserved = true) ∧
        (r.testBit 9 = true ↔ ∃ e ∈ b.bad, e.2.csr = true)) ∧
      (∀ e ∈ b.acts, ∀ f ∈ b.acts, e.1 ≠ f.1 → locsMeet (destsOf e.2) (destsOf f.2) = true → illegal 4 [e.1, f.1]) ∧
      (share (fixedPorts (b.at .mx)) (fixedPorts (b.at .sf)) = true → illegal 5 [.mx, .sf]) ∧
      (share (mxTiles (b.at .mx)) (sfTiles (b.at .sf)) = true → illegal 7 [.mx, .sf]) ∧
      (∀ cl : Bool, 4 < ((b.acts.flatMap (fun e => cReads e.2)).filter (· == cl)).length →
        illegal 6 ((b.acts.filter (fun e => (cReads e.2).contains cl)).map (fun e => e.1))) ∧
      (∀ e ∈ b.acts, standsAlone e.2 = true → (∃ f ∈ b.acts, f.1 ≠ e.1) ∨ b.mark = true ∨ b.segb = true →
        illegal 8 (b.acts.map (fun f => f.1) ++ if b.mark || b.segb then [.ct] else [])) ∧
      (stepTwo b = (0, 0) →
        (∀ e ∈ b.acts, ∀ r ∈ c.results, s.now < r.land → (locsMeet (sourcesOf e.2) r.locs = true ∨
            ∃ lat, s.latOf n e.2 = some lat ∧ s.now + lat ≤ r.land ∧ locsMeet (destsOf e.2) r.locs = true) →
          (c.imode = false → ∃ m d, traps ⟨10, m, d, 0, p⟩ ∧ marks m e.1) ∧
          (c.imode = true → s.bankHold n b = false → c.late s.now b.ct = false → c.debugNow = false →
            s.issueCore n = s.holdCycle n .shadow 0)) ∧
        (s.hazards n b = [] → (b.mark = true → c.busy s.now = false) → s.holdOf n b false = none →
          (∀ q, c.plan (b.at .ls) = some q →
            (share q.ports (fixedPorts (b.at .mx)) = true → illegal 5 [.mx, .ls]) ∧
            (share q.ports (fixedPorts (b.at .sf)) = true → illegal 5 [.ls, .sf]) ∧
            (q.ports.contains .cAccess = true → share q.tiles (mxTiles (b.at .mx)) = true → illegal 7 [.mx, .ls])) ∧
          ((c.stepFour b).1 = 0 → s.bundleService n b = none → c.markBad b = false → s.controlFault n b.ct = none →
            c.uniformCheck b = none → ∀ t u, s.addressFault n (b.at .ls) = some t → s.addressFault n (b.at .sf) = some u →
              traps { t with slots := 0xC0 })))

/-- A long-pending load whose data has come, on an active way, lands in its cycle: a scalar takes the bytes, extended; the access leaves the
outstanding ones. A part of a load that may read takes all its bytes from one point of the history, at or after the view's position of each byte
that no queued store of the core gives, and not past the present; where an earlier part has made the load's Read, the view and the present are those
of that Read. The view moves to that point for those bytes and for no other. The join of two views stands, for each byte, at the later of their
points (R41, R241, R243, R407). -/
def Obligations.LongPendingLoadsLand : Prop :=
  ∀ (s : State) (n id : Nat) (l : Load),
    let c := s.core n
    c.loads.find? (fun x => x.id == id) = some l →
    (∀ at_ d size sgn a, l.land = some at_ → at_ ≤ s.now → l.err = false → s.wayState n l.trans = .active → l.dest = .scalar d size sgn a → d < 64 → d ≠ 0 → 0 < size →
      l.got.readN a size < 2 ^ (8 * size) →
      ∃ t, exec (.longPendingLanding n id) s = .next t ∧ (t.core n).loads = c.loads.filter (fun x => x.id != id) ∧
        (t.core n).sreg d = BitVec.ofInt 64 (if sgn ∧ 2 ^ (8 * size - 1) ≤ l.got.readN a size
          then (l.got.readN a size : Int) - (2 ^ (8 * size) : Nat) else (l.got.readN a size : Int)) ∧
        (∀ k, k < 64 → k ≠ d → (t.core n).sreg k = c.sreg k) ∧ c.SameBuffers (t.core n) ∧ s.SameElsewhere t n) ∧
    (∀ part p back, l.kind = .load → l.parts[part]? = some p → p.due ≤ s.now → p.got = false → l.trans.ready = true →
      readBlocked c.loads l p = false →
      ∃ t l', exec (.globalLoadRead n id part back) s = .next t ∧ (t.core n).loads.find? (fun x => x.id == id) = some l' ∧
        l'.parts[part]? = some { p with got := true } ∧ l'.dest = l.dest ∧ c.SameRegisters (t.core n) ∧ s.SameMemory t ∧
        let queued := c.queue.filter (fun e => decide (e.seq < id))
        let fromStore := (p.addrs.filter (fun a => !heldByte queued a)).map l.trans.phys
        let latest := (l.begun.map (fun b => b.1)).getD s.writes
        let view := (l.begun.map (fun b => b.2)).getD c.view
        ∃ pt, (∀ a ∈ fromStore, s.viewPos view a ≤ pt) ∧ (pt ≤ latest ∨ ∃ a ∈ fromStore, pt = s.viewPos view a) ∧
          ((∀ a ∈ fromStore, s.viewPos view a ≤ latest - back) → pt = latest - back) ∧ l'.begun = some (latest, view) ∧
          (∀ a ∈ p.addrs, Memory.read l'.got a = forwardByte queued a (s.histRead pt (l.trans.phys a))) ∧
          (∀ a ∈ fromStore, (t.core n).view.point a = max (c.view.point a) pt) ∧
          ∀ a, a ∉ fromStore → (t.core n).view.point a = c.view.point a) ∧
    ∀ u v : View, (u.pts.map (fun e => e.1)).Nodup → (v.pts.map (fun e => e.1)).Nodup →
      ∀ a, (u.join v).point a = max (u.point a) (v.point a)

/-! ## Events of a core: stops, errors, service, waits -/

/-- A core stops by its mark distance, by a failed translation or by a debug request; the end of the drain writes the record of a trap, halts the
core, completes the stop at a mark, whose next bundle TRAPPC then names, or completes the debug stop; a debug resume lets it issue again at the
same bundle. That a failed translation stops the core in BARW, BARAW and TXWAIT too, as in STEP, is the model's reading (log 15) (R33, R35, R47, R48,
R122, R313, R318, R334 to R336, R401). -/
def Obligations.CoresStopAndDrain : Prop :=
  ∀ (s : State) (n : Nat),
    let c := s.core n
    let p := c.regs.pc
    (c.atBoundary s.now = true → c.pend = [] → c.failed = false → c.stopNext = none → c.bound ≠ 0 → c.bound.toNat + 1 ≤ c.markDist →
      (∀ l, s.lineAt n p.toNat = .line l → (decodeLine l).mark = false) →
      exec (.markOverdue n) s = .next (s.takeTrap n ⟨11, 0, c.bound.toNat, 0, p.toNat⟩)) ∧
    (c.run = .running → c.expanding s.now = false → c.failed = true → c.pendNow = none →
      ∃ t r, exec (.translate n) s = .next t ∧ (t.core n).run = .draining ∧ (t.core n).stop = some (.trap r) ∧ r.cause = 13 ∧
        r.index = p.toNat ∧ (t.core n).wait = c.wait ∧ (t.core n).loads = c.loads ∧ (t.core n).queue = c.queue ∧
        c.SameRegisters (t.core n) ∧ c.SameBuffers (t.core n) ∧ s.SameMemory t) ∧
    (∀ r : TrapRec, c.run = .draining → c.stop = some (.trap r) → r.cause ≠ 13 → c.drained = true →
      ∃ t, exec (.drainComplete n) s = .next t ∧ (t.core n).run = .stopped ∧ (t.core n).trappc = BitVec.ofNat 64 (r.index % 2 ^ 24) ∧
        (t.core n).trapinfo = BitVec.ofNat 64 (r.detail % 2 ^ 32 * 2 ^ 32 + r.slots % 256 * 256 + r.cause % 256) ∧
        (t.core n).trapaddr = r.addr ∧ (t.core n).regs = { c.regs with pc := BitVec.ofNat 24 r.index } ∧
        (t.core n).hmver = (s.die (dieOf n)).hallmark.version ∧ c.SameBuffers (t.core n) ∧ s.SameMemory t) ∧
    (c.run = .draining → c.stop = some .halt → c.drained = true → c.pend = [] → c.performs = [] → c.queue = [] →
      ∃ t, exec (.drainComplete n) s = .next t ∧ (t.core n).run = .halted ∧ (t.core n).regs.loops = [] ∧
        c.SameBuffers (t.core n) ∧ s.SameElsewhere t n) ∧
    (∀ w, w = .seal ∨ (∃ q, w = .mark q) → c.run = .draining → c.stop = some w → c.drained = true → c.performs = [] → c.queue = [] →
      ∃ t, exec (.drainComplete n) s = .next t ∧ (t.core n).run = .stopped ∧ (t.core n).stop = some w ∧
        (t.core n).trappc = p.zeroExtend 64 ∧ (t.core n).trapinfo = c.trapinfo ∧ (t.core n).trapaddr = c.trapaddr ∧
        (t.core n).regs = { c.regs with stat := { c.regs.stat with window := false } } ∧
        (t.core n).hmver = (s.die (dieOf n)).hallmark.version ∧ c.SameBuffers (t.core n) ∧ s.SameElsewhere t n) ∧
    (c.framed = false → c.debugStopped = false →
      exec (.debugStopRequest n) s = .next (s.setCore n { c with dbg := { c.dbg with req := c.dbg.req ||| 32 } })) ∧
    (c.run = .running → c.expanding s.now = false → c.debugNow = true → c.pendNow = none → c.failed = false →
      (c.wait.isSome = true ∨ ∀ r, s.verdict n ≠ .trap r) →
      ∃ t, exec (.debugStop n) s = .next t ∧ (t.core n).run = .draining ∧
        (t.core n).stop = some (.debug (c.dbg.req + if c.wait.isSome then 128 else 0)) ∧ (t.core n).dbg.bhit = 0 ∧
        (t.core n).wait = c.wait ∧ (t.core n).regs.pc = p ∧ c.SameRegisters (t.core n) ∧ c.SameBuffers (t.core n) ∧ s.SameMemory t) ∧
    (∀ w : Nat, c.run = .draining → c.stop = some (.debug w) → c.drained = true →
      ∃ t, exec (.drainComplete n) s = .next t ∧ (t.core n).run = .stopped ∧ (t.core n).stopped = true ∧
        (t.core n).waiting = c.wait.isSome ∧ (t.core n).trappc = p.zeroExtend 64 ∧ (t.core n).regs = c.regs ∧
        c.SameBuffers (t.core n) ∧ s.SameMemory t) ∧
    (c.framed = false → c.debugStopped = true →
      ∃ t, exec (.debugResume n) s = .next t ∧ (t.core n).run = .running ∧ (t.core n).stopped = false ∧ (t.core n).markDist = 0 ∧
        (t.core n).wait = c.wait ∧ (t.core n).regs = c.regs ∧ c.SameRegisters (t.core n) ∧ c.SameBuffers (t.core n) ∧
        s.SameElsewhere t n)

/-- Errors and walks: an uncorrectable error on a result discards its value and waits as DATAERR for the next boundary, one at issue stops the
bundle; a corrected event is counted; a job fault reaches its core, and of a core that has halted it is reported and ends the launch; a walk that
ends fills the die's TLB and no access waits for its page any more; 1 ms after its stop a software trap without service aborts the launch (R275,
R305, R311 to R313, R325, R326, R390). -/
def Obligations.ErrorsFaultsAndWalks : Prop :=
  ∀ (s : State) (n id : Nat) (e : DataErr),
    let c := s.core n
    (c.carries id = true → ∃ t, exec (.dataError n e (.onResult id)) s = .next t ∧ (t.core n).errs = c.errs ++ [(n, e)] ∧
      (t.core n).pend = c.pend ++ [.data ⟨14, 0, e.source.toNat * 2 ^ 16 + e.unit.toNat, e.addr, 0⟩] ∧
      (∀ r ∈ (t.core n).results, r.id = id → r.val = .nothing) ∧ (t.core n).regs = c.regs ∧ c.SameBuffers (t.core n) ∧ s.SameMemory t) ∧
    (∀ (slots : BitVec 8) (b : Bundle), e.source ≠ 6 → slots ≠ 0 → c.atBoundary s.now = true → c.pend = [] → c.failed = false →
      c.stopNext = none → s.verdict n = .issue b →
      ∃ t, exec (.dataError n e (.atIssue slots)) s = .next t ∧ (t.core n).run = .draining ∧ (t.core n).regs.pc = c.regs.pc ∧
        (t.core n).stop = some (.trap ⟨14, slots.toNat, e.source.toNat * 2 ^ 16 + e.unit.toNat, e.addr, c.regs.pc.toNat⟩) ∧
        c.SameRegisters (t.core n) ∧ c.SameBuffers (t.core n) ∧ s.SameMemory t) ∧
    (∀ source unit : Nat, ∃ t, exec (.correctedEvent n source unit) s = .next t ∧
      (let u := s.unitOf n source unit
       let r := s.unitRec u
       (t.unitRec u).corr = s.ns :: r.corr ∧ (t.unitRec u).unc = r.unc ∧
        (r.state = .serving → s.hopSpent u = false → ((t.unitRec u).state = .scheduled ↔
          9 ≤ recent s.ns 600000000000 (s.ns :: r.corr) ∨ 2 ≤ recent s.ns 86400000000000 r.unc))) ∧
      (∀ m, (t.core m).regs = (s.core m).regs ∧ (t.core m).pend = (s.core m).pend ∧ (s.core m).SameBuffers (t.core m)) ∧ s.SameMemory t) ∧
    (∀ (j : Job) (r : TrapRec), s.faultedJob n = some j → j.fault = some r → c.run ≠ .halted →
      ∃ t, exec (.jobFault n) s = .next t ∧ (t.core n).pend = c.pend ++ [.job r] ∧ (t.core n).regs = c.regs ∧ s.SameElsewhere t n ∧
        (dieOf n < 4 → ∀ k ∈ (t.die (dieOf n)).jobs, k.id = j.id → k.fault = none)) ∧
    (∀ (j : Job) (r : TrapRec) (l : Nat) (x : Launch), s.faultedJob n = some j → j.fault = some r → c.run = .halted →
      c.launch = some l → s.launch? l = some x → x.aborted = false →
      ∃ t y, exec (.jobFault n) s = .next t ∧ t.launch? l = some y ∧ y.aborted = true ∧ y.code = r.cause ∧
        (t.core n).trappc = BitVec.ofNat 64 (c.regs.pc.toNat) ∧ (t.core n).trapaddr = r.addr ∧
        (t.core n).trapinfo = BitVec.ofNat 64 (r.detail % 2 ^ 32 * 2 ^ 32 + r.slots % 256 * 256 + r.cause % 256)) ∧
    (∀ (d : Nat) (w : Walk), d < 4 → (s.die d).walks.find? (fun x => x.id == id) = some w → w.due ≤ s.now →
      ∃ t, exec (.pageWalk d id) s = .next t ∧ (t.die d).walks = (s.die d).walks.filter (fun x => x.id != id) ∧
        (∀ p, s.pageOf w.vf (4096 * w.vpn) = some p → (t.die d).tlb = tlbInsert 16384 (s.die d).tlb p) ∧
        ((∀ m, (s.core m).performs = []) → ∀ m x, find? s.cores m = some x → dieOf m = d → s.vfOf m = w.vf →
          ∀ l ∈ (t.core m).loads, l.trans.waits.contains w.vpn = false)) ∧
    (∀ (r : TrapRec) (l : Nat) (x : Launch), c.trapped = some r → c.launch = some l → s.launch? l = some x → x.aborted = false →
      s.schedules = true → c.stopNext ≠ some .rollback → c.stopAt + 1000000 ≤ s.ns → (r.cause = 4 ∨ r.cause = 5) →
      ∃ t y, exec (.policyDeadline n) s = .next t ∧ t.launch? l = some y ∧ y.aborted = true ∧ y.code = s.firstTrap x)

/-- Service of a stopped core: Skip issues on behind the trapping bundle, Resume at it, with failed accesses walked again first; Abort ends the
launch with the cause of its first trap; SAVE_RECORD stores the record of the mark and frees the core, or for a frame forms it, seals it under the
key of its world, and clears and frees the core; RESUME loads a record: the loop stack, CYCLE, the counters, CORESTAT, the clasps, and each data
item at its location; Rollback, once every member of the group has stopped and its jobs are complete, gives each member its locket's registers
again, with REPLAY and WINDOW set, empty queues and no stop, and keeps the other causes pending. The cipher itself is left free (log 3) (R302, R307,
R308, R310, R314, R318, R319, R323, R401). -/
def Obligations.StoppedCoresAreServed : Prop :=
  ∀ (s : State) (n : Nat),
    let c := s.core n
    (∀ r, c.trapped = some r → s.schedules = true → c.stopNext ≠ some .rollback → (r.cause = 4 ∨ r.cause = 5) →
      ∃ t, exec (.skip n) s = .next t ∧ (t.core n).run = .running ∧ (t.core n).stop = none ∧
        (t.core n).regs = { c.regs with pc := BitVec.ofNat 24 (c.trappc.toNat + 1) } ∧ (t.core n).markDist = 0 ∧
        c.SameRegisters (t.core n) ∧ c.SameBuffers (t.core n) ∧ s.SameElsewhere t n) ∧
    (∀ r, c.trapped = some r → s.schedules = true → c.mayResume r = true → r.cause = 13 →
      ∃ t, exec (.serviceResume n) s = .next t ∧ (t.core n).run = .resuming ∧ (t.core n).stop = none ∧ (t.core n).wait = c.wait ∧
        (t.core n).loads = c.loads.map (fun l => if l.kind = .pref then l else { l with trans := l.trans.rewalk }) ∧
        (t.core n).queue = c.queue.map (fun e => { e with trans := e.trans.rewalk }) ∧ c.SameRegisters (t.core n) ∧ s.SameElsewhere t n) ∧
    (∀ r, c.trapped = some r → s.schedules = true → c.mayResume r = true → r.cause = 12 → c.stopNext = none → c.wait = none →
      ∃ t, exec (.serviceResume n) s = .next t ∧ (t.core n).run = .running ∧ (t.core n).stop = none ∧
        (t.core n).regs = { c.regs with pc := BitVec.ofNat 24 c.trappc.toNat } ∧ c.SameBuffers (t.core n) ∧ s.SameMemory t) ∧
    (∀ (l : Nat) (x : Launch), s.launch? l = some x → x.aborted = false → s.schedules = true →
      ∃ t y, exec (.abort l) s = .next t ∧ t.launch? l = some y ∧ y.aborted = true ∧ y.code = s.firstTrap x ∧ s.SameMemory t ∧
        ∀ d, ∀ j ∈ (t.die d).jobs, j ∈ (s.die d).jobs ∧ (j.launch = l → j.state = .running)) ∧
    (∀ (q : MarkReq) (l : Nat) (x : Launch) (e : MarkEntry), c.run = .stopped → c.stop = some (.mark q) → c.launch = some l →
      s.launch? l = some x → c.performs = [] → c.queue = [] → s.noJobs n = true → s.markAt n c.markPc = some e →
      ∃ t y, exec (.saveRecord n) s = .next t ∧ (t.core n).run = .idle ∧ t.launch? l = some y ∧
        find? y.saves (32 * c.rrow + c.rcol) = some (c.saveOf e c.markLoops (s.claspFile n)) ∧ (t.core n).regs = c.regs ∧ s.SameMemory t) ∧
    (∀ (l : Nat) (e : MarkEntry), c.run = .stopped → c.stop = some .seal → c.launch = some l → c.performs = [] → c.queue = [] →
      s.noJobs n = true → s.markAt n c.markPc = some e →
      let vf := s.vfOf n
      let w := c.world
      let gen := ((find? s.worlds (16 * vf + w)).map (fun k => k.gen)).getD 0
      let ctr := s.sealCounter vf w n
      let r := c.saveOf e c.markLoops (s.claspFile n)
      let iv : BitVec 96 := BitVec.ofNat 96 (w % 16 * 2 ^ 92 + dieOf n % 4 * 2 ^ 90 + localOf n % 256 * 2 ^ 82 + ctr % 2 ^ 82)
      ∃ t x, exec (.saveRecord n) s = .next t ∧ s.SameMemory t ∧ t.sealedFor n vf w = some x ∧ x.record = r ∧ x.keyGen = gen ∧ x.iv = iv ∧
        x.len = r.bytes.1 ∧ (x.ct, x.tag) = Config.gcmSeal (Config.worldKey vf w gen) iv r.bytes.1 r.bytes.2 ∧
        t.sealCounter vf w n = ctr + 1 ∧ t.launch? l = none ∧ (t.core n).run = .idle ∧ (t.core n).launch = none ∧
        (t.core n).stop = none ∧ (t.core n).regs = Regs.zero ∧ (t.core n).sliceA = [] ∧ (t.core n).sliceB = [] ∧
        (t.core n).bufA = [] ∧ (t.core n).bufC = [] ∧ (t.core n).bufW = []) ∧
    (∀ (at0 l : Nat) (x : Launch) (i : Image) (r : Saved) (e : MarkEntry), c.run = .starting at0 → s.launchOf n = some (l, x) →
      s.imageOf n = some i → find? x.saves (32 * c.rrow + c.rcol) = some r → i.entryOf r.rpid = some e → saveFits e r = true →
      ∃ t, exec (.resume n) s = .next t ∧ (t.core n).run = .starting at0 ∧
        (t.core n).regs.pc = BitVec.ofNat 24 (stepOn e.bundle (restoredLoops e r)).1 ∧
        (t.core n).regs.loops = (stepOn e.bundle (restoredLoops e r)).2 ∧ (t.core n).regs.cycle = r.cycle ∧
        (t.core n).regs.devc = r.devc ∧ s.SameElsewhere t n ∧ (r.replay = none → (t.core n).regs.stat = r.stat) ∧
        (∀ k w, find? r.clasps k = some w → ((t.core n).clasp k).aph = w.getLsbD 40 ∧ ((t.core n).clasp k).aval = w.getLsbD 41 ∧
          ((t.core n).clasp k).adone = w.getLsbD 42) ∧ (∀ k, find? r.clasps k = none → (t.core n).clasp k = ClaspOwn.zero) ∧
        (∀ k, (∀ f ∈ e.items, f.kind = 2 → bits f.loc.toNat 5 0 ≠ k) → (t.core n).sreg k = c.sreg k) ∧
        ∀ d ∈ e.items, ∀ y, r.items.find? (fun y => y.2.1 == d.vid) = some y →
          let loc := d.loc.toNat
          let v := y.2.2.2
          let alone := fun (place : Nat → Nat) => ∀ f ∈ e.items, f.kind = d.kind → place f.loc.toNat = place loc → f = d
          (d.kind = 2 → bits loc 5 0 ≠ 0 → alone (fun z => bits z 5 0) → (t.core n).sreg (bits loc 5 0) = BitVec.ofNat 64 v) ∧
          (d.kind = 3 → bits loc 3 0 < 12 → alone (fun z => bits z 3 0) →
            (loc.testBit 4 = true → (t.core n).cond (bits loc 3 0) = v.testBit 24) ∧
            (loc.testBit 5 = true → (t.core n).target (bits loc 3 0) = BitVec.ofNat 24 v)) ∧
          (d.kind = 4 → bits loc 3 0 ≠ 0 → alone (fun z => bits z 4 0) →
            (t.core n).mask (loc.testBit 4) (bits loc 3 0) = BitVec.ofNat 256 v) ∧
          (d.kind = 6 → alone (fun _ => 0) →
            (t.core n).regs.scaleA = BitVec.ofNat 2048 v ∧ (t.core n).regs.scaleB = BitVec.ofNat 2048 (v / 2 ^ 2048)) ∧
          (d.kind = 1 → ∀ i, i ≤ bits loc 11 0 →
            (∀ f ∈ e.items, f.kind = 1 → (sliceItem f.loc.toNat).1 = loc.testBit 36 → (sliceItem f.loc.toNat).2.1 ≤ bits loc 35 24 + i →
              bits loc 35 24 + i < (sliceItem f.loc.toNat).2.1 + (sliceItem f.loc.toNat).2.2 → f = d) →
            (t.core n).slice (loc.testBit 36) (bits loc 35 24 + i) = BitVec.ofNat 1024 (v / 2 ^ (1024 * i))) ∧
          (d.kind = 5 → ∀ i, i < bits loc 23 0 →
            (∀ f ∈ e.items, f.kind = 5 → bufItem f.loc.toNat = bufItem loc → bits f.loc.toNat 47 24 ≤ bits loc 47 24 + i →
              bits loc 47 24 + i < bits f.loc.toNat 47 24 + bits f.loc.toNat 23 0 → f = d) →
            Memory.read ((t.core n).buf (bufItem loc)) (bits loc 47 24 + i) = BitVec.ofNat 8 (v / 2 ^ (8 * i)))) ∧
    ∀ (g l : Nat) (ms : List Nat) (es : List (Nat × DataErr)), s.rollbackFor n = some (g, ms, es) → c.launch = some l → s.schedules = true →
      (∀ e ∈ es, s.unitFailed e.1 e.2 = false) → (∀ k ∈ ms, (s.core k).run = .stopped ∧ s.noJobs k = true) →
      ∃ t, exec (.rollback n) s = .next t ∧ s.SameMemory t ∧ ∀ k ∈ ms, ∀ lk, (s.core k).locket = some lk →
        (t.core k).run = .running ∧ (t.core k).stop = none ∧ (t.core k).queue = [] ∧ (t.core k).performs = [] ∧
          (t.core k).wait = none ∧
          (t.core k).regs = { lk.regs with stat := { lk.regs.stat with replay := true, window := true, noreplay := false } } ∧
          (∀ p ∈ (s.core k).pend, (∀ e ∈ es, p.record.names e.2 = false) → p ∈ (t.core k).pend) ∧
          ∃ z, (t.core k).locket = some z ∧ ∀ e ∈ es, e.2 ∈ z.lastErrs

/-- The end of a clasp wait and of a TXWAIT joins the view that the wake carries. A release performs the queues of the members in rank order,
each in program order, then swaps every region of its group by its rule, joins the views of all members, so that each member is at or after every
write that a member had performed or read, takes a locket on every arrived member with its window open, REPLAY and NOREPLAY cleared, and wakes it
at that time or later; stated for translated entries on active ways that reach no notify page (R124, R129, R131, R242, R244, R245, R262, R320). A
member that has halted takes no locket (log 45). -/
def Obligations.WaitsEndAndGroupsRelease : Prop :=
  ∀ (s : State) (n : Nat),
    let c := s.core n
    let wakes := fun (i : Instr) (v : View) => ∃ t, exec i s = .next t ∧ (t.core n).wait = none ∧ (t.core n).wakeAt = none ∧
      (t.core n).run = .running ∧ (t.core n).view = c.view.join v ∧ (t.core n).regs.pc = c.regs.pc ∧
      (t.core n).regs.loops = c.regs.loops ∧ c.SameRegisters (t.core n) ∧ c.SameBuffers (t.core n) ∧ s.SameMemory t
    (∀ k at0, c.run = .running → c.wait = some (.clasp k) → c.wakeAt = some at0 → at0 ≤ s.now → c.waitMark = false →
      wakes (.wake n) (c.clasp k).view) ∧
    (∀ a phase, c.run = .running → c.wait = some (.tx a phase) → c.txPhase (a - aBase) ≠ phase → c.waitMark = false →
      wakes (.txwake n) (s.txView n (a - aBase))) ∧
    ∀ (l g : Nat) (x : Launch),
      let members := s.members x g
      s.launch? l = some x → (∃ at0, (g, at0) ∈ x.relAt ∧ at0 ≤ s.now) → s.allArrived x g members = true → members.Nodup →
      (∀ m ∈ members, (s.core m).performs = [] ∧ ((s.core m).queue.map (fun e => e.seq)).Nodup ∧
        ∀ e ∈ (s.core m).queue, e.trans.ready = true ∧ s.notifying (s.vfOf m) e.trans = none ∧ s.transReach m e.trans = .active) →
      (∀ d, d < 4 → s.collision d l g members = none) →
      ∃ t, exec (.release l g) s = .next t ∧ t.releases = s.releases + 1 ∧
        t.mem = s.mem.writeCells (members.flatMap (fun m => (s.core m).queue.flatMap (fun e =>
          e.written.map (fun y => (e.trans.phys y.1, y.2))))) ∧
        t.launch? l = some { x with arrived := x.arrived.filter (fun e => e.1 != g), relAt := x.relAt.filter (fun e => e.1 != g) } ∧
        (∀ m ∈ members, (t.core m).queue = [] ∧ (t.core m).performs = [] ∧
          (∀ k ∈ members, ∀ a, (s.core k).view.point a ≤ (t.core m).view.point a) ∧
          ∀ k ∈ members, ∀ e ∈ (s.core k).queue, ∀ y ∈ e.written, s.writes < (t.core m).view.point (e.trans.phys y.1)) ∧
        (∀ m ∈ members, (g, m) ∈ x.arrived → (t.core m).regs.stat.window = true ∧ (t.core m).regs.stat.replay = false ∧
          (t.core m).regs.stat.noreplay = false ∧ (s.core m).SameRegisters (t.core m) ∧ (s.core m).SameBuffers (t.core m) ∧
          (∃ at0, (t.core m).wakeAt = some at0 ∧ s.now ≤ at0) ∧
          ∃ k, (t.core m).locket = some k ∧ k.group = g ∧ k.release = s.releases + 1 ∧ k.regs.s = (s.core m).regs.s ∧
            k.regs.pc = (s.core m).regs.pc ∧ k.regs.stat = (t.core m).regs.stat ∧ k.slices = [] ∧ k.sectors = []) ∧
        ∀ d, d < 4 →
          let st := s.storesOf d l g members
          let regions := s.groupRegions d l g
          (∀ y ∈ (t.die d).stores, ¬(y.launch = l ∧ y.group = g)) ∧
          (regions.Pairwise (fun r q => r.base + r.count ≤ q.base ∨ q.base + q.count ≤ r.base) →
            (∀ r ∈ regions, ∀ w ∈ r.words st, let p := Memory.readN (s.die d).commons w r.word
              Memory.readN (t.die d).commons w r.word = r.resolve p (storedValues st p w r.word) % 2 ^ (8 * r.word)) ∧
            ∀ a, (∀ r ∈ regions, a / r.word * r.word ∉ r.words st) → Memory.read (t.die d).commons a = Memory.read (s.die d).commons a)

/-! ## Events of a die: engines -/

/-- A queued job that may run begins with the key of its slot, or stops for want of it; a running job whose sources are read, and which
reads none ahead in this move, writes its destination sector in a typed buffer: the bits that it computes, no other bit of the buffer, and no
memory. That the fault KEY has the job's source base as its address is the model's choice (log 45) (R247, R254, R266, R269, R270, R274, R275,
R404). -/
def Obligations.JobsBeginAndMove : Prop :=
  ∀ (s : State) (d id : Nat) (j : Job), d < 4 → (s.die d).jobs.find? (fun x => x.id == id) = some j →
    let c := s.core j.core
    let begins := fun (k : Job) => ∃ t, exec (.jobBegin d id) s = .next t ∧ (t.die d).jobs.find? (fun x => x.id == id) = some k ∧
      (∀ m, t.core m = s.core m) ∧ s.SameMemory t
    (j.state = .waiting → j.due ≤ s.now → s.jobFree d j = true →
      (tplKey j.tpl = 0 → begins { j with state := .running }) ∧
      (tplKey j.tpl ≠ 0 → ∀ k, c.keyFor (tplKey j.tpl) = some k → begins { j with state := .running, key := k }) ∧
      (tplKey j.tpl ≠ 0 → c.keyFor (tplKey j.tpl) = none → begins { j with
        state := .stopped, fault := some ⟨9, 0, 4 * 2 ^ 16 + j.template * 2 ^ 8 + b2n j.bp * 2 ^ 4 + j.queueNo, BitVec.ofNat 64 j.srcBase, 0⟩ })) ∧
    ∀ (sct bm : Nat) (b : Buf) (off : Nat),
      let w := j.sectorBits (readerOf j.src) (32 * sct)
      (s.draw.1 = 0 ∨ j.ahead = []) → s.jobReady d j = true → j.todo[j.done]? = some (sct, bm) →
      (∀ x ∈ j.needs (32 * sct), (find? j.src x).isSome = true) →
      bufOf 0 (32 * sct) = some (b, off) → (b = .c → tplBank j.tpl = true) → tplAllows j.tpl b (b.bank off) = true →
      c.jobAccesses s.now < 4 → (∀ r ∈ c.rsv, ¬(r.last = s.now ∧ r.user = j.user)) →
      c.bankHeld s.now j.user [(b, b.bank off)] = false →
      ∀ i, i = (if tplBank j.tpl then Instr.bankProductSector d id else .copySector d id) →
        ∃ t, exec i s = .next t ∧ s.SameMemory t ∧ (t.core j.core).regs.s = c.regs.s ∧ (t.core j.core).regs.pc = c.regs.pc ∧
          (t.core j.core).bufRead b off 32 = mergeBits (c.bufRead b off 32) w.1 w.2 % 2 ^ 256 ∧
          ∀ e a, (e ≠ b ∨ a < off ∨ off + 32 ≤ a) → Memory.read ((t.core j.core).buf e) a = Memory.read (c.buf e) a

/-! ## Events of the command processors -/

/-- Doorbell, enable, disable, error clear, create and a forwarded packet: the queue after each; no other queue changes. A launch that an error
clear passes over is given up, or runs on unsignalled once it has started. While the host link trains, the host's writes wait, and a forwarded
packet waits while the links of the package train. What the model keeps of the times of a packet at the head (`since`, `polled`, `due`) is left free
here (R299, R383, R384, R410). That a refused doorbell leaves PROD, and what becomes of a launch passed over, are the model's choices (log 18); so
are the fields that R383 gives no value at creation (log 28). -/
def Obligations.QueueRegistersChange : Prop :=
  ∀ (s : State) (v d q : Nat) (prod cons seq : BitVec 32) (packet : Line),
    let x := s.queue d q
    let becomes := fun (i : Instr) (y : Queue) => ∃ since polled due, exec i s = .next (s.setQueue d q { y with since, polled, due })
    let port := s.hostPort v
    ((s.port port).up = true → s.portIn = [] → s.ownsQueue v d q = true →
      ((prod - x.cons).toNat ≤ 2 ^ x.log2n.toNat → becomes (.doorbell v d q prod) { x with prod := prod }) ∧
      (2 ^ x.log2n.toNat < (prod - x.cons).toNat → x.state ≠ .error → ∃ t, exec (.doorbell v d q prod) s = .next t ∧
        t.queue d q = { x with state := .error, err := 4, packet := none, ready := false }) ∧
      becomes (.queueEnable v d q) { x with en := true, state := if x.state = .idle then .run else x.state } ∧
      becomes (.queueDisable v d q) { x with en := false, state := if x.state = .run ∧ x.packet = none ∧ x.hand = .none then .idle else x.state } ∧
      (x.state = .error → (cons - x.cons).toNat ≤ (x.prod - x.cons).toNat →
        (x.hand = .none ∨ (cons - x.cons).toNat ≤ (x.idx - x.cons).toNat → becomes (.queueErrorClear v d q cons)
          { x with state := if x.en ∨ x.hand ≠ .none then .run else .idle, err := 0, cons := cons
                   fwd := x.fwd.filter (fun e => decide ((cons - x.cons).toNat ≤ (e.1 - x.cons).toNat)) }) ∧
        (∀ id y, x.hand = .launch id → s.launch? id = some y → (x.idx - x.cons).toNat < (cons - x.cons).toNat →
          ∃ t, exec (.queueErrorClear v d q cons) s = .next t ∧ (t.queue d q).cons = cons ∧ (t.queue d q).err = 0 ∧
            (y.state = .ready → t.launch? id = none ∧ (t.queue d q).hand = .none ∧ (t.queue d q).packet = none) ∧
            (y.state ≠ .ready → ∃ z, t.launch? id = some z ∧ pkSig z.packet = 0 ∧ z.state = y.state ∧
              (t.queue d q).hand = .launch id)))) ∧
    (∀ i ∈ [Instr.doorbell v d q prod, .queueEnable v d q, .queueDisable v d q, .queueErrorClear v d q cons],
      (s.port port).state = 1 → exec i s = .next { s with portIn := s.portIn ++ [(port, i)] }) ∧
    (∀ prio, v < 4 → prio < 4 → q < 32 → (s.vf v).dies.contains d = true → becomes (.queueCreate v d q prio)
      { vf := v, prio := prio, base := 0, log2n := 4, vec := 0, en := false, prod := 0, cons := 0, err := 0, state := .idle,
        hand := .none, packet := none, ready := false, idx := 0, since := 0, polled := 0, due := false, fwd := [] }) ∧
    ((s.portLink rackLink).state = 1 → exec (.forwardedPacket d q seq packet) s =
      .next { s with portIn := s.portIn ++ [(rackLink, .forwardedPacket d q seq packet)] }) ∧
    ((s.portLink rackLink).up = true → (∀ e ∈ s.portIn, e.1 ≠ rackLink) → (∀ e ∈ s.portOut, e.1 ≠ rackLink) →
      (find? s.queues (qKey d q)).isSome = true → (x.prod - x.cons).toNat < 2 ^ x.log2n.toNat →
      s.vfWay d x.vf (x.base.toNat + 64 * (x.prod.toNat % 2 ^ x.log2n.toNat)) 64 = .active →
      ∃ t r since polled due, exec (.forwardedPacket d q seq packet) s = .next t ∧
        t.queue d q = { x with prod := x.prod + 1, fwd := x.fwd ++ [(x.prod, seq, packet)], since, polled, due } ∧
        t.out.reports = r :: s.out.reports ∧ r.toNat % 2 ^ 8 = 1)

/-- The packet in hand of a queue: the wait word makes it eligible; NOP retires; an unassigned type or a reserved bit stops the queue; a launch
is made ready, unless the package is at WARN or TRIP; a graph begins; a copy begins, and at its end has copied its bytes and retires (R277, R279,
R280, R286, R290, R292, R294, R384, R416). Where a copy meets no page is left out (log 26). That MREQ 3 counts as a reserved bit (log 18), and that a
copy of LENGTH 0 or above 2^40 begins as any other (log 49), are the model's choices. -/
def Obligations.PacketsAreProcessed : Prop :=
  ∀ (s : State) (d q : Nat) (p : Line),
    let x := s.queue d q
    let retires := fun (i : Instr) => x.idx = x.cons → ∃ t, exec i s = .next t ∧ (t.queue d q).cons = x.cons + 1 ∧
      (t.queue d q).hand = .none ∧ (t.queue d q).packet = none
    (x.packet = some p → x.state = .run → x.hand = .none → s.serves d = true →
    (packetErr p = 0 → pkWaitAddr p ≠ 0 → x.ready = false → ∀ w, s.cpRead d x.vf (pkWaitAddr p) 8 = some w → pkWaitVal p ≤ w →
      exec (.waitWordPoll d q) s = .next (s.setQueue d q { x with ready := true, since := s.now, polled := s.ns, due := false })) ∧
    (packetErr p ≠ 0 → ∃ t, exec (.unassignedPacket d q) s = .next t ∧ (t.queue d q).state = .error ∧
      (t.queue d q).err = (if 4 ≤ p.toNat % 256 then 1 else 2) ∧ (t.queue d q).cons = x.cons) ∧
    (packetErr p = 0 → (pkWaitAddr p = 0 ∨ x.ready = true) →
      (pkType p = 0 → s.sigWaits d x.vf p = false → retires (.nopPacket d q)) ∧
      (pkType p = 1 → s.cool = true → pkIndirect p = false → s.imageHeld x.vf p = false → s.linkWaits d x.vf p = false → ∀ mode,
        s.checkFrom d x.vf s.nextId p (pkHm1 p) none = .ok mode → ∃ t y, exec (.launchPacket d q) s = .next t ∧
          (t.queue d q).hand = .launch s.nextId ∧ t.launch? s.nextId = some y ∧ y.state = .ready ∧ y.vf = x.vf ∧ y.packet = p ∧
          y.image = pkImage p ∧ y.imode = mode ∧ y.cores = s.mapped (pkCol0 p) (pkRow0 p) (pkWm1 p + 1) (pkHm1 p + 1)) ∧
      (pkType p = 1 → s.cool = false → exec (.launchPacket d q) s = .next s) ∧
      (pkType p = 1 → s.cool = true → pkIndirect p = false → s.imageHeld x.vf p = false → s.linkWaits d x.vf p = false → ∀ code,
        s.checkFrom d x.vf s.nextId p (pkHm1 p) none = .error code → retires (.launchPacket d q)) ∧
      (pkType p = 2 → ∀ g, s.graphOf x.vf (pk p 31 16) (pk p 63 32) = some g → s.graphBusy x.vf (pk p 31 16) = false →
        exec (.graphPacket d q) s = .next ((({ s with
          nextId := s.nextId + 1
          runs := put s.runs s.nextId ⟨d, q, pk p 31 16, pk p 63 32, p, firstNodes g.nodes, 0, false, s.now⟩ }).updQueue d q
            (fun y => { y with hand := .graph s.nextId })).graphAdvance s.nextId)) ∧
      (pkType p = 2 → s.graphOf x.vf (pk p 31 16) (pk p 63 32) = none → s.sigWaits d x.vf p = false → retires (.graphPacket d q)) ∧
      (pkType p = 3 → ∃ t c, exec (.copySubmission d q) s = .next t ∧ (t.queue d q).hand = .copy s.nextId ∧
        find? t.copies s.nextId = some c ∧ c.die = d ∧ c.q = q ∧ c.node = none ∧ c.packet = p ∧ s.now + 1 ≤ c.due))) ∧
    ∀ (id : Nat) (c : CopySub), find? s.copies id = some c → c.due ≤ s.now → c.node = none → c.die = d → c.q = q → c.vf = x.vf →
      ((find? s.queues (qKey d q)).isSome = true → s.copyWaits c = false → retires (.copySubmissionRetire id)) ∧
      ∀ (a b : Page) (i : Nat), Memory.wf s.mem = true → pkSig c.packet = 0 → 0 < pkLength c.packet →
        pkSrc c.packet % 4096 + pkLength c.packet ≤ 4096 → pkDst c.packet % 4096 + pkLength c.packet ≤ 4096 →
        (pkSrc c.packet + pkLength c.packet ≤ pkDst c.packet ∨ pkDst c.packet + pkLength c.packet ≤ pkSrc c.packet) →
        s.pageOf c.vf (pkSrc c.packet) = some a → a.r = true → a.dev = 0 → a.vbase ≤ pkSrc c.packet →
        pkSrc c.packet + pkLength c.packet ≤ a.vbase + a.size →
        (∀ k, k < pkLength c.packet → s.pageOf c.vf (pkDst c.packet + k) = some b) → b.w = true → b.dev = 0 → b.vbase ≤ pkDst c.packet →
        s.vfWay d c.vf (pkSrc c.packet) (pkLength c.packet) = .active → s.vfWay d c.vf (pkDst c.packet) (pkLength c.packet) = .active →
        i < pkLength c.packet → ∃ t, exec (.copySubmissionRetire id) s = .next t ∧
          Memory.read t.mem (b.pbase + (pkDst c.packet + i - b.vbase)) = Memory.read s.mem (a.pbase + (pkSrc c.packet + i - a.vbase))

/-- A launch starts once its cores are free: every mapped core holds the entry of the image, the argument words in s1 to s30, a block above 240
bytes in the A buffer too, the rows in s31, the start cycle, and the start values in the rest; it retires once every core has ended: its cores
idle, and the queue goes on (R50, R281, R285, R287, R290). A graph is registered, and a conditional node chooses its successor by its word (R292,
R294). That one counter of rearms stands for each packet, and that a conditional node's choice alone activates its two nodes, is the model's
reading (log 27). -/
def Obligations.LaunchesRunAndGraphsBranch : Prop :=
  ∀ (s : State) (l : Nat) (x : Launch), s.launch? l = some x →
    (∀ (i : Image) (m : Bool) (args : Nat), x.state = .ready → s.contends l x = true → s.coresFree l x = true →
      s.image? x.vf x.image = some i → s.codeShot x.vf i = false →
      (pkArgLen x.packet = 0 ∧ args = 0 ∨ s.vfRead x.vf (pkArgAddr x.packet) (pkArgLen x.packet) = some args) →
      s.linkWaits (s.sourceQueue x).1 x.vf x.packet = false →
      s.checkFrom (s.sourceQueue x).1 x.vf l x.packet x.hm1 (if pkIndirect x.packet then some (x.hm1 + 1) else none) = .ok m →
      ∃ t y at0, exec (.launchStart l) s = .next t ∧ t.launch? l = some y ∧ y.state = .running ∧ y.start = some at0 ∧ s.now < at0 ∧
        y.imode = m ∧ y.cores = s.mapped x.col0 x.row0 (x.wm1 + 1) (x.hm1 + 1) ∧
        ∀ e ∈ y.cores, let c := t.core e.1
          c.launch = some l ∧ c.run = .starting at0 ∧ c.regs.pc = BitVec.ofNat 24 i.entry ∧ c.regs.loops = [] ∧ c.imode = m ∧
          c.bound = i.bound ∧ c.parkmap = i.parkmap ∧ c.templates = i.templates ∧ c.regs.cycle = 0 ∧
          (∀ k, 1 ≤ k → k ≤ 30 → c.sreg k = BitVec.ofNat 64 (args % 2 ^ (8 * pkArgLen x.packet) / 2 ^ (64 * (k - 1)))) ∧
          (240 < pkArgLen x.packet → ∀ j, j < pkArgLen x.packet → Memory.read c.bufA (0x7F000 + j) = BitVec.ofNat 8 (args / 2 ^ (8 * j))) ∧
          c.sreg 31 = BitVec.ofNat 64 (x.hm1 + 1) ∧ (∀ k, 31 < k → c.sreg k = 0) ∧ (∀ j, j < 12 → c.cond j = false) ∧
          (∀ cl k, c.slice cl k = 0) ∧ c.results = [] ∧ c.queue = [] ∧ c.hmver = (s.die (dieOf e.1)).hallmark.version) ∧
    (∀ d q, x.origin = .queue d q → s.mayRetire l x = true → s.sigWaits d x.vf x.packet = false → (find? s.queues (qKey d q)).isSome = true →
      (s.queue d q).idx = (s.queue d q).cons →
      ∃ t, exec (.launchRetire l) s = .next t ∧ t.launch? l = none ∧ (t.queue d q).cons = (s.queue d q).cons + 1 ∧
        (t.queue d q).hand = .none ∧ ∀ e ∈ x.cores, (s.core e.1).launch = some l → (t.core e.1).run = .idle ∧ (t.core e.1).launch = none) ∧
    (∀ (die v id version : Nat) (nodes : List GraphNode),
      ([0, 1, 2, 3].find? (fun v => (s.vf v).dies.contains die)) = some v → graphOk id version nodes = true →
      s.graphOf v id version = none →
      exec (.graphRegister die id version nodes) s = .next { s with
        out := { s.out with answers := true :: s.out.answers }, graphs := s.graphs ++ [⟨id, version, v, nodes⟩] }) ∧
    ∀ (rid k w : Nat) (r : GraphRun) (g : Graph),
      let y := s.queue r.die r.q
      let p := (nth ⟨0, []⟩ g.nodes k).packet
      let succ := if w ≠ 0 then pk p 31 16 else pk p 47 32
      find? s.runs rid = some r → s.graphOf y.vf r.id r.version = some g → pkType p = 4 → nth .retired r.nodes k = .active →
      predsDone g.nodes r.nodes k = true → s.serves r.die = true → s.cpRead r.die y.vf (pk p 191 128) 4 = some w →
      (succ < 0xFFFE → exec (.conditionalNode rid k) s = .next (State.graphAdvance { s with
        runs := put s.runs rid { r with nodes := setNth (retireNode g.nodes r.nodes k) succ .active } } rid |>.rewatch [r.die])) ∧
      (succ = 0xFFFE → exec (.conditionalNode rid k) s = .next (State.graphAdvance { s with
        runs := put s.runs rid { r with nodes := retireNode g.nodes r.nodes k } } rid |>.rewatch [r.die])) ∧
      (succ = 0xFFFF → r.rearms < pk p 223 192 → exec (.conditionalNode rid k) s = .next (State.graphAdvance { s with
        runs := put s.runs rid { r with nodes := retireNode g.nodes r.nodes k, rearms := r.rearms + 1, again := true } } rid |>.rewatch [r.die]))

/-! ## Events of the package -/

/-- A slot is installed or refused; its occurrence opens with a launch of its packet; an overrun without FINISH is pre-empted. A segment line
arrives in its frame, an invalidated line is read again, both under a page of the die's TLB; a shootdown takes the old translations away, also
from queued stores and from code lines, and ends when every access under one has landed (R295 to R297, R301, R315, R369, R370). That neither
WARN nor a replacement of firmware holds a slot back (log 21), and that a shootdown over one under way joins it (log 42), are the model's readings. -/
def Obligations.SlotsFetchAndShootdowns : Prop :=
  ∀ (s : State) (d n : Nat),
    (∀ (epoch period : Nat) (entry : BitVec 576), d < 4 →
      let old := find? (s.die d).table.slots n
      let new : TSlot := ⟨entry, 0, old.bind (fun o => o.opened), old.bind (fun o => o.saved)⟩
      (s.slotOk d n period new = true → ∃ t y, exec (.slotInstall d n epoch period entry) s = .next t ∧
        (t.die d).table.epoch = epoch ∧ (t.die d).table.period = period ∧ find? (t.die d).table.slots n = some y ∧ y.entry = entry ∧
        y.next = firstOccurrence s.ns epoch period new.offset ∧ t.out.answers = true :: s.out.answers) ∧
      (s.slotOk d n period new = false → exec (.slotInstall d n epoch period entry) s =
        .next { s with out := { s.out with answers := false :: s.out.answers } })) ∧
    (∀ (y : TSlot) (v id : Nat) (s' : State), d < 4 → find? (s.die d).table.slots n = some y → y.en = true → y.opened = none →
      y.saved = none → (s.die d).table.shift = none → ([0, 1, 2, 3].find? (fun v => (s.vf v).dies.contains d)) = some v →
      let o := (s.die d).table.own y
      o ≤ s.ns → s.ns < (s.die d).table.periodEnd y → (s.die d).table.heldBy s.ns n y = false →
      s.imageChanging v (pkImage y.packet) = false →
      s.submit d v (.slot d n) 3 y.packet (s.now - (s.ns - o) * 11 / 10) = .ready id s' →
      ∃ t, exec (.slotOpen d n) s = .next t ∧ find? (t.die d).table.slots n = some { y with next := y.next + 1, opened := some (id, o) } ∧
        t.launch? id = s'.launch? id) ∧
    (∀ (y : TSlot) (l o : Nat) (x : Launch), d < 4 → find? (s.die d).table.slots n = some y → y.opened = some (l, o) →
      o + y.length ≤ s.ns → y.finish = false → s.launch? l = some x →
      ∃ t, exec (.slotOverrun d n) s = .next t ∧ find? (t.die d).table.slots n = some { y with opened := none, saved := some l } ∧
        ∀ e ∈ x.cores, (s.core e.1).launch = some l → (t.core e.1).markReq = some .preempt) ∧
    (∀ (i : Image) (k : SegCopy) (g : Segment) (pg : Page),
      let c := s.core n
      let st := c.istore
      let a := g.addr.toNat + 64 * k.arrived
      let code := BitVec.ofNat 512 (Memory.readN s.mem (pg.pbase + (a - pg.vbase)) 64)
      s.imageOf n = some i → st.copying = [k] → i.segments[k.seg]? = some g → st.copyFree i k = true →
      findPage (s.die (dieOf n)).tlb (s.vfOf n) a = some pg → pg.x = true → pg.dev = 0 → s.reach n (pg.pbase + (a - pg.vbase)) = .active →
      ∃ t, exec (.segmentLineArrival n) s = .next t ∧ find? (t.core n).istore.lines (g.first + k.arrived) = some code ∧
        (k.arrived + 1 < g.len → (t.core n).istore.copying = [{ k with arrived := k.arrived + 1 }]) ∧
        (g.len ≤ k.arrived + 1 → (t.core n).istore.copying = [] ∧
          (if k.frame = 0 then (t.core n).istore.frame0 else (t.core n).istore.frame1) = some k.seg) ∧
        (t.core n).regs = c.regs ∧ c.SameRegisters (t.core n) ∧ c.SameBuffers (t.core n) ∧ s.SameElsewhere t n) ∧
    (∀ (p : Nat) (pg : Page),
      let c := s.core n
      let a := s.lineAddr n p
      c.istore.invalid.contains p = true → s.lineWanted n p = true → s.shotDown (s.vfOf n) (vpn a) = false →
      findPage (s.die (dieOf n)).tlb (s.vfOf n) a = some pg → pg.x = true → pg.dev = 0 → s.reach n (pg.pbase + (a - pg.vbase)) = .active →
      ∃ t, exec (.instructionLineRefetch n p) s = .next t ∧ (t.core n).istore.invalid.contains p = false ∧
        find? (t.core n).istore.lines p = some (BitVec.ofNat 512 (Memory.readN s.mem (pg.pbase + (a - pg.vbase)) 64)) ∧
        (t.core n).regs = c.regs ∧ c.SameRegisters (t.core n) ∧ c.SameBuffers (t.core n) ∧ s.SameElsewhere t n) ∧
    ∀ (v base len : Nat) (pages : List Page), v < 4 →
      (pages.all (fun p => pageLegal p && pageOnDies (s.vf v).dies p && decide (base ≤ p.vbase) &&
          decide (p.vbase + p.size ≤ base + len)) = true → ∃ t, exec (.shootdown v base len pages) s = .next t ∧
          (t.vf v).pages = (s.vf v).pages.filter (fun p => !(p.vf == v && pageInRange p base len)) ++
            pages.map (fun p => { p with vf := v }) ∧
          (t.vf v).shoot.isSome = true ∧
          (∀ e ∈ (s.vf v).dies, e < 4 → ∀ p ∈ (t.die e).tlb, ¬(p.vf = v ∧ pageInRange p base len = true)) ∧
          (∀ m x, find? s.cores m = some x → x.launch.isSome = true → s.vfOf m = v →
            (∀ p ∈ (t.core m).tlb, ¬(p.vf = v ∧ pageInRange p base len = true)) ∧
            (∀ e ∈ (t.core m).queue, ∀ q ∈ e.trans.pages, vpnIn base len q.1 = false ∧
              ∀ p ∈ (s.vf v).pages, p.vf = v → pageInRange p base len = true → vpnIn p.vbase p.size q.1 = false) ∧
            ∀ i p, s.imageOf m = some i → p ∈ i.linesIn base len → p ∈ (t.core m).istore.invalid) ∧ s.SameMemory t) ∧
      (∀ z, (s.vf v).shoot = some z → (∀ e ∈ z.loads, ∀ y ∈ (s.core e.1).loads, y.id ≠ e.2) →
        ∃ t, exec (.shootdownComplete v) s = .next t ∧ (t.vf v).shoot = none ∧ (t.vf v).pages = (s.vf v).pages ∧ t.cores = s.cores)

/-- An accepted container becomes the resident image of its handle, and a recompiled one takes its handle's place; a unit is claimed, tested,
passed, raised or failed; an evacuation that comes too late aborts its launch (R347, R348, R353, R367, R368). Results of tests arrive from
outside, and a claim ends with its test (log 36). -/
def Obligations.ImagesLoadAndUnitsAreTested : Prop :=
  ∀ (s : State) (v handle base len container l : Nat) (u : UnitId),
    let r := s.unitRec u
    let unitAfter := fun (i : Instr) (z : UnitRec) => ∃ t, exec i s = .next t ∧ t.unitRec u = z ∧ s.SameMemory t
    (∀ i, v < 4 → s.acceptImage v base len container = some i → s.handleTakes v handle i = true →
      ∃ t, exec (.imageLoad v handle base len container) s = .next t ∧ t.image? v handle = some i ∧
        t.out.answers = true :: s.out.answers ∧ ∀ m, (t.core m).regs = (s.core m).regs) ∧
    (∀ old i, v < 4 → s.recompiles v handle = some old → s.acceptImage v base len container = some i → old.chesol = true →
      i.rectw = old.rectw → i.recth = old.recth → s.framesFit v handle i = true → s.under v handle = [] →
      ∃ t, exec (.recompileDone (imageKey v handle) base len container) s = .next t ∧ t.image? v handle = some { i with chesol := true }) ∧
    (r.state = .scheduled → onCore u = true → r.claimed = false → s.unitFree u r = false → r.since + 30000000000 ≤ s.ns →
      ∃ t z, exec (.claim u) s = .next t ∧ t.unitRec u = z ∧ z.claimed = true ∧ z.state = .scheduled ∧ z.since = s.ns ∧ s.SameMemory t) ∧
    (r.state = .scheduled → s.unitFree u r = true →
      unitAfter (.testStart u) { r with state := .testing, since := s.ns, claimed := r.claimed || onCore u }) ∧
    (r.state = .testing → unitAfter (.testEnd u .pass) UnitRec.zero ∧
      (∀ c, unitAfter (.testEnd u (.slower c)) { r with state := .raised, cls := c, since := s.ns, corr := [], unc := [], claimed := false }) ∧
      (s.hopSpent u = false → unitAfter (.testEnd u .fail) { r with state := .failed, since := s.ns, claimed := false }) ∧
      (s.hopSpent u = true → unitAfter (.testEnd u .fail) { r with state := .serving, claimed := false, evac := [] })) ∧
    (∀ x, s.launch? l = some x → x.live = true → x.aborted = false → x.ofWorld = false → s.evacLate x = true →
      ∃ t y, exec (.evacuationTimeout l) s = .next t ∧ t.launch? l = some y ∧ y.aborted = true ∧ y.code = 0x10)

/-- The steps of a map change: the body of the next version is formed, its images are classified and evacuated; the commons keep their bytes, a
launch whose region no longer fits is aborted, and a page of a failing channel keeps its bytes in the frame it moves to, on its own stack or on one
of its function's dies; the version is published under its TIME to the die, to the cores that issue nothing and to the units it takes in, whose
counts after a slower class stay; with that move affected images lose their validity with every line of theirs, and without tile code their
launches, and the others are re-stamped; and the change ends, its report waiting while the links of the package train (R341, R344, R347, R349, R350,
R353, R355, R367). It begins once no failure of its die is still to be served (R378; log 24). The page clause is stated for a stack that holds one
page. Where a page goes, and what counts as room, is the model's choice (log 31); which images are stamped again is its reading (log 35). -/
def Obligations.MapChangeSteps : Prop :=
  ∀ (s : State) (d : Nat), d < 4 → s.schedules = true →
    let c := (s.die d).change
    let goes := fun (t : State) => exec (.mapChange d) s = .next t
    (c.step = 0 → s.changing d ≠ [] → s.failureOpen d = false → ∃ t h, goes t ∧ (t.die d).change.step = 1 ∧ (t.die d).change.body = some h ∧
      h.version = (s.die d).hallmark.version + 1 ∧ h.prevVer = (s.die d).hallmark.version ∧ h.die = (s.die d).hallmark.die ∧
      h.serial = (s.die d).hallmark.serial ∧ (t.die d).hallmark = (s.die d).hallmark) ∧
    (∀ h, c.body = some h →
      (c.step = 1 → ∃ t, goes t ∧ (t.die d).change.step = 2 ∧ (t.die d).change.body = some h ∧
        (∀ v k i, v < 4 → s.image? v k = some i → s.affectedBy d h v k i = true → (v, k) ∈ (t.die d).change.affected) ∧
        (t.die d).change.latOnly = latencyOnly (s.die d).hallmark h) ∧
      (c.step = 2 → ∃ t, goes t ∧ (t.die d).change.step = 3 ∧ (t.die d).hallmark = (s.die d).hallmark ∧ (t.die d).change.began = s.ns ∧ ∀ l x, (l, x) ∈ s.toEvacuate c →
        ∀ e ∈ x.cores, s.launch? l = some x → (s.core e.1).launch = some l → (t.core e.1).markReq = some .evacuate) ∧
      (c.step = 3 → s.evacuated c = true → (∀ e ∈ s.changing d, e.1.source ≠ 11) → ∃ t, goes t ∧ (t.die d).change.step = 4 ∧
        (t.die d).commons = (s.die d).commons ∧ t.mem = s.mem ∧
        ∀ r ∈ (s.die d).regions, 64 * h.npresent < r.base + r.count → ∀ x, s.launch? r.launch = some x → x.aborted = false →
          ∃ y, t.launch? r.launch = some y ∧ y.aborted = true ∧ y.code = 0x10) ∧
      (∀ u r p, c.step = 3 → s.evacuated c = true → s.changing d = [(u, r)] → u.source = 11 → r.state = .failed → u ∈ c.units →
        s.allPages.filter (fun q => q.dev == 0 && q.pbase / 2 ^ 36 == u.unit / 32) = [p] → p.vf < 4 → p ∈ (s.vf p.vf).pages →
        pageLegal p = true → Memory.wf s.mem = true →
        ∃ t b, goes t ∧ (t.die d).change.step = 4 ∧ { p with pbase := b } ∈ (t.vf p.vf).pages ∧ (t.vf p.vf).shoot.isSome = true ∧
          (∀ i, i < p.size → Memory.read t.mem (b + i) = Memory.read s.mem (p.pbase + i)) ∧
          (b = p.pbase ∨ (b / 2 ^ 37 ∈ (s.vf p.vf).dies ∧ (b + p.size - 1) / 2 ^ 36 = b / 2 ^ 36 ∧
            s.stackUsed (b / 2 ^ 36) + p.size ≤ s.roomUnder d h (b / 2 ^ 36) ∧ s.roomUnder d h (p.pbase / 2 ^ 36) < p.size))) ∧
      (c.step = 4 → s.noShoot = true → s.evacuated c = true → h.serial = (s.die d).hallmark.serial →
        h.prevVer = (s.die d).hallmark.version → h.version = (s.die d).hallmark.version + 1 →
        h.prevHash = Config.sha256 2752 (s.die d).hallmark.body → (∀ v, ((s.vf v).images.map (fun e => e.1)).Nodup) →
        ∃ t, goes t ∧ (t.die d).change.step = 6 ∧ (t.die d).hallmark = s.signHallmark { h with time := BitVec.ofNat 64 s.ns } ∧
          (∀ u ∈ c.units, ((s.unitRec u).state = .raised →
              t.unitRec u = { UnitRec.zero with corr := (s.unitRec u).corr, unc := (s.unitRec u).unc }) ∧
            ((s.unitRec u).state = .failed → (t.unitRec u).state = .retired)) ∧ (∀ u, u ∉ c.units → t.unitRec u = s.unitRec u) ∧
          (∀ n x, find? s.cores n = some x → (∀ l y, s.launchOf n = some (l, y) → (y.vf, y.image) ∉ c.affected) →
            (dieOf n = d → x.atStop = true → (t.core n).hmver = h.version ∧ (t.core n).latcls = (h.coreRec (localOf n)).lat) ∧
            (dieOf n ≠ d ∨ x.atStop = false → (t.core n).hmver = x.hmver ∧ (t.core n).latcls = x.latcls) ∧
            (t.core n).regs = x.regs ∧ (t.core n).run = x.run ∧ (t.core n).istore = x.istore) ∧
          ∀ v k i, v < 4 → s.image? v k = some i →
            ((v, k) ∈ c.affected →
              t.image? v k = some { i with valid := false, latOnly := c.latOnly && (i.valid || i.latOnly) } ∧
              (∀ n, (t.core n).kept ≠ some (v, k)) ∧
              (∀ n l x, s.launchOf n = some (l, x) → x.vf = v → x.image = k → ∀ p, p < i.nlines → p ∈ (t.core n).istore.invalid) ∧
              (i.chesol = false → ∀ l x, s.launch? l = some x → x.vf = v → x.image = k → x.state ≠ .retired → x.aborted = false →
                ∃ y, t.launch? l = some y ∧ y.aborted = true ∧ y.code = 0x10)) ∧
            ((v, k) ∉ c.affected → t.image? v k = some
              (if i.serial = (s.die d).hallmark.serial ∧ (i.version = h.prevVer ∨ (d, h.prevVer.toNat) ∈ i.stamps)
                then { i with stamps := i.stamps ++ [(d, h.version.toNat)] } else i)))) ∧
    (c.step = 0 → s.failureOpen d = true → goes s) ∧
    (c.step = 6 → ∃ t, goes t ∧ (t.die d).change = MapChange.none ∧ (∀ n, t.core n = s.core n) ∧
      ((s.portLink rackLink).up = true → (∀ e ∈ s.portOut, e.1 ≠ rackLink) → s.out.reports.length < t.out.reports.length) ∧
      ((s.portLink rackLink).state = 1 → t.out.reports = s.out.reports ∧ s.portOut.length < t.portOut.length))

/-- The debug path and the register page: what a debug write changes and a debug read gives while the core is stopped (an entry of the loop stack
in the layout of R16); the fields that a write takes of DBGBRK, DBGCTL, TRCCTL, TRCSIZE, TRG and TRGR, of a queue's QBASE and QCTL, of the base,
control and consumer registers of both rings, and of the plug-in's QCTL, FRCTL, ERCTL and notify controls; QPROD is a doorbell and QSTAT an error
clear; a host write lost on a link that is down and kept while it trains; and the message test of a vector, whose message waits likewise (R16, R332
to R337, R383, R384, R386 to R388, R390, R410). That a write over a link that is DOWN is lost (log 40), that a write of TRCSIZE empties the ring and
its counts (log 32), and the offsets of the four registers in a queue's block (log 19) are the model's readings. -/
def Obligations.RegistersAreWritten : Prop :=
  ∀ (s : State) (n v k off : Nat) (x : Word),
    let c := s.core n
    let writes := fun (loc : DbgLoc) (val : Nat) (d : Core) => exec (.debugStateWrite n loc val) s = .next (s.setCore n d)
    let reg := fun (target : RegTarget) => exec (.registerWrite target x) s
    let y := vget (s.vf v).vecs k Vec.zero
    let z : Vec := { y with time := BitVec.ofNat 32 (x.toNat / 2 ^ 32), mask := x.getLsbD 16, count := BitVec.ofNat 16 x.toNat }
    let link := s.port (s.hostPort v)
    let ringCtl := fun (r : Ring) => let size := x.toNat / 2 ^ 8 % 32
      ({ r with log2n := if 6 ≤ size ∧ size ≤ 16 then BitVec.ofNat 5 size else r.log2n, en := x.getLsbD 0 } : Ring)
    let isDue := fun (f : Vec) => f.mask = false ∧ 0 < f.pend ∧ (f.count.toNat ≤ f.pend ∨ f.oldest + f.time.toNat ≤ s.ns)
    (c.stopped = true → c.waiting = false → c.framed = false →
      writes .pc x.toNat { c with regs := { c.regs with pc := BitVec.ofNat 24 x.toNat } } ∧
      (k < 12 → writes (.steerCond k) x.toNat { c with regs := { c.regs with jc := vset c.regs.jc k (x.getLsbD 0) } }) ∧
      (0 < k → k < 64 → writes (.scalar k) x.toNat
        { c with regs := { c.regs with s := vset c.regs.s k x }, sLand := vset c.sLand k none }) ∧
      writes (.csr 2) x.toNat { c with bound := x.truncate 32 } ∧
      writes (.csr 6) x.toNat { c with trapaddr := x } ∧
      writes (.csr 8) x.toNat c ∧
      (∀ val : Nat, writes .scale val
        { c with regs := { c.regs with scaleA := BitVec.ofNat 2048 val, scaleB := BitVec.ofNat 2048 (val / 2 ^ 2048) } }) ∧
      (k < 256 → ∀ val : Nat, writes (.template k) val { c with templates := put c.templates k (BitVec.ofNat 1024 val) }) ∧
      (off < 524288 → ∃ t, exec (.debugStateWrite n (.buffer 0 off) (x.toNat % 256)) s = .next t ∧
        Memory.read (t.core n).bufA off = BitVec.ofNat 8 x.toNat ∧ ∀ a, a ≠ off → Memory.read (t.core n).bufA a = Memory.read c.bufA a)) ∧
    (c.stopped = true → c.framed = false →
      (∀ i e, c.regs.loops.reverse[i]? = some e → s.debugRead n (.loopEntry i) =
        some (e.first.toNat + e.last.toNat * 2 ^ 32 + e.iter.toNat * 2 ^ 64 + e.trip.toNat * 2 ^ 96)) ∧
      (∀ r, s.debugRead n (.scalar r) = some (c.sreg r).toNat) ∧ s.debugRead n .pc = some c.regs.pc.toNat) ∧
    ((c.stopped = false ∨ c.framed = true) → ∀ loc, s.debugRead n loc = none) ∧
    (c.framed = false →
      (k < 4 → reg (.dbgbrk n k) = .next (s.setCore n { c with dbg := { c.dbg with brk := vset c.dbg.brk k (x.truncate 24) } })) ∧
      (x.getLsbD 0 = false → c.debugStopped = false → reg (.dbgctl n) = .next (s.setCore n { c with dbg := { c.dbg with
        ben := BitVec.ofNat 4 (x.toNat / 2 ^ 4), sstep := x.getLsbD 2 } }))) ∧
    (∀ d, d < 4 → let t := (s.die d).trace
      reg (.trcctl d) = .next (s.updDie d (fun e => { e with trace := { t with
        tmask := BitVec.ofNat 32 (x.toNat / 2 ^ 33 % 2 ^ 31 * 2), wrap := x.getLsbD 1, en := x.getLsbD 0 } })) ∧
      (16 ≤ x.toNat % 32 → x.toNat % 32 ≤ 28 → reg (.trcsize d) = .next (s.updDie d (fun e => { e with trace := { t with
        log2 := BitVec.ofNat 5 (x.toNat % 32), wp := 0, drop := 0, ring := [] } }))) ∧
      (k < 4 → reg (.trg d k) = .next (s.updDie d (fun e => { e with trace := { t with trg := vset t.trg k (x &&& 0xF0FFFFFFFFFFFF00) } })) ∧
        reg (.trgr d k) = .next (s.updDie d (fun e => { e with trace := { t with trgr := vset t.trgr k x } })))) ∧
    (link.up = true → s.portIn = [] →
      (∀ d q, d < 4 → q < 32 → s.ownsQueue v d q = true →
        let w := s.queue d q
        let size := x.toNat / 2 ^ 8 % 16
        let s' := if w.en = false ∧ 4 ≤ size ∧ size ≤ 12 then s.setQueue d q { w with log2n := BitVec.ofNat 4 size } else s
        let qreg := fun (i : Nat) => reg (.host v (4096 * d + 32 * q + 8 * i))
        (w.en = false → qreg 0 = .next (s.setQueue d q { w with base := BitVec.ofNat 64 (x.toNat / 64 * 64) })) ∧
        qreg 1 = (if x.getLsbD 0 then exec (.queueEnable v d q) s' else exec (.queueDisable v d q) s') ∧
        qreg 2 = exec (.doorbell v d q (BitVec.ofNat 32 x.toNat)) s ∧
        (x.toNat % 4 = 1 → qreg 3 = exec (.queueErrorClear v d q (BitVec.ofNat 32 (x.toNat / 2 ^ 32))) s)) ∧
      ((s.vf v).fault.en = false → reg (.host v 0x4100) = .next (s.updVf v (fun f => { f with fault :=
        { f.fault with base := BitVec.ofNat 64 (x.toNat / 64 * 64) } }))) ∧
      reg (.host v 0x4108) = .next (s.updVf v (fun f => { f with fault := ringCtl f.fault })) ∧
      reg (.host v 0x4118) = .next (s.updVf v (fun f => { f with fault := { f.fault with cons := BitVec.ofNat 32 x.toNat } })) ∧
      ((s.vf v).event.en = false → reg (.host v 0x4140) = .next (s.updVf v (fun f => { f with event :=
        { f.event with base := BitVec.ofNat 64 (x.toNat / 64 * 64) } }))) ∧
      reg (.host v 0x4148) = .next (s.updVf v (fun f => { f with event := ringCtl f.event })) ∧
      reg (.host v 0x4158) = .next (s.updVf v (fun f => { f with event := { f.event with cons := BitVec.ofNat 32 x.toNat } }))) ∧
    (link.state = 0 → reg (.host v off) = .next s) ∧
    (link.state = 1 → reg (.host v off) = .next { s with portIn := s.portIn ++ [(s.hostPort v, .registerWrite (.host v off) x)] }) ∧
    (∀ d q, d < 4 → q < 32 → s.ownsQueue v d q = true → reg (.plugin v (4096 * d + 32 * q + 8)) =
      .next (s.setQueue d q { s.queue d q with vec := BitVec.ofNat 4 (x.toNat / 2 ^ 12) })) ∧
    reg (.plugin v 0x4108) = .next (s.updVf v (fun f => { f with fault := { f.fault with vec := BitVec.ofNat 4 (x.toNat / 2 ^ 4) } })) ∧
    reg (.plugin v 0x4148) = .next (s.updVf v (fun f => { f with event := { f.event with vec := BitVec.ofNat 4 (x.toNat / 2 ^ 4) } })) ∧
    (k < 16 → reg (.plugin v (0x4300 + 8 * k)) =
      .next (s.updVf v (fun f => { f with notctl := vset f.notctl k (x &&& 0xFFFFFFFFFFFFFFCF) }))) ∧
    (v < 4 → k < 16 →
      (¬ isDue z → exec (.vecctlWrite v k x) s = .next (s.updVf v (fun f => { f with vecs := vset f.vecs k z }))) ∧
      (link.up = true → s.portOut = [] →
        (isDue z → ∃ t, exec (.vecctlWrite v k x) s = .next t ∧ t.out.msix = (v, k, s.ns) :: s.out.msix ∧
          vget (t.vf v).vecs k Vec.zero = { z with pend := 0 }) ∧
        (isDue y → ∃ t, exec (.vectorAgeExpiry v k) s = .next t ∧ t.out.msix = (v, k, s.ns) :: s.out.msix ∧
          vget (t.vf v).vecs k Vec.zero = { y with pend := 0 })) ∧
      (link.state = 1 → isDue y → ∃ t, exec (.vectorAgeExpiry v k) s = .next t ∧ t.out.msix = s.out.msix ∧
        t.portOut = s.portOut ++ [(s.hostPort v, .msix v k)]))

/-- Boot, the package's state of heat, the replacement of firmware, the partition table, the page allocator and evidence (R381, R382, R386, R391,
R392, R396 to R398, R415, R416). What a reset of the package keeps is log 33; that WDT out of range reads as 50 is log 38, and what a changed
partition leaves is log 39. -/
def Obligations.FirmwareOfThePackage : Prop :=
  ∀ (s : State) (k v stack : Nat) (img : FwImage) (layers : List FwImage) (second whole : Bool) (power tin tjmax : Nat)
    (dies : List Nat) (pages : List Page) (nonce : BitVec 256),
    let f := s.fw k
    let types := fun (r : Handover) => r.heads.map (fun h => h.toNat % 2 ^ 8)
    let publish := fun (th : BitVec 2) => ({ power := BitVec.ofNat 16 (min power 4000), tin := BitVec.ofNat 8 (min tin 100), tjmax := BitVec.ofNat 8 (min tjmax 150), therm := th } : PkgStat)
    let back := fun (t : State) => (t.fw k).state = .committed ∧ (t.fw k).version = f.version ∧ (t.fw k).staged = none ∧
      (t.fw k).refused = img.version :: f.refused
    (s.boot.recovery = true → s.inReset.boot.recovery = true ∧
      (layersOk layers = true → s.pkg.now ≠ 2 → ∃ t, exec (.boot layers second) s = .next t ∧ t.boot.recovery = false ∧
        t.boot.secondRoot = second ∧ t.cores = [] ∧ t.launches = [] ∧ t.mem = [] ∧ t.pkg.therm = BitVec.ofNat 2 s.pkg.now ∧
        (∀ x1 x2 rest, layers = x1 :: x2 :: rest → t.boot.m1 = x1.digest ∧ t.boot.m2 = x2.digest ∧
          t.boot.cdi1 = nextSecret Config.uds x1.digest ∧ t.boot.cdi2 = nextSecret t.boot.cdi1 x2.digest ∧
          ∀ c, c < 5 → (t.fw c).state = .committed ∧ (t.fw c).version = x2.version)) ∧
      (layersOk layers = false ∨ s.pkg.now = 2 → exec (.boot layers second) s = .next s.inReset)) ∧
    (s.boot.recovery = false → exec (.boot layers second) s = .next s) ∧
    (s.pkg.therm ≠ 2 →
      (tjmax < 95 → tin ≤ 40 → exec (.pkgstatUpdate power tin tjmax) s = .next { s with pkg := publish 0 }) ∧
      (tjmax < 110 → (95 ≤ tjmax ∨ 40 < tin) → exec (.pkgstatUpdate power tin tjmax) s = .next { s with pkg := publish 1 }) ∧
      (110 ≤ tjmax → exec (.pkgstatUpdate power tin tjmax) s = .next { s.inReset with pkg := publish 2 }) ∧
      s.inReset.cores = [] ∧ s.inReset.ports = []) ∧
    (isCtrl k = true → s.boot.recovery = false → f.state = .committed →
      (img.edOk = true → img.mldsaOk = true → f.version < img.version → img.version ∉ f.refused →
        ∃ t, exec (.firmwareStaged k img) s = .next t ∧ (t.fw k).state = .quiesce ∧ (t.fw k).staged = some img ∧
          (t.fw k).version = f.version ∧ t.out.answers = true :: s.out.answers) ∧
      (img.edOk = false ∨ img.mldsaOk = false ∨ img.version ≤ f.version ∨ img.version ∈ f.refused →
        ∃ t, exec (.firmwareStaged k img) s = .next t ∧ (t.fw k).state = .committed ∧ (t.fw k).staged = f.staged ∧
          (t.fw k).version = f.version ∧ t.out.answers = false :: s.out.answers)) ∧
    (f.state = .quiesce → f.staged = some img → exec (.handover k) s = .next (s.setFw k { f with
      state := .probation, record := some s.handoverOf,
      deadline := s.ns + (if 10 ≤ img.wdt ∧ img.wdt ≤ 500 then img.wdt else 50) * 1000000 })) ∧
    types s.handoverOf = [1, 2, 3, 4, 5, 6, 7, 8] ∧ (∀ h ∈ s.handoverOf.heads, h.toNat / 2 ^ 8 % 2 ^ 24 = 0 ∧ h.toNat / 2 ^ 64 = 0) ∧
    (f.state = .probation → f.staged = some img →
      (s.ns < f.deadline →
        ((∀ r, f.record = some r → (∀ y ∈ types r, 1 ≤ y ∧ y ≤ 8) ∧ (types r).Nodup) → ∃ t, exec (.alive k) s = .next t ∧
          (t.fw k).state = .committed ∧ (t.fw k).version = img.version ∧ (t.fw k).digest = img.digest ∧ (t.fw k).staged = none ∧
          (k < 5 → t.boot.m2 = img.digest ∧ t.boot.cdi2 = nextSecret s.boot.cdi1 img.digest)) ∧
        (∀ r y, f.record = some r → y ∈ types r → (y = 0 ∨ 8 < y) → ∃ t, exec (.alive k) s = .next t ∧ back t)) ∧
      (f.deadline ≤ s.ns → ∃ t, exec (.probationDeadline k) s = .next t ∧ back t) ∧
      ∀ reason, reason = 2 ∨ reason = 3 → ∃ t, exec (.firmwareRollback k reason) s = .next t ∧ back t) ∧
    (v < 4 →
      (legalDies dies = true → s.boot.recovery = false → (∀ w, w < 4 → w ≠ v → ∀ d ∈ (s.vf w).dies, d ∉ dies) →
        (∀ d ∈ (s.vf v).dies ++ dies, s.dieQuiet d = true) →
        ∃ t, exec (.partitionChange v dies) s = .next t ∧ (t.vf v).dies = dies ∧ (t.vf v).exists_ = !dies.isEmpty ∧
          t.out.answers = true :: s.out.answers ∧ ((∀ d ∈ (s.vf v).dies, d ∈ dies) → ∀ m, t.core m = s.core m) ∧
          ((s.vf v).exists_ = false ∨ dies = [] → ∀ e ∈ t.seals, e.2.vf ≠ v) ∧
          ((s.vf v).exists_ = false → (t.vf v).fault = VF.empty.fault ∧ (t.vf v).event = VF.empty.event ∧
            (t.vf v).vecs = VF.empty.vecs ∧ (t.vf v).notctl = VF.empty.notctl)) ∧
      (legalDies dies = false ∨ (∃ w, w < 4 ∧ w ≠ v ∧ ∃ d ∈ (s.vf w).dies, d ∈ dies) →
        exec (.partitionChange v dies) s = .next (s.answer false))) ∧
    (v < 4 → (s.vf v).exists_ = true → s.schedules = true → pages.all pageLegal = true → pages.all (pageOnDies (s.vf v).dies) = true →
      (whole = true → ∀ p ∈ pages, p.pbase / 2 ^ 36 = stack) → pagesApart (pages.map (fun p => { p with vf := v })) = true →
      (∀ p ∈ pages, ∀ w, w < 4 → ∀ q ∈ (s.vf w).pages, pagesMeet { p with vf := v } q = false) →
      (∀ i, i < 8 → s.stackUsed i + stackSum pages i ≤ s.stackBytes i) →
      ∃ t, exec (.pageAllocation v stack whole pages) s = .next t ∧
        (t.vf v).pages = (s.vf v).pages ++ pages.map (fun p => { p with vf := v }) ∧ t.out.answers = true :: s.out.answers) ∧
    ((∀ d ∈ (s.vf v).dies, d < 4) → (s.boot.recovery = true ∨
        ((s.portLink (s.evidenceLink v)).up = true ∧ ∀ e ∈ s.portIn, e.1 ≠ s.evidenceLink v)) →
      ∃ t r, exec (.evidenceRequest v nonce) s = .next t ∧
      t.out.evidence = (r, Config.edSign (keySeed s.boot.cdi2 "TQ4 id Ed") 128 r.toNat,
        Config.mldsaSign (keySeed s.boot.cdi2 "TQ4 id MLDSA") 128 r.toNat) :: s.out.evidence ∧
      r.extractLsb' 768 256 = nonce ∧ r.extractLsb' 64 64 = BitVec.ofNat 64 s.ns ∧ r.extractLsb' 256 256 = s.boot.m2)

/-- Worlds: a frame table is written while no frame is open and no launch holds the core; a frame opens on an idle core at its edge and closes with
an overrun; Clear leaves the start values, and the frame open until its edge; key slots and world keys (R400 to R404). That a table is refused while
a frame is open or a launch holds the core, and the time from the edge to the start, is the model's reading (log 37). -/
def Obligations.WorldsAndFrames : Prop :=
  ∀ (s : State) (n k : Nat),
    let c := s.core n
    let v := s.owner (dieOf n)
    (∀ (epoch period : Nat) (entries : List (BitVec 128)) (args : List (Nat × Nat)), v < 4 → 2 ^ 16 ≤ period → period < 2 ^ 32 →
      entries.length ≤ 8 → entries.all (s.frameOk v period) = true → framesApart period entries = true →
      (∀ a ∈ args, a.1 ≤ 240) → c.frameOpen = none → s.coreHeld n = false →
      ∃ t, exec (.frameTableWrite n epoch period entries args) s = .next t ∧ (t.core n).frames = ⟨epoch, period, entries, args⟩ ∧
        t.out.answers = true :: s.out.answers ∧ s.SameElsewhere t n) ∧
    (∀ (e : BitVec 128) (i : Image) (m : Bool), c.frames.entries[k]? = some e → frEn e = true → c.frames.edge s.now (frOffset e) = true →
      c.run = .idle → c.frameOpen = none → s.present n = true → v < 4 → s.boot.recovery = false → s.coreClaimed n = false →
      s.sealCounter v (frWorld e) n < 2 ^ 82 → s.image? v (frImage e) = some i →
      i.unitsOk (s.recOf n) n (0, 0) = true → s.modeOf i (colOf n, rowOf n, 1, 1) [(n, 0, 0)] 1 = .ok m → s.sealedFor n v (frWorld e) = none →
      ∃ t at0, exec (.frameOpen n k) s = .next t ∧ (t.core n).frameOpen = some k ∧ (t.core n).run = .starting at0 ∧ s.now ≤ at0 ∧
        (t.core n).launch = some s.nextId ∧ (t.core n).regs.pc = BitVec.ofNat 24 i.entry ∧ (t.core n).imode = m ∧
        (t.core n).regs.loops = [] ∧ (t.core n).sreg 31 = 1 ∧ (t.core n).keys = c.keys) ∧
    (∀ (e : BitVec 128), c.frames.entries[k]? = some e → c.frames.edge s.now (frOffset e + frLength e) = true → c.frameOpen = some k →
      c.run = .running →
      ∃ t, exec (.frameClose n k) s = .next t ∧ (t.core n).frameOpen = none ∧
        t.sealedFor n (s.vfOf n) (frWorld e) = none ∧ (t.core n).performs = [] ∧ (t.core n).pend = c.pend ++ [.frame ⟨15, 0, 1 + k % 8 * 2 ^ 4 + frWorld e * 2 ^ 8, 0, 0⟩]) ∧
    (∀ r, c.trapped = some r → r.cause = 15 → s.schedules = true → s.noJobs n = true →
      ∃ t, exec (.clear n) s = .next t ∧ (t.core n).run = .idle ∧ (t.core n).launch = none ∧ (t.core n).frameOpen = c.frameOpen ∧
        (∀ j, (t.core n).sreg j = 0) ∧ (t.core n).queue = [] ∧ (t.core n).bufA = [] ∧ (t.core n).bufC = [] ∧ (t.core n).bufW = [] ∧
        (t.core n).keys = c.keys ∧ (t.core n).frames = c.frames ∧ ∀ m, m ≠ n → t.core m = s.core m) ∧
    (∀ bits : BitVec 512, 1 ≤ k → k ≤ 63 →
      exec (.keySlotWrite n k bits) s = .next (s.setCore n { c with keys := put c.keys k bits })) ∧
    ∀ (w world : Nat), let key := getD ⟨0, []⟩ s.worlds (worldKey w world)
      exec (.worldKeyInstall w world) s = .next { s with worlds := put s.worlds (worldKey w world) ⟨key.gen + 1, []⟩ }

/-- Protected links and the time base: the nonce and key of a flit group, the packet number, the epoch and the state of a stream, also at EPOCH 255,
where only a new domain secret gives the pending key; the receiver's window; a flit that waits while its port trains; a stream that goes to ERROR
while nothing waits; a port's width; the grandmaster, that of port 18 where both are there (R406 to R412). That a number more than 1,024 behind is
dropped is the model's reading (log 40). -/
def Obligations.LinksAndTimeBase : Prop :=
  ∀ (s : State) (k src secret epoch pn die port : Nat) (ppm : Int),
    let x := s.stream k
    let becomes := fun (i : Instr) (y : Stream) => exec i s = .next (s.setStream k y)
    let seals := fun (y : Stream) => exec (.flitGroupSeal k) s = .next { s.setStream k y with out := { s.out with
      sealed := (k, streamKey x.secret (port + die * 2 ^ 6 + pkgId % 2 ^ 24 * 2 ^ 8) x.epoch,
        BitVec.ofNat 96 ((port + die * 2 ^ 6 + pkgId % 2 ^ 24 * 2 ^ 8) * 2 ^ 64 + x.pn)) :: s.out.sealed
      spent := if y.state = .exhausted then k :: s.out.spent else s.out.spent } }
    (streamEnd k = some (die, port) →
      (x.state = .active → (s.port port).up = true → x.pn < 2 ^ 48 →
        (x.pn + 1 < 2 ^ 47 ∨ (x.pend = false ∧ x.pn ≠ 2 ^ 48 - 1) → seals { x with pn := x.pn + 1 }) ∧
        (2 ^ 47 ≤ x.pn + 1 → x.pend = true → x.epoch < 255 → seals
          { x with pn := 0, pend := false, pendSecret := none, epoch := x.epoch + 1, state := .active }) ∧
        (x.pn = 2 ^ 48 - 1 → x.pend = false → seals { x with state := .exhausted, since := s.ns })) ∧
      (x.state = .active → x.epoch < 255 → becomes (.pendingKeyProgram k none) { x with pend := true, pendSecret := none }) ∧
      (x.state ≠ .active ∨ (s.port port).up = false → exec (.flitGroupSeal k) s = .next s) ∧
      (x.state = .exhausted → x.epoch < 255 → s.ns < x.since + 10000000 → becomes (.pendingKeyProgram k none)
        { x with pn := 0, pend := false, pendSecret := none, epoch := x.epoch + 1, state := .active }) ∧
      (x.state = .active → (s.port port).up = true → x.pn < 2 ^ 48 → 2 ^ 47 ≤ x.pn + 1 → x.pend = true → x.epoch = 255 →
        ∀ z, x.pendSecret = some z → seals { x with pn := 0, pend := false, pendSecret := none, secret := z, epoch := 0, state := .active }) ∧
      (x.secret < secret → x.epoch = 255 → (x.state = .active → becomes (.pendingKeyProgram k (some secret)) { x with pend := true, pendSecret := some secret }) ∧
        (x.state = .exhausted → s.ns < x.since + 10000000 → becomes (.pendingKeyProgram k (some secret))
          { x with secret := secret, pn := 0, epoch := 0, pend := false, pendSecret := none, state := .active })) ∧
      (x.epoch = 255 → exec (.pendingKeyProgram k none) s = .next s) ∧
      (x.epoch < 255 ∨ secret ≤ x.secret → exec (.pendingKeyProgram k (some secret)) s = .next s) ∧
      (x.secret < secret → becomes (.fabricKeyHandover k secret)
        { x with secret := secret, pn := 0, epoch := 0, pend := false, pendSecret := none, state := .active }) ∧
      ((s.port port).state = 1 → exec (.flitReceive k src secret epoch pn) s =
        .next { s with portIn := s.portIn ++ [(port, .flitReceive k src secret epoch pn)] }) ∧
      ((s.port port).up = true → (∀ e ∈ s.portIn, e.1 ≠ port) → pn < 2 ^ 48 → (∀ e ∈ x.recv, e.1 ≠ (src, secret, epoch)) → ∃ t, exec (.flitReceive k src secret epoch pn) s = .next t ∧
        (t.stream k).recv = ((src, secret, epoch), pn, []) :: x.recv ∧ t.out.flits = (src, pn) :: s.out.flits) ∧
      (∀ top seen, (s.port port).up = true → (∀ e ∈ s.portIn, e.1 ≠ port) → pn < 2 ^ 48 → x.recv.find? (fun e => e.1 == (src, secret, epoch)) = some ((src, secret, epoch), top, seen) →
        (top < pn ∨ (top ≤ pn + 1024 ∧ pn ≠ top ∧ pn ∉ seen) → ∃ t, exec (.flitReceive k src secret epoch pn) s = .next t ∧
          t.out.flits = (src, pn) :: s.out.flits ∧ ∃ top' seen', (t.stream k).recv.find? (fun e => e.1 == (src, secret, epoch)) =
            some ((src, secret, epoch), top', seen') ∧ top' = max top pn ∧ (pn = top' ∨ pn ∈ seen')) ∧
        (pn + 1024 < top ∨ pn = top ∨ (pn ≤ top ∧ pn ∈ seen) → exec (.flitReceive k src secret epoch pn) s = .next s))) ∧
    (x.state = .exhausted → x.since + 10000000 ≤ s.ns →
      (∀ n, (s.core n).performs = [] ∧ (s.core n).loads = [] ∧ (s.core n).lost = []) →
      ∃ t, exec (.keyExhaustedTimeout k) s = .next t ∧ t.stream k = { x with state := .error } ∧ ∀ n, t.core n = s.core n) ∧
    (k < 24 → s.boot.recovery = false → ∃ t y, exec (.portRetrain k) s = .next t ∧ find? t.ports k = some y ∧
      (s.portOff k = true → y = Port.down) ∧
      (k = 0 → y.width ∈ [0, 1, 2, 4, 8, 16] ∧ y.width ≤ 16 ∧ (∀ i, i < y.width → (s.die 0).hallmark.pcie.getLsbD i = true) ∧
        y.rate = 128 * y.width) ∧
      (20 ≤ k → y.width = s.portLanes k ∧ y.rate = 32 * y.width)) ∧
    (exec (.timeSync true false ppm) s = .next { s with time := { s.time with gm := some 18, ppm := max (-100) (min 100 ppm) } }) ∧
    (exec (.timeSync false true ppm) s = .next { s with time := { s.time with gm := some 19, ppm := max (-100) (min 100 ppm) } }) ∧
    (exec (.timeSync true true ppm) s = .next { s with time := { s.time with gm := some 18, ppm := max (-100) (min 100 ppm) } }) ∧
    exec .grandmasterLoss s = .next { s with time := { s.time with gm := none } }
end

