-- ==== Sys2Proof/Laws/State.lean ====
section
/-! SUPPORT. How the updates of State meet its fields: one lemma per field per update, and the laws of the sparse tables. -/

namespace Sys2Proof.Machine

/-! ## Sparse tables -/

@[simp] theorem getD_put_self {α : Type} (d : α) (m : Map α) (k : Nat) (a : α) : getD d (put m k a) k = a := by
  induction m with
  | nil => simp [put, getD]
  | cons e r ih =>
    obtain ⟨i, b⟩ := e
    unfold put
    split
    · simp [getD]
    · split
      · simp [getD]
      · rename_i h1 h2
        simp [getD, ih, Ne.symm h2]

theorem getD_put_of_ne {α : Type} (d : α) (m : Map α) (k j : Nat) (a : α) (h : j ≠ k) :
    getD d (put m k a) j = getD d m j := by
  induction m with
  | nil => simp [put, getD, Ne.symm h]
  | cons e r ih =>
    obtain ⟨i, b⟩ := e
    unfold put
    split
    · simp [getD, Ne.symm h]
    · split
      · rename_i h1 h2
        subst h2
        simp [getD, Ne.symm h]
      · simp [getD, ih]

@[simp] theorem find?_put_self {α : Type} (m : Map α) (k : Nat) (a : α) : find? (put m k a) k = some a := by
  induction m with
  | nil => simp [put, find?]
  | cons e r ih =>
    obtain ⟨i, b⟩ := e
    unfold put
    split
    · simp [find?]
    · split
      · simp [find?]
      · rename_i h1 h2
        simp [find?, ih, Ne.symm h2]

theorem find?_put_of_ne {α : Type} (m : Map α) (k j : Nat) (a : α) (h : j ≠ k) : find? (put m k a) j = find? m j := by
  induction m with
  | nil => simp [put, find?, Ne.symm h]
  | cons e r ih =>
    obtain ⟨i, b⟩ := e
    unfold put
    split
    · simp [find?, Ne.symm h]
    · split
      · rename_i h1 h2
        subst h2
        simp [find?, Ne.symm h]
      · simp [find?, ih]

/-- A later write of the same key stands alone. -/
@[simp] theorem put_put {α : Type} (m : Map α) (k : Nat) (a b : α) : put (put m k a) k b = put m k b := by
  induction m with
  | nil => simp [put]
  | cons e r ih =>
    obtain ⟨i, x⟩ := e
    by_cases h : k < i
    · have e1 : put ((i, x) :: r) k a = (k, a) :: (i, x) :: r := by simp [put, h]
      rw [e1]; simp [put, h]
    · by_cases h2 : k = i
      · subst h2; simp [put]
      · have e1 : ∀ c, put ((i, x) :: r) k c = (i, x) :: put r k c := fun c => by simp [put, h, h2]
        rw [e1, e1, ← ih]; simp only [put, h, h2, if_false]

theorem getD_eq_find? {α : Type} (d : α) (m : Map α) (k : Nat) : getD d m k = (find? m k).getD d := by
  induction m with
  | nil => rfl
  | cons e r ih =>
    obtain ⟨i, b⟩ := e
    unfold getD find?
    split <;> simp [ih]

theorem vget_vset_self {α : Type} {n : Nat} (v : Vector α n) (i : Nat) (a d : α) (h : i < n) : vget (vset v i a) i d = a := by
  simp [vget, vset, h]

theorem vget_vset_of_ne {α : Type} {n : Nat} (v : Vector α n) (i j : Nat) (a d : α) (h : j ≠ i) :
    vget (vset v i a) j d = vget v j d := by
  unfold vget vset
  split <;> simp [Ne.symm h]


/-! ## setCore -/

@[simp] theorem State.setCore_now (s : State) (n : Nat) (c : Core) : (s.setCore n c).now = s.now := rfl
@[simp] theorem State.setCore_time (s : State) (n : Nat) (c : Core) : (s.setCore n c).time = s.time := rfl
@[simp] theorem State.setCore_inputs (s : State) (n : Nat) (c : Core) : (s.setCore n c).inputs = s.inputs := rfl
@[simp] theorem State.setCore_delays (s : State) (n : Nat) (c : Core) : (s.setCore n c).delays = s.delays := rfl
@[simp] theorem State.setCore_drawn (s : State) (n : Nat) (c : Core) : (s.setCore n c).drawn = s.drawn := rfl
@[simp] theorem State.setCore_cur (s : State) (n : Nat) (c : Core) : (s.setCore n c).cur = s.cur := rfl
@[simp] theorem State.setCore_dies (s : State) (n : Nat) (c : Core) : (s.setCore n c).dies = s.dies := rfl
@[simp] theorem State.setCore_queues (s : State) (n : Nat) (c : Core) : (s.setCore n c).queues = s.queues := rfl
@[simp] theorem State.setCore_launches (s : State) (n : Nat) (c : Core) : (s.setCore n c).launches = s.launches := rfl
@[simp] theorem State.setCore_graphs (s : State) (n : Nat) (c : Core) : (s.setCore n c).graphs = s.graphs := rfl
@[simp] theorem State.setCore_runs (s : State) (n : Nat) (c : Core) : (s.setCore n c).runs = s.runs := rfl
@[simp] theorem State.setCore_copies (s : State) (n : Nat) (c : Core) : (s.setCore n c).copies = s.copies := rfl
@[simp] theorem State.setCore_nextId (s : State) (n : Nat) (c : Core) : (s.setCore n c).nextId = s.nextId := rfl
@[simp] theorem State.setCore_vfs (s : State) (n : Nat) (c : Core) : (s.setCore n c).vfs = s.vfs := rfl
@[simp] theorem State.setCore_mem (s : State) (n : Nat) (c : Core) : (s.setCore n c).mem = s.mem := rfl
@[simp] theorem State.setCore_writes (s : State) (n : Nat) (c : Core) : (s.setCore n c).writes = s.writes := rfl
@[simp] theorem State.setCore_log (s : State) (n : Nat) (c : Core) : (s.setCore n c).log = s.log := rfl
@[simp] theorem State.setCore_host (s : State) (n : Nat) (c : Core) : (s.setCore n c).host = s.host := rfl
@[simp] theorem State.setCore_releases (s : State) (n : Nat) (c : Core) : (s.setCore n c).releases = s.releases := rfl
@[simp] theorem State.setCore_units (s : State) (n : Nat) (c : Core) : (s.setCore n c).units = s.units := rfl
@[simp] theorem State.setCore_firmware (s : State) (n : Nat) (c : Core) : (s.setCore n c).firmware = s.firmware := rfl
@[simp] theorem State.setCore_streams (s : State) (n : Nat) (c : Core) : (s.setCore n c).streams = s.streams := rfl
@[simp] theorem State.setCore_ports (s : State) (n : Nat) (c : Core) : (s.setCore n c).ports = s.ports := rfl
@[simp] theorem State.setCore_portIn (s : State) (n : Nat) (c : Core) : (s.setCore n c).portIn = s.portIn := rfl
@[simp] theorem State.setCore_portOut (s : State) (n : Nat) (c : Core) : (s.setCore n c).portOut = s.portOut := rfl
@[simp] theorem State.setCore_boot (s : State) (n : Nat) (c : Core) : (s.setCore n c).boot = s.boot := rfl
@[simp] theorem State.setCore_pkg (s : State) (n : Nat) (c : Core) : (s.setCore n c).pkg = s.pkg := rfl
@[simp] theorem State.setCore_worlds (s : State) (n : Nat) (c : Core) : (s.setCore n c).worlds = s.worlds := rfl
@[simp] theorem State.setCore_seals (s : State) (n : Nat) (c : Core) : (s.setCore n c).seals = s.seals := rfl
@[simp] theorem State.setCore_out (s : State) (n : Nat) (c : Core) : (s.setCore n c).out = s.out := rfl

/-! ## updCore -/

@[simp] theorem State.updCore_now (s : State) (n : Nat) (f : Core → Core) : (s.updCore n f).now = s.now := rfl
@[simp] theorem State.updCore_time (s : State) (n : Nat) (f : Core → Core) : (s.updCore n f).time = s.time := rfl
@[simp] theorem State.updCore_inputs (s : State) (n : Nat) (f : Core → Core) : (s.updCore n f).inputs = s.inputs := rfl
@[simp] theorem State.updCore_delays (s : State) (n : Nat) (f : Core → Core) : (s.updCore n f).delays = s.delays := rfl
@[simp] theorem State.updCore_drawn (s : State) (n : Nat) (f : Core → Core) : (s.updCore n f).drawn = s.drawn := rfl
@[simp] theorem State.updCore_cur (s : State) (n : Nat) (f : Core → Core) : (s.updCore n f).cur = s.cur := rfl
@[simp] theorem State.updCore_dies (s : State) (n : Nat) (f : Core → Core) : (s.updCore n f).dies = s.dies := rfl
@[simp] theorem State.updCore_queues (s : State) (n : Nat) (f : Core → Core) : (s.updCore n f).queues = s.queues := rfl
@[simp] theorem State.updCore_launches (s : State) (n : Nat) (f : Core → Core) : (s.updCore n f).launches = s.launches := rfl
@[simp] theorem State.updCore_graphs (s : State) (n : Nat) (f : Core → Core) : (s.updCore n f).graphs = s.graphs := rfl
@[simp] theorem State.updCore_runs (s : State) (n : Nat) (f : Core → Core) : (s.updCore n f).runs = s.runs := rfl
@[simp] theorem State.updCore_copies (s : State) (n : Nat) (f : Core → Core) : (s.updCore n f).copies = s.copies := rfl
@[simp] theorem State.updCore_nextId (s : State) (n : Nat) (f : Core → Core) : (s.updCore n f).nextId = s.nextId := rfl
@[simp] theorem State.updCore_vfs (s : State) (n : Nat) (f : Core → Core) : (s.updCore n f).vfs = s.vfs := rfl
@[simp] theorem State.updCore_mem (s : State) (n : Nat) (f : Core → Core) : (s.updCore n f).mem = s.mem := rfl
@[simp] theorem State.updCore_writes (s : State) (n : Nat) (f : Core → Core) : (s.updCore n f).writes = s.writes := rfl
@[simp] theorem State.updCore_log (s : State) (n : Nat) (f : Core → Core) : (s.updCore n f).log = s.log := rfl
@[simp] theorem State.updCore_host (s : State) (n : Nat) (f : Core → Core) : (s.updCore n f).host = s.host := rfl
@[simp] theorem State.updCore_releases (s : State) (n : Nat) (f : Core → Core) : (s.updCore n f).releases = s.releases := rfl
@[simp] theorem State.updCore_units (s : State) (n : Nat) (f : Core → Core) : (s.updCore n f).units = s.units := rfl
@[simp] theorem State.updCore_firmware (s : State) (n : Nat) (f : Core → Core) : (s.updCore n f).firmware = s.firmware := rfl
@[simp] theorem State.updCore_streams (s : State) (n : Nat) (f : Core → Core) : (s.updCore n f).streams = s.streams := rfl
@[simp] theorem State.updCore_ports (s : State) (n : Nat) (f : Core → Core) : (s.updCore n f).ports = s.ports := rfl
@[simp] theorem State.updCore_portIn (s : State) (n : Nat) (f : Core → Core) : (s.updCore n f).portIn = s.portIn := rfl
@[simp] theorem State.updCore_portOut (s : State) (n : Nat) (f : Core → Core) : (s.updCore n f).portOut = s.portOut := rfl
@[simp] theorem State.updCore_boot (s : State) (n : Nat) (f : Core → Core) : (s.updCore n f).boot = s.boot := rfl
@[simp] theorem State.updCore_pkg (s : State) (n : Nat) (f : Core → Core) : (s.updCore n f).pkg = s.pkg := rfl
@[simp] theorem State.updCore_worlds (s : State) (n : Nat) (f : Core → Core) : (s.updCore n f).worlds = s.worlds := rfl
@[simp] theorem State.updCore_seals (s : State) (n : Nat) (f : Core → Core) : (s.updCore n f).seals = s.seals := rfl
@[simp] theorem State.updCore_out (s : State) (n : Nat) (f : Core → Core) : (s.updCore n f).out = s.out := rfl

/-! ## setDie -/

@[simp] theorem State.setDie_now (s : State) (d : Nat) (x : Die) : (s.setDie d x).now = s.now := rfl
@[simp] theorem State.setDie_time (s : State) (d : Nat) (x : Die) : (s.setDie d x).time = s.time := rfl
@[simp] theorem State.setDie_inputs (s : State) (d : Nat) (x : Die) : (s.setDie d x).inputs = s.inputs := rfl
@[simp] theorem State.setDie_delays (s : State) (d : Nat) (x : Die) : (s.setDie d x).delays = s.delays := rfl
@[simp] theorem State.setDie_drawn (s : State) (d : Nat) (x : Die) : (s.setDie d x).drawn = s.drawn := rfl
@[simp] theorem State.setDie_cur (s : State) (d : Nat) (x : Die) : (s.setDie d x).cur = s.cur := rfl
@[simp] theorem State.setDie_cores (s : State) (d : Nat) (x : Die) : (s.setDie d x).cores = s.cores := rfl
@[simp] theorem State.setDie_queues (s : State) (d : Nat) (x : Die) : (s.setDie d x).queues = s.queues := rfl
@[simp] theorem State.setDie_launches (s : State) (d : Nat) (x : Die) : (s.setDie d x).launches = s.launches := rfl
@[simp] theorem State.setDie_graphs (s : State) (d : Nat) (x : Die) : (s.setDie d x).graphs = s.graphs := rfl
@[simp] theorem State.setDie_runs (s : State) (d : Nat) (x : Die) : (s.setDie d x).runs = s.runs := rfl
@[simp] theorem State.setDie_copies (s : State) (d : Nat) (x : Die) : (s.setDie d x).copies = s.copies := rfl
@[simp] theorem State.setDie_nextId (s : State) (d : Nat) (x : Die) : (s.setDie d x).nextId = s.nextId := rfl
@[simp] theorem State.setDie_vfs (s : State) (d : Nat) (x : Die) : (s.setDie d x).vfs = s.vfs := rfl
@[simp] theorem State.setDie_mem (s : State) (d : Nat) (x : Die) : (s.setDie d x).mem = s.mem := rfl
@[simp] theorem State.setDie_writes (s : State) (d : Nat) (x : Die) : (s.setDie d x).writes = s.writes := rfl
@[simp] theorem State.setDie_log (s : State) (d : Nat) (x : Die) : (s.setDie d x).log = s.log := rfl
@[simp] theorem State.setDie_host (s : State) (d : Nat) (x : Die) : (s.setDie d x).host = s.host := rfl
@[simp] theorem State.setDie_releases (s : State) (d : Nat) (x : Die) : (s.setDie d x).releases = s.releases := rfl
@[simp] theorem State.setDie_units (s : State) (d : Nat) (x : Die) : (s.setDie d x).units = s.units := rfl
@[simp] theorem State.setDie_firmware (s : State) (d : Nat) (x : Die) : (s.setDie d x).firmware = s.firmware := rfl
@[simp] theorem State.setDie_streams (s : State) (d : Nat) (x : Die) : (s.setDie d x).streams = s.streams := rfl
@[simp] theorem State.setDie_ports (s : State) (d : Nat) (x : Die) : (s.setDie d x).ports = s.ports := rfl
@[simp] theorem State.setDie_portIn (s : State) (d : Nat) (x : Die) : (s.setDie d x).portIn = s.portIn := rfl
@[simp] theorem State.setDie_portOut (s : State) (d : Nat) (x : Die) : (s.setDie d x).portOut = s.portOut := rfl
@[simp] theorem State.setDie_boot (s : State) (d : Nat) (x : Die) : (s.setDie d x).boot = s.boot := rfl
@[simp] theorem State.setDie_pkg (s : State) (d : Nat) (x : Die) : (s.setDie d x).pkg = s.pkg := rfl
@[simp] theorem State.setDie_worlds (s : State) (d : Nat) (x : Die) : (s.setDie d x).worlds = s.worlds := rfl
@[simp] theorem State.setDie_seals (s : State) (d : Nat) (x : Die) : (s.setDie d x).seals = s.seals := rfl
@[simp] theorem State.setDie_out (s : State) (d : Nat) (x : Die) : (s.setDie d x).out = s.out := rfl

/-! ## updDie -/

@[simp] theorem State.updDie_now (s : State) (d : Nat) (f : Die → Die) : (s.updDie d f).now = s.now := rfl
@[simp] theorem State.updDie_time (s : State) (d : Nat) (f : Die → Die) : (s.updDie d f).time = s.time := rfl
@[simp] theorem State.updDie_inputs (s : State) (d : Nat) (f : Die → Die) : (s.updDie d f).inputs = s.inputs := rfl
@[simp] theorem State.updDie_delays (s : State) (d : Nat) (f : Die → Die) : (s.updDie d f).delays = s.delays := rfl
@[simp] theorem State.updDie_drawn (s : State) (d : Nat) (f : Die → Die) : (s.updDie d f).drawn = s.drawn := rfl
@[simp] theorem State.updDie_cur (s : State) (d : Nat) (f : Die → Die) : (s.updDie d f).cur = s.cur := rfl
@[simp] theorem State.updDie_cores (s : State) (d : Nat) (f : Die → Die) : (s.updDie d f).cores = s.cores := rfl
@[simp] theorem State.updDie_queues (s : State) (d : Nat) (f : Die → Die) : (s.updDie d f).queues = s.queues := rfl
@[simp] theorem State.updDie_launches (s : State) (d : Nat) (f : Die → Die) : (s.updDie d f).launches = s.launches := rfl
@[simp] theorem State.updDie_graphs (s : State) (d : Nat) (f : Die → Die) : (s.updDie d f).graphs = s.graphs := rfl
@[simp] theorem State.updDie_runs (s : State) (d : Nat) (f : Die → Die) : (s.updDie d f).runs = s.runs := rfl
@[simp] theorem State.updDie_copies (s : State) (d : Nat) (f : Die → Die) : (s.updDie d f).copies = s.copies := rfl
@[simp] theorem State.updDie_nextId (s : State) (d : Nat) (f : Die → Die) : (s.updDie d f).nextId = s.nextId := rfl
@[simp] theorem State.updDie_vfs (s : State) (d : Nat) (f : Die → Die) : (s.updDie d f).vfs = s.vfs := rfl
@[simp] theorem State.updDie_mem (s : State) (d : Nat) (f : Die → Die) : (s.updDie d f).mem = s.mem := rfl
@[simp] theorem State.updDie_writes (s : State) (d : Nat) (f : Die → Die) : (s.updDie d f).writes = s.writes := rfl
@[simp] theorem State.updDie_log (s : State) (d : Nat) (f : Die → Die) : (s.updDie d f).log = s.log := rfl
@[simp] theorem State.updDie_host (s : State) (d : Nat) (f : Die → Die) : (s.updDie d f).host = s.host := rfl
@[simp] theorem State.updDie_releases (s : State) (d : Nat) (f : Die → Die) : (s.updDie d f).releases = s.releases := rfl
@[simp] theorem State.updDie_units (s : State) (d : Nat) (f : Die → Die) : (s.updDie d f).units = s.units := rfl
@[simp] theorem State.updDie_firmware (s : State) (d : Nat) (f : Die → Die) : (s.updDie d f).firmware = s.firmware := rfl
@[simp] theorem State.updDie_streams (s : State) (d : Nat) (f : Die → Die) : (s.updDie d f).streams = s.streams := rfl
@[simp] theorem State.updDie_ports (s : State) (d : Nat) (f : Die → Die) : (s.updDie d f).ports = s.ports := rfl
@[simp] theorem State.updDie_portIn (s : State) (d : Nat) (f : Die → Die) : (s.updDie d f).portIn = s.portIn := rfl
@[simp] theorem State.updDie_portOut (s : State) (d : Nat) (f : Die → Die) : (s.updDie d f).portOut = s.portOut := rfl
@[simp] theorem State.updDie_boot (s : State) (d : Nat) (f : Die → Die) : (s.updDie d f).boot = s.boot := rfl
@[simp] theorem State.updDie_pkg (s : State) (d : Nat) (f : Die → Die) : (s.updDie d f).pkg = s.pkg := rfl
@[simp] theorem State.updDie_worlds (s : State) (d : Nat) (f : Die → Die) : (s.updDie d f).worlds = s.worlds := rfl
@[simp] theorem State.updDie_seals (s : State) (d : Nat) (f : Die → Die) : (s.updDie d f).seals = s.seals := rfl
@[simp] theorem State.updDie_out (s : State) (d : Nat) (f : Die → Die) : (s.updDie d f).out = s.out := rfl

/-! ## setVf -/

@[simp] theorem State.setVf_now (s : State) (v : Nat) (x : VF) : (s.setVf v x).now = s.now := rfl
@[simp] theorem State.setVf_time (s : State) (v : Nat) (x : VF) : (s.setVf v x).time = s.time := rfl
@[simp] theorem State.setVf_inputs (s : State) (v : Nat) (x : VF) : (s.setVf v x).inputs = s.inputs := rfl
@[simp] theorem State.setVf_delays (s : State) (v : Nat) (x : VF) : (s.setVf v x).delays = s.delays := rfl
@[simp] theorem State.setVf_drawn (s : State) (v : Nat) (x : VF) : (s.setVf v x).drawn = s.drawn := rfl
@[simp] theorem State.setVf_cur (s : State) (v : Nat) (x : VF) : (s.setVf v x).cur = s.cur := rfl
@[simp] theorem State.setVf_cores (s : State) (v : Nat) (x : VF) : (s.setVf v x).cores = s.cores := rfl
@[simp] theorem State.setVf_dies (s : State) (v : Nat) (x : VF) : (s.setVf v x).dies = s.dies := rfl
@[simp] theorem State.setVf_queues (s : State) (v : Nat) (x : VF) : (s.setVf v x).queues = s.queues := rfl
@[simp] theorem State.setVf_launches (s : State) (v : Nat) (x : VF) : (s.setVf v x).launches = s.launches := rfl
@[simp] theorem State.setVf_graphs (s : State) (v : Nat) (x : VF) : (s.setVf v x).graphs = s.graphs := rfl
@[simp] theorem State.setVf_runs (s : State) (v : Nat) (x : VF) : (s.setVf v x).runs = s.runs := rfl
@[simp] theorem State.setVf_copies (s : State) (v : Nat) (x : VF) : (s.setVf v x).copies = s.copies := rfl
@[simp] theorem State.setVf_nextId (s : State) (v : Nat) (x : VF) : (s.setVf v x).nextId = s.nextId := rfl
@[simp] theorem State.setVf_mem (s : State) (v : Nat) (x : VF) : (s.setVf v x).mem = s.mem := rfl
@[simp] theorem State.setVf_writes (s : State) (v : Nat) (x : VF) : (s.setVf v x).writes = s.writes := rfl
@[simp] theorem State.setVf_log (s : State) (v : Nat) (x : VF) : (s.setVf v x).log = s.log := rfl
@[simp] theorem State.setVf_host (s : State) (v : Nat) (x : VF) : (s.setVf v x).host = s.host := rfl
@[simp] theorem State.setVf_releases (s : State) (v : Nat) (x : VF) : (s.setVf v x).releases = s.releases := rfl
@[simp] theorem State.setVf_units (s : State) (v : Nat) (x : VF) : (s.setVf v x).units = s.units := rfl
@[simp] theorem State.setVf_firmware (s : State) (v : Nat) (x : VF) : (s.setVf v x).firmware = s.firmware := rfl
@[simp] theorem State.setVf_streams (s : State) (v : Nat) (x : VF) : (s.setVf v x).streams = s.streams := rfl
@[simp] theorem State.setVf_ports (s : State) (v : Nat) (x : VF) : (s.setVf v x).ports = s.ports := rfl
@[simp] theorem State.setVf_portIn (s : State) (v : Nat) (x : VF) : (s.setVf v x).portIn = s.portIn := rfl
@[simp] theorem State.setVf_portOut (s : State) (v : Nat) (x : VF) : (s.setVf v x).portOut = s.portOut := rfl
@[simp] theorem State.setVf_boot (s : State) (v : Nat) (x : VF) : (s.setVf v x).boot = s.boot := rfl
@[simp] theorem State.setVf_pkg (s : State) (v : Nat) (x : VF) : (s.setVf v x).pkg = s.pkg := rfl
@[simp] theorem State.setVf_worlds (s : State) (v : Nat) (x : VF) : (s.setVf v x).worlds = s.worlds := rfl
@[simp] theorem State.setVf_seals (s : State) (v : Nat) (x : VF) : (s.setVf v x).seals = s.seals := rfl
@[simp] theorem State.setVf_out (s : State) (v : Nat) (x : VF) : (s.setVf v x).out = s.out := rfl

/-! ## updVf -/

@[simp] theorem State.updVf_now (s : State) (v : Nat) (f : VF → VF) : (s.updVf v f).now = s.now := rfl
@[simp] theorem State.updVf_time (s : State) (v : Nat) (f : VF → VF) : (s.updVf v f).time = s.time := rfl
@[simp] theorem State.updVf_inputs (s : State) (v : Nat) (f : VF → VF) : (s.updVf v f).inputs = s.inputs := rfl
@[simp] theorem State.updVf_delays (s : State) (v : Nat) (f : VF → VF) : (s.updVf v f).delays = s.delays := rfl
@[simp] theorem State.updVf_drawn (s : State) (v : Nat) (f : VF → VF) : (s.updVf v f).drawn = s.drawn := rfl
@[simp] theorem State.updVf_cur (s : State) (v : Nat) (f : VF → VF) : (s.updVf v f).cur = s.cur := rfl
@[simp] theorem State.updVf_cores (s : State) (v : Nat) (f : VF → VF) : (s.updVf v f).cores = s.cores := rfl
@[simp] theorem State.updVf_dies (s : State) (v : Nat) (f : VF → VF) : (s.updVf v f).dies = s.dies := rfl
@[simp] theorem State.updVf_queues (s : State) (v : Nat) (f : VF → VF) : (s.updVf v f).queues = s.queues := rfl
@[simp] theorem State.updVf_launches (s : State) (v : Nat) (f : VF → VF) : (s.updVf v f).launches = s.launches := rfl
@[simp] theorem State.updVf_graphs (s : State) (v : Nat) (f : VF → VF) : (s.updVf v f).graphs = s.graphs := rfl
@[simp] theorem State.updVf_runs (s : State) (v : Nat) (f : VF → VF) : (s.updVf v f).runs = s.runs := rfl
@[simp] theorem State.updVf_copies (s : State) (v : Nat) (f : VF → VF) : (s.updVf v f).copies = s.copies := rfl
@[simp] theorem State.updVf_nextId (s : State) (v : Nat) (f : VF → VF) : (s.updVf v f).nextId = s.nextId := rfl
@[simp] theorem State.updVf_mem (s : State) (v : Nat) (f : VF → VF) : (s.updVf v f).mem = s.mem := rfl
@[simp] theorem State.updVf_writes (s : State) (v : Nat) (f : VF → VF) : (s.updVf v f).writes = s.writes := rfl
@[simp] theorem State.updVf_log (s : State) (v : Nat) (f : VF → VF) : (s.updVf v f).log = s.log := rfl
@[simp] theorem State.updVf_host (s : State) (v : Nat) (f : VF → VF) : (s.updVf v f).host = s.host := rfl
@[simp] theorem State.updVf_releases (s : State) (v : Nat) (f : VF → VF) : (s.updVf v f).releases = s.releases := rfl
@[simp] theorem State.updVf_units (s : State) (v : Nat) (f : VF → VF) : (s.updVf v f).units = s.units := rfl
@[simp] theorem State.updVf_firmware (s : State) (v : Nat) (f : VF → VF) : (s.updVf v f).firmware = s.firmware := rfl
@[simp] theorem State.updVf_streams (s : State) (v : Nat) (f : VF → VF) : (s.updVf v f).streams = s.streams := rfl
@[simp] theorem State.updVf_ports (s : State) (v : Nat) (f : VF → VF) : (s.updVf v f).ports = s.ports := rfl
@[simp] theorem State.updVf_portIn (s : State) (v : Nat) (f : VF → VF) : (s.updVf v f).portIn = s.portIn := rfl
@[simp] theorem State.updVf_portOut (s : State) (v : Nat) (f : VF → VF) : (s.updVf v f).portOut = s.portOut := rfl
@[simp] theorem State.updVf_boot (s : State) (v : Nat) (f : VF → VF) : (s.updVf v f).boot = s.boot := rfl
@[simp] theorem State.updVf_pkg (s : State) (v : Nat) (f : VF → VF) : (s.updVf v f).pkg = s.pkg := rfl
@[simp] theorem State.updVf_worlds (s : State) (v : Nat) (f : VF → VF) : (s.updVf v f).worlds = s.worlds := rfl
@[simp] theorem State.updVf_seals (s : State) (v : Nat) (f : VF → VF) : (s.updVf v f).seals = s.seals := rfl
@[simp] theorem State.updVf_out (s : State) (v : Nat) (f : VF → VF) : (s.updVf v f).out = s.out := rfl

/-! ## setLaunch -/

@[simp] theorem State.setLaunch_now (s : State) (l : Nat) (x : Launch) : (s.setLaunch l x).now = s.now := rfl
@[simp] theorem State.setLaunch_time (s : State) (l : Nat) (x : Launch) : (s.setLaunch l x).time = s.time := rfl
@[simp] theorem State.setLaunch_inputs (s : State) (l : Nat) (x : Launch) : (s.setLaunch l x).inputs = s.inputs := rfl
@[simp] theorem State.setLaunch_delays (s : State) (l : Nat) (x : Launch) : (s.setLaunch l x).delays = s.delays := rfl
@[simp] theorem State.setLaunch_drawn (s : State) (l : Nat) (x : Launch) : (s.setLaunch l x).drawn = s.drawn := rfl
@[simp] theorem State.setLaunch_cur (s : State) (l : Nat) (x : Launch) : (s.setLaunch l x).cur = s.cur := rfl
@[simp] theorem State.setLaunch_cores (s : State) (l : Nat) (x : Launch) : (s.setLaunch l x).cores = s.cores := rfl
@[simp] theorem State.setLaunch_dies (s : State) (l : Nat) (x : Launch) : (s.setLaunch l x).dies = s.dies := rfl
@[simp] theorem State.setLaunch_queues (s : State) (l : Nat) (x : Launch) : (s.setLaunch l x).queues = s.queues := rfl
@[simp] theorem State.setLaunch_graphs (s : State) (l : Nat) (x : Launch) : (s.setLaunch l x).graphs = s.graphs := rfl
@[simp] theorem State.setLaunch_runs (s : State) (l : Nat) (x : Launch) : (s.setLaunch l x).runs = s.runs := rfl
@[simp] theorem State.setLaunch_copies (s : State) (l : Nat) (x : Launch) : (s.setLaunch l x).copies = s.copies := rfl
@[simp] theorem State.setLaunch_nextId (s : State) (l : Nat) (x : Launch) : (s.setLaunch l x).nextId = s.nextId := rfl
@[simp] theorem State.setLaunch_vfs (s : State) (l : Nat) (x : Launch) : (s.setLaunch l x).vfs = s.vfs := rfl
@[simp] theorem State.setLaunch_mem (s : State) (l : Nat) (x : Launch) : (s.setLaunch l x).mem = s.mem := rfl
@[simp] theorem State.setLaunch_writes (s : State) (l : Nat) (x : Launch) : (s.setLaunch l x).writes = s.writes := rfl
@[simp] theorem State.setLaunch_log (s : State) (l : Nat) (x : Launch) : (s.setLaunch l x).log = s.log := rfl
@[simp] theorem State.setLaunch_host (s : State) (l : Nat) (x : Launch) : (s.setLaunch l x).host = s.host := rfl
@[simp] theorem State.setLaunch_releases (s : State) (l : Nat) (x : Launch) : (s.setLaunch l x).releases = s.releases := rfl
@[simp] theorem State.setLaunch_units (s : State) (l : Nat) (x : Launch) : (s.setLaunch l x).units = s.units := rfl
@[simp] theorem State.setLaunch_firmware (s : State) (l : Nat) (x : Launch) : (s.setLaunch l x).firmware = s.firmware := rfl
@[simp] theorem State.setLaunch_streams (s : State) (l : Nat) (x : Launch) : (s.setLaunch l x).streams = s.streams := rfl
@[simp] theorem State.setLaunch_ports (s : State) (l : Nat) (x : Launch) : (s.setLaunch l x).ports = s.ports := rfl
@[simp] theorem State.setLaunch_portIn (s : State) (l : Nat) (x : Launch) : (s.setLaunch l x).portIn = s.portIn := rfl
@[simp] theorem State.setLaunch_portOut (s : State) (l : Nat) (x : Launch) : (s.setLaunch l x).portOut = s.portOut := rfl
@[simp] theorem State.setLaunch_boot (s : State) (l : Nat) (x : Launch) : (s.setLaunch l x).boot = s.boot := rfl
@[simp] theorem State.setLaunch_pkg (s : State) (l : Nat) (x : Launch) : (s.setLaunch l x).pkg = s.pkg := rfl
@[simp] theorem State.setLaunch_worlds (s : State) (l : Nat) (x : Launch) : (s.setLaunch l x).worlds = s.worlds := rfl
@[simp] theorem State.setLaunch_seals (s : State) (l : Nat) (x : Launch) : (s.setLaunch l x).seals = s.seals := rfl
@[simp] theorem State.setLaunch_out (s : State) (l : Nat) (x : Launch) : (s.setLaunch l x).out = s.out := rfl

/-! ## updLaunch -/

@[simp] theorem State.updLaunch_now (s : State) (l : Nat) (f : Launch → Launch) : (s.updLaunch l f).now = s.now := by
  unfold State.updLaunch; split <;> rfl
@[simp] theorem State.updLaunch_time (s : State) (l : Nat) (f : Launch → Launch) : (s.updLaunch l f).time = s.time := by
  unfold State.updLaunch; split <;> rfl
@[simp] theorem State.updLaunch_inputs (s : State) (l : Nat) (f : Launch → Launch) : (s.updLaunch l f).inputs = s.inputs := by
  unfold State.updLaunch; split <;> rfl
@[simp] theorem State.updLaunch_delays (s : State) (l : Nat) (f : Launch → Launch) : (s.updLaunch l f).delays = s.delays := by
  unfold State.updLaunch; split <;> rfl
@[simp] theorem State.updLaunch_drawn (s : State) (l : Nat) (f : Launch → Launch) : (s.updLaunch l f).drawn = s.drawn := by
  unfold State.updLaunch; split <;> rfl
@[simp] theorem State.updLaunch_cur (s : State) (l : Nat) (f : Launch → Launch) : (s.updLaunch l f).cur = s.cur := by
  unfold State.updLaunch; split <;> rfl
@[simp] theorem State.updLaunch_cores (s : State) (l : Nat) (f : Launch → Launch) : (s.updLaunch l f).cores = s.cores := by
  unfold State.updLaunch; split <;> rfl
@[simp] theorem State.updLaunch_dies (s : State) (l : Nat) (f : Launch → Launch) : (s.updLaunch l f).dies = s.dies := by
  unfold State.updLaunch; split <;> rfl
@[simp] theorem State.updLaunch_queues (s : State) (l : Nat) (f : Launch → Launch) : (s.updLaunch l f).queues = s.queues := by
  unfold State.updLaunch; split <;> rfl
@[simp] theorem State.updLaunch_graphs (s : State) (l : Nat) (f : Launch → Launch) : (s.updLaunch l f).graphs = s.graphs := by
  unfold State.updLaunch; split <;> rfl
@[simp] theorem State.updLaunch_runs (s : State) (l : Nat) (f : Launch → Launch) : (s.updLaunch l f).runs = s.runs := by
  unfold State.updLaunch; split <;> rfl
@[simp] theorem State.updLaunch_copies (s : State) (l : Nat) (f : Launch → Launch) : (s.updLaunch l f).copies = s.copies := by
  unfold State.updLaunch; split <;> rfl
@[simp] theorem State.updLaunch_nextId (s : State) (l : Nat) (f : Launch → Launch) : (s.updLaunch l f).nextId = s.nextId := by
  unfold State.updLaunch; split <;> rfl
@[simp] theorem State.updLaunch_vfs (s : State) (l : Nat) (f : Launch → Launch) : (s.updLaunch l f).vfs = s.vfs := by
  unfold State.updLaunch; split <;> rfl
@[simp] theorem State.updLaunch_mem (s : State) (l : Nat) (f : Launch → Launch) : (s.updLaunch l f).mem = s.mem := by
  unfold State.updLaunch; split <;> rfl
@[simp] theorem State.updLaunch_writes (s : State) (l : Nat) (f : Launch → Launch) : (s.updLaunch l f).writes = s.writes := by
  unfold State.updLaunch; split <;> rfl
@[simp] theorem State.updLaunch_log (s : State) (l : Nat) (f : Launch → Launch) : (s.updLaunch l f).log = s.log := by
  unfold State.updLaunch; split <;> rfl
@[simp] theorem State.updLaunch_host (s : State) (l : Nat) (f : Launch → Launch) : (s.updLaunch l f).host = s.host := by
  unfold State.updLaunch; split <;> rfl
@[simp] theorem State.updLaunch_releases (s : State) (l : Nat) (f : Launch → Launch) : (s.updLaunch l f).releases = s.releases := by
  unfold State.updLaunch; split <;> rfl
@[simp] theorem State.updLaunch_units (s : State) (l : Nat) (f : Launch → Launch) : (s.updLaunch l f).units = s.units := by
  unfold State.updLaunch; split <;> rfl
@[simp] theorem State.updLaunch_firmware (s : State) (l : Nat) (f : Launch → Launch) : (s.updLaunch l f).firmware = s.firmware := by
  unfold State.updLaunch; split <;> rfl
@[simp] theorem State.updLaunch_streams (s : State) (l : Nat) (f : Launch → Launch) : (s.updLaunch l f).streams = s.streams := by
  unfold State.updLaunch; split <;> rfl
@[simp] theorem State.updLaunch_ports (s : State) (l : Nat) (f : Launch → Launch) : (s.updLaunch l f).ports = s.ports := by
  unfold State.updLaunch; split <;> rfl
@[simp] theorem State.updLaunch_portIn (s : State) (l : Nat) (f : Launch → Launch) : (s.updLaunch l f).portIn = s.portIn := by
  unfold State.updLaunch; split <;> rfl
@[simp] theorem State.updLaunch_portOut (s : State) (l : Nat) (f : Launch → Launch) : (s.updLaunch l f).portOut = s.portOut := by
  unfold State.updLaunch; split <;> rfl
@[simp] theorem State.updLaunch_boot (s : State) (l : Nat) (f : Launch → Launch) : (s.updLaunch l f).boot = s.boot := by
  unfold State.updLaunch; split <;> rfl
@[simp] theorem State.updLaunch_pkg (s : State) (l : Nat) (f : Launch → Launch) : (s.updLaunch l f).pkg = s.pkg := by
  unfold State.updLaunch; split <;> rfl
@[simp] theorem State.updLaunch_worlds (s : State) (l : Nat) (f : Launch → Launch) : (s.updLaunch l f).worlds = s.worlds := by
  unfold State.updLaunch; split <;> rfl
@[simp] theorem State.updLaunch_seals (s : State) (l : Nat) (f : Launch → Launch) : (s.updLaunch l f).seals = s.seals := by
  unfold State.updLaunch; split <;> rfl
@[simp] theorem State.updLaunch_out (s : State) (l : Nat) (f : Launch → Launch) : (s.updLaunch l f).out = s.out := by
  unfold State.updLaunch; split <;> rfl

/-! ## draw and fresh -/

@[simp] theorem State.draw_now (s : State) : s.draw.2.now = s.now := by
  unfold State.draw; split <;> rfl
@[simp] theorem State.fresh_now (s : State) : s.fresh.2.now = s.now := rfl
@[simp] theorem State.draw_time (s : State) : s.draw.2.time = s.time := by
  unfold State.draw; split <;> rfl
@[simp] theorem State.fresh_time (s : State) : s.fresh.2.time = s.time := rfl
@[simp] theorem State.draw_inputs (s : State) : s.draw.2.inputs = s.inputs := by
  unfold State.draw; split <;> rfl
@[simp] theorem State.fresh_inputs (s : State) : s.fresh.2.inputs = s.inputs := rfl
@[simp] theorem State.fresh_delays (s : State) : s.fresh.2.delays = s.delays := rfl
@[simp] theorem State.fresh_drawn (s : State) : s.fresh.2.drawn = s.drawn := rfl
@[simp] theorem State.draw_cur (s : State) : s.draw.2.cur = s.cur := by
  unfold State.draw; split <;> rfl
@[simp] theorem State.fresh_cur (s : State) : s.fresh.2.cur = s.cur := rfl
@[simp] theorem State.draw_cores (s : State) : s.draw.2.cores = s.cores := by
  unfold State.draw; split <;> rfl
@[simp] theorem State.fresh_cores (s : State) : s.fresh.2.cores = s.cores := rfl
@[simp] theorem State.draw_dies (s : State) : s.draw.2.dies = s.dies := by
  unfold State.draw; split <;> rfl
@[simp] theorem State.fresh_dies (s : State) : s.fresh.2.dies = s.dies := rfl
@[simp] theorem State.draw_queues (s : State) : s.draw.2.queues = s.queues := by
  unfold State.draw; split <;> rfl
@[simp] theorem State.fresh_queues (s : State) : s.fresh.2.queues = s.queues := rfl
@[simp] theorem State.draw_launches (s : State) : s.draw.2.launches = s.launches := by
  unfold State.draw; split <;> rfl
@[simp] theorem State.fresh_launches (s : State) : s.fresh.2.launches = s.launches := rfl
@[simp] theorem State.draw_graphs (s : State) : s.draw.2.graphs = s.graphs := by
  unfold State.draw; split <;> rfl
@[simp] theorem State.fresh_graphs (s : State) : s.fresh.2.graphs = s.graphs := rfl
@[simp] theorem State.draw_runs (s : State) : s.draw.2.runs = s.runs := by
  unfold State.draw; split <;> rfl
@[simp] theorem State.fresh_runs (s : State) : s.fresh.2.runs = s.runs := rfl
@[simp] theorem State.draw_copies (s : State) : s.draw.2.copies = s.copies := by
  unfold State.draw; split <;> rfl
@[simp] theorem State.fresh_copies (s : State) : s.fresh.2.copies = s.copies := rfl
@[simp] theorem State.draw_nextId (s : State) : s.draw.2.nextId = s.nextId := by
  unfold State.draw; split <;> rfl
@[simp] theorem State.draw_vfs (s : State) : s.draw.2.vfs = s.vfs := by
  unfold State.draw; split <;> rfl
@[simp] theorem State.fresh_vfs (s : State) : s.fresh.2.vfs = s.vfs := rfl
@[simp] theorem State.draw_mem (s : State) : s.draw.2.mem = s.mem := by
  unfold State.draw; split <;> rfl
@[simp] theorem State.fresh_mem (s : State) : s.fresh.2.mem = s.mem := rfl
@[simp] theorem State.draw_writes (s : State) : s.draw.2.writes = s.writes := by
  unfold State.draw; split <;> rfl
@[simp] theorem State.fresh_writes (s : State) : s.fresh.2.writes = s.writes := rfl
@[simp] theorem State.draw_log (s : State) : s.draw.2.log = s.log := by
  unfold State.draw; split <;> rfl
@[simp] theorem State.fresh_log (s : State) : s.fresh.2.log = s.log := rfl
@[simp] theorem State.draw_host (s : State) : s.draw.2.host = s.host := by
  unfold State.draw; split <;> rfl
@[simp] theorem State.fresh_host (s : State) : s.fresh.2.host = s.host := rfl
@[simp] theorem State.draw_releases (s : State) : s.draw.2.releases = s.releases := by
  unfold State.draw; split <;> rfl
@[simp] theorem State.fresh_releases (s : State) : s.fresh.2.releases = s.releases := rfl
@[simp] theorem State.draw_units (s : State) : s.draw.2.units = s.units := by
  unfold State.draw; split <;> rfl
@[simp] theorem State.fresh_units (s : State) : s.fresh.2.units = s.units := rfl
@[simp] theorem State.draw_firmware (s : State) : s.draw.2.firmware = s.firmware := by
  unfold State.draw; split <;> rfl
@[simp] theorem State.fresh_firmware (s : State) : s.fresh.2.firmware = s.firmware := rfl
@[simp] theorem State.draw_streams (s : State) : s.draw.2.streams = s.streams := by
  unfold State.draw; split <;> rfl
@[simp] theorem State.fresh_streams (s : State) : s.fresh.2.streams = s.streams := rfl
@[simp] theorem State.draw_ports (s : State) : s.draw.2.ports = s.ports := by
  unfold State.draw; split <;> rfl
@[simp] theorem State.draw_portIn (s : State) : s.draw.2.portIn = s.portIn := by
  unfold State.draw; split <;> rfl
@[simp] theorem State.draw_portOut (s : State) : s.draw.2.portOut = s.portOut := by
  unfold State.draw; split <;> rfl
@[simp] theorem State.fresh_ports (s : State) : s.fresh.2.ports = s.ports := rfl
@[simp] theorem State.fresh_portIn (s : State) : s.fresh.2.portIn = s.portIn := rfl
@[simp] theorem State.fresh_portOut (s : State) : s.fresh.2.portOut = s.portOut := rfl
@[simp] theorem State.draw_boot (s : State) : s.draw.2.boot = s.boot := by
  unfold State.draw; split <;> rfl
@[simp] theorem State.fresh_boot (s : State) : s.fresh.2.boot = s.boot := rfl
@[simp] theorem State.draw_pkg (s : State) : s.draw.2.pkg = s.pkg := by
  unfold State.draw; split <;> rfl
@[simp] theorem State.fresh_pkg (s : State) : s.fresh.2.pkg = s.pkg := rfl
@[simp] theorem State.draw_worlds (s : State) : s.draw.2.worlds = s.worlds := by
  unfold State.draw; split <;> rfl
@[simp] theorem State.fresh_worlds (s : State) : s.fresh.2.worlds = s.worlds := rfl
@[simp] theorem State.draw_seals (s : State) : s.draw.2.seals = s.seals := by
  unfold State.draw; split <;> rfl
@[simp] theorem State.fresh_seals (s : State) : s.fresh.2.seals = s.seals := rfl
@[simp] theorem State.draw_out (s : State) : s.draw.2.out = s.out := by
  unfold State.draw; split <;> rfl
@[simp] theorem State.fresh_out (s : State) : s.fresh.2.out = s.out := rfl

/-! ## Records after an update -/

@[simp] theorem State.core_setCore_self (s : State) (n : Nat) (c : Core) : (s.setCore n c).core n = c := by
  simp [State.core, State.setCore]

theorem State.core_setCore_of_ne (s : State) (n m : Nat) (c : Core) (h : m ≠ n) : (s.setCore n c).core m = s.core m := by
  simp [State.core, State.setCore, getD_put_of_ne _ _ _ _ _ h]

@[simp] theorem State.core_updCore_self (s : State) (n : Nat) (f : Core → Core) : (s.updCore n f).core n = f (s.core n) := by
  simp [State.updCore]

theorem State.core_updCore_of_ne (s : State) (n m : Nat) (f : Core → Core) (h : m ≠ n) :
    (s.updCore n f).core m = s.core m := by
  simp [State.updCore, State.core_setCore_of_ne _ _ _ _ h]

@[simp] theorem State.core_setDie (s : State) (d n : Nat) (x : Die) : (s.setDie d x).core n = s.core n := rfl
@[simp] theorem State.core_updDie (s : State) (d n : Nat) (f : Die → Die) : (s.updDie d f).core n = s.core n := rfl
@[simp] theorem State.core_setVf (s : State) (v n : Nat) (x : VF) : (s.setVf v x).core n = s.core n := rfl
@[simp] theorem State.core_updVf (s : State) (v n : Nat) (f : VF → VF) : (s.updVf v f).core n = s.core n := rfl
@[simp] theorem State.core_setLaunch (s : State) (l n : Nat) (x : Launch) : (s.setLaunch l x).core n = s.core n := rfl

theorem State.die_setDie_self (s : State) (d : Nat) (x : Die) (h : d < 4) : (s.setDie d x).die d = x := by
  simp [State.die, State.setDie, vget_vset_self _ _ _ _ h]

theorem State.die_setDie_of_ne (s : State) (d e : Nat) (x : Die) (h : e ≠ d) : (s.setDie d x).die e = s.die e := by
  simp [State.die, State.setDie, vget_vset_of_ne _ _ _ _ _ h]

@[simp] theorem State.die_setCore (s : State) (n d : Nat) (c : Core) : (s.setCore n c).die d = s.die d := rfl
@[simp] theorem State.die_updCore (s : State) (n d : Nat) (f : Core → Core) : (s.updCore n f).die d = s.die d := rfl
@[simp] theorem State.die_setVf (s : State) (v d : Nat) (x : VF) : (s.setVf v x).die d = s.die d := rfl
@[simp] theorem State.die_updVf (s : State) (v d : Nat) (f : VF → VF) : (s.updVf v f).die d = s.die d := rfl
@[simp] theorem State.die_setLaunch (s : State) (l d : Nat) (x : Launch) : (s.setLaunch l x).die d = s.die d := rfl

theorem State.vf_setVf_self (s : State) (v : Nat) (x : VF) (h : v < 4) : (s.setVf v x).vf v = x := by
  simp [State.vf, State.setVf, vget_vset_self _ _ _ _ h]

theorem State.vf_setVf_of_ne (s : State) (v w : Nat) (x : VF) (h : w ≠ v) : (s.setVf v x).vf w = s.vf w := by
  simp [State.vf, State.setVf, vget_vset_of_ne _ _ _ _ _ h]

@[simp] theorem State.vf_setCore (s : State) (n v : Nat) (c : Core) : (s.setCore n c).vf v = s.vf v := rfl
@[simp] theorem State.vf_updCore (s : State) (n v : Nat) (f : Core → Core) : (s.updCore n f).vf v = s.vf v := rfl
@[simp] theorem State.vf_setDie (s : State) (d v : Nat) (x : Die) : (s.setDie d x).vf v = s.vf v := rfl
@[simp] theorem State.vf_updDie (s : State) (d v : Nat) (f : Die → Die) : (s.updDie d f).vf v = s.vf v := rfl
@[simp] theorem State.vf_setLaunch (s : State) (l v : Nat) (x : Launch) : (s.setLaunch l x).vf v = s.vf v := rfl

@[simp] theorem State.launch?_setLaunch_self (s : State) (l : Nat) (x : Launch) : (s.setLaunch l x).launch? l = some x := by
  simp [State.launch?, State.setLaunch]

theorem State.launch?_setLaunch_of_ne (s : State) (l k : Nat) (x : Launch) (h : k ≠ l) :
    (s.setLaunch l x).launch? k = s.launch? k := by
  simp [State.launch?, State.setLaunch, find?_put_of_ne _ _ _ _ h]

@[simp] theorem State.launch?_updCore (s : State) (n l : Nat) (f : Core → Core) : (s.updCore n f).launch? l = s.launch? l := rfl
@[simp] theorem State.launch?_setCore (s : State) (n l : Nat) (c : Core) : (s.setCore n c).launch? l = s.launch? l := rfl
@[simp] theorem State.ns_updCore (s : State) (n : Nat) (f : Core → Core) : (s.updCore n f).ns = s.ns := rfl
@[simp] theorem State.ns_setCore (s : State) (n : Nat) (c : Core) : (s.setCore n c).ns = s.ns := rfl

end Sys2Proof.Machine
end

