-- ==== Sys2Proof/Laws/Ops.lean ====
section
/-! SUPPORT. What the shared operations that stop a core, write records and write buffers can do, said once for each: the callers of these
operations cite the lemma and unfold nothing. -/

namespace Sys2Proof.Machine

/-! ## Records -/

/-- t is s but for the trace rings and for requests of debug stops: all that a record can change (R332, R333). -/
def State.Traced (s t : State) : Prop :=
  t = { s with cores := t.cores, dies := t.dies } ∧
    (∀ m, ∃ q, t.core m = { s.core m with dbg := { (s.core m).dbg with req := q } }) ∧
    ∀ d, ∃ x, t.die d = { s.die d with trace := x }

theorem State.Traced.refl (s : State) : s.Traced s := ⟨rfl, fun m => ⟨(s.core m).dbg.req, rfl⟩, fun d => ⟨(s.die d).trace, rfl⟩⟩

theorem State.Traced.trans {s t u : State} (h : s.Traced t) (k : t.Traced u) : s.Traced u := by
  refine ⟨by rw [k.1, h.1], fun m => ?_, fun d => ?_⟩
  · obtain ⟨q, e⟩ := h.2.1 m
    obtain ⟨r, f⟩ := k.2.1 m
    exact ⟨r, by rw [f, e]⟩
  · obtain ⟨x, e⟩ := h.2.2 d
    obtain ⟨y, f⟩ := k.2.2 d
    exact ⟨y, by rw [f, e]⟩

theorem State.Traced.foldl {α : Type} (f : State → α → State) (h : ∀ (s : State) (a : α), s.Traced (f s a)) (l : List α) (s : State) :
    s.Traced (l.foldl f s) := by
  induction l generalizing s with
  | nil => exact .refl s
  | cons a r ih => exact (h s a).trans (ih _)

/-- A die keeps all but its trace. -/
theorem State.updDie_traced (s : State) (d : Nat) (f : Die → Die) (h : ∀ x, ∃ y, f x = { x with trace := y }) :
    s.Traced (s.updDie d f) := by
  refine ⟨rfl, fun m => ⟨(s.core m).dbg.req, rfl⟩, fun e => ?_⟩
  by_cases he : e = d
  · subst he
    by_cases hd : e < 4
    · rw [State.updDie, State.die_setDie_self _ _ _ hd]; exact h _
    · have : (s.updDie e f).die e = s.die e := by
        simp [State.die, vget, hd]
      exact ⟨(s.die e).trace, this⟩
  · exact ⟨(s.die e).trace, by rw [State.updDie, State.die_setDie_of_ne _ _ _ _ he]⟩

/-- A trigger asks a core for a stop. -/
theorem State.triggerStop_traced (s : State) (n : Nat) : s.Traced (s.triggerStop n) := by
  refine ⟨rfl, fun m => ?_, fun d => ⟨(s.die d).trace, rfl⟩⟩
  by_cases h : m = n
  · subst h; exact ⟨_, State.core_updCore_self ..⟩
  · exact ⟨_, (State.core_updCore_of_ne _ _ _ _ h).trans rfl⟩

theorem State.trigger_traced (s : State) (d n i : Nat) (r : Line) : s.Traced (s.trigger d n i r) := by
  unfold State.trigger
  extract_lets t
  split
  · exact .refl s
  · split
    · exact s.updDie_traced d _ fun x => ⟨_, rfl⟩
    · exact s.updDie_traced d _ fun x => ⟨_, rfl⟩
    · exact s.triggerStop_traced n
    · split
      · exact State.Traced.foldl (fun (s : State) (m : Nat × Nat × Nat) => s.triggerStop m.1) (fun s m => State.triggerStop_traced s m.1) _ s
      · exact s.triggerStop_traced n
    · exact .refl s

/-- All that a record changes. -/
theorem State.emitLine_traced (s : State) (d n : Nat) (r : Line) : s.Traced (s.emitLine d n r) :=
  (s.updDie_traced d _ fun _ => ⟨_, rfl⟩).trans (State.Traced.foldl _ (fun s i => State.trigger_traced s d n i r) _ _)

theorem State.emit_traced (s : State) (n type bundle sch : Nat) (ws : List Nat) : s.Traced (s.emit n type bundle sch ws) :=
  s.emitLine_traced ..

/-! ## What a record leaves alone -/

theorem State.Traced.sameMemory {s t : State} (h : s.Traced t) : s.SameMemory t :=
  ⟨fun d => by obtain ⟨x, e⟩ := h.2.2 d; rw [e], by rw [h.1], by rw [h.1]⟩

theorem State.Traced.sameRegisters {s t : State} (h : s.Traced t) (n : Nat) : (s.core n).SameRegisters (t.core n) := by
  obtain ⟨q, e⟩ := h.2.1 n; rw [e]; simp [Core.SameRegisters]

theorem State.Traced.sameBuffers {s t : State} (h : s.Traced t) (n : Nat) : (s.core n).SameBuffers (t.core n) := by
  obtain ⟨q, e⟩ := h.2.1 n; rw [e]; simp [Core.SameBuffers]

/-! ## Deviations -/

/-- t is s but for records, and on core n for the counters of deviations, CORESTAT.DEVIATED and the hold in hand (R329, R338). -/
def State.Noted (s t : State) (n : Nat) : Prop :=
  t = { s with cores := t.cores, dies := t.dies } ∧
    (∀ m, m ≠ n → ∃ q, t.core m = { s.core m with dbg := { (s.core m).dbg with req := q } }) ∧
    (∃ v b h q, t.core n = { s.core n with
      regs := { (s.core n).regs with devc := v, stat := { (s.core n).regs.stat with deviated := b } }
      held := h
      dbg := { (s.core n).dbg with req := q } }) ∧
    ∀ d, ∃ x, t.die d = { s.die d with trace := x }

theorem State.Traced.noted {s t : State} (h : s.Traced t) (n : Nat) : s.Noted t n := by
  refine ⟨h.1, fun m _ => h.2.1 m, ?_, h.2.2⟩
  obtain ⟨q, e⟩ := h.2.1 n
  exact ⟨_, _, _, q, e⟩

theorem State.Noted.trans {s t u : State} {n : Nat} (h : s.Noted t n) (k : t.Noted u n) : s.Noted u n := by
  refine ⟨by rw [k.1, h.1], fun m hm => ?_, ?_, fun d => ?_⟩
  · obtain ⟨q, e⟩ := h.2.1 m hm
    obtain ⟨r, f⟩ := k.2.1 m hm
    exact ⟨r, by rw [f, e]⟩
  · obtain ⟨v, b, g, q, e⟩ := h.2.2.1
    obtain ⟨v', b', g', q', f⟩ := k.2.2.1
    exact ⟨v', b', g', q', by rw [f, e]⟩
  · obtain ⟨x, e⟩ := h.2.2.2 d
    obtain ⟨y, f⟩ := k.2.2.2 d
    exact ⟨y, by rw [f, e]⟩

theorem State.Noted.sameMemory {s t : State} {n : Nat} (h : s.Noted t n) : s.SameMemory t :=
  ⟨fun d => by obtain ⟨x, e⟩ := h.2.2.2 d; rw [e], by rw [h.1], by rw [h.1]⟩

theorem State.deviation_noted (s : State) (n cause lost bundle sch obj addr : Nat) :
    s.Noted (s.deviation n cause lost bundle sch obj addr) n := by
  unfold State.deviation
  split
  · exact (State.Traced.refl s).noted n
  · refine State.Noted.trans (t := s.updCore n (fun c => c.addDev cause lost)) ?_ ((State.emit_traced ..).noted n)
    refine ⟨rfl, fun m hm => ⟨_, (State.core_updCore_of_ne _ _ _ _ hm).trans rfl⟩, ⟨_, _, _, _, State.core_updCore_self ..⟩,
      fun d => ⟨_, rfl⟩⟩

theorem State.flushHeld_noted (s : State) (n bundle : Nat) : s.Noted (s.flushHeld n bundle) n := by
  unfold State.flushHeld
  extract_lets c h sch s0 s1 s2 s3 s4
  split
  · exact (State.Traced.refl s).noted n
  · have e0 : s.Noted s0 n := ⟨rfl, fun m hm => ⟨_, (State.core_updCore_of_ne _ _ _ _ hm).trans rfl⟩,
      ⟨_, _, _, _, State.core_updCore_self ..⟩, fun d => ⟨_, rfl⟩⟩
    exact ((((e0.trans (State.deviation_noted ..)).trans (State.deviation_noted ..)).trans (State.deviation_noted ..)).trans
      (State.deviation_noted ..)).trans (State.deviation_noted ..)

theorem State.flushHeld_of_zero (s : State) (n bundle : Nat) (h : (s.core n).held = Held.zero) : s.flushHeld n bundle = s := by
  simp [State.flushHeld, h]

/-! ## Stopping a core -/

/-- A core that begins to stop: its records are written, and then it drains with the reason of its stop (R47, R118, R329). -/
theorem State.beginStop_eq (s : State) (n : Nat) (why : StopWhy) : ∃ z, s.Noted z n ∧ s.beginStop n why = z.updCore n (fun c => { c with
    run := .draining
    stop := some why
    dbg := c.dbg.atStop why
    istore := { c.istore with captured := [] } }) :=
  ⟨_, s.flushHeld_noted n _, rfl⟩

/-- Taking a trap: what it writes on its core, and what it leaves alone (R35, R47, R48). -/
theorem State.takeTrap_spec (s : State) (n : Nat) (t : TrapRec) :
    ((s.takeTrap n t).core n).run = .draining ∧ ((s.takeTrap n t).core n).stop = some (.trap t) ∧
      ((s.takeTrap n t).core n).regs.pc = (s.core n).regs.pc ∧ ((s.takeTrap n t).core n).regs.loops = (s.core n).regs.loops ∧
      (s.core n).SameRegisters ((s.takeTrap n t).core n) ∧ (s.core n).SameBuffers ((s.takeTrap n t).core n) ∧
      ((s.takeTrap n t).core n).results = (s.core n).results ∧ s.SameMemory (s.takeTrap n t) ∧
      ((s.core n).held = Held.zero → ∀ m, m ≠ n → (s.takeTrap n t).core m = s.core m) := by
  obtain ⟨z, hz, e⟩ := s.beginStop_eq n (.trap t)
  have e' : s.takeTrap n t = _ := e
  obtain ⟨v, b, h, q, f⟩ := hz.2.2.1
  have g := State.core_updCore_self z n (fun c => { c with
    run := .draining
    stop := some (.trap t)
    dbg := c.dbg.atStop (.trap t)
    istore := { c.istore with captured := [] } })
  refine ⟨?_, ?_, ?_, ?_, ?_, ?_, ?_, ?_, ?_⟩
  · rw [e', g]
  · rw [e', g]
  · rw [e', g, f]
  · rw [e', g, f]
  · rw [e', g, f]; simp [Core.SameRegisters]
  · rw [e', g, f]; simp [Core.SameBuffers]
  · rw [e', g, f]
  · rw [e']
    refine ⟨fun d => ?_, ?_, ?_⟩
    · obtain ⟨x, g⟩ := hz.2.2.2 d; rw [State.die_updCore, g]
    · rw [State.updCore_mem, hz.1]
    · rw [State.updCore_host, hz.1]
  · intro hh m hm
    unfold State.takeTrap State.beginStop
    rw [State.flushHeld_of_zero _ _ _ hh]
    exact State.core_updCore_of_ne _ _ _ _ hm

/-- The trap registers after the drain (R35). -/
theorem State.writeTrap_spec (s : State) (n : Nat) (t : TrapRec) :
    ((s.writeTrap n t).core n).trappc = BitVec.ofNat 64 (t.index % 2 ^ 24) ∧ ((s.writeTrap n t).core n).trapinfo = t.info ∧
      ((s.writeTrap n t).core n).trapaddr = t.addr ∧ ((s.writeTrap n t).core n).run = .stopped ∧
      ((s.writeTrap n t).core n).regs = { (s.core n).regs with pc := BitVec.ofNat 24 t.index } ∧
      (s.core n).SameBuffers ((s.writeTrap n t).core n) ∧ s.SameMemory (s.writeTrap n t) := by
  let c := s.core n
  let z := s.setCore n { c with
    trappc := BitVec.ofNat 64 (t.index % 2 ^ 24)
    trapinfo := t.info
    trapaddr := t.addr
    regs := { c.regs with pc := BitVec.ofNat 24 t.index }
    run := .stopped
    stopAt := s.ns }
  have h : z.Traced (s.writeTrap n t) := State.emit_traced z n 7 t.index c.schedule [t.info.toNat, t.addr.toNat, c.regs.cycle]
  obtain ⟨q, e⟩ := h.2.1 n
  rw [e, State.core_setCore_self]
  exact ⟨rfl, rfl, rfl, rfl, rfl, ⟨rfl, rfl, rfl⟩, h.sameMemory⟩

/-! ## Writing a buffer -/

/-- t is s but for records and, on core n, for its locket and CORESTAT (R320, R321). -/
def State.Journaled (s t : State) (n : Nat) : Prop :=
  t = { s with cores := t.cores, dies := t.dies } ∧
    (∀ m, m ≠ n → ∃ q, t.core m = { s.core m with dbg := { (s.core m).dbg with req := q } }) ∧
    (∃ k st q, t.core n = { s.core n with
      regs := { (s.core n).regs with stat := st }
      locket := k
      dbg := { (s.core n).dbg with req := q } }) ∧
    ∀ d, ∃ x, t.die d = { s.die d with trace := x }

theorem State.Traced.journaled {s t : State} (h : s.Traced t) (n : Nat) : s.Journaled t n := by
  refine ⟨h.1, fun m _ => h.2.1 m, ?_, h.2.2⟩
  obtain ⟨q, e⟩ := h.2.1 n
  exact ⟨_, _, q, e⟩

theorem State.Journaled.trans {s t u : State} {n : Nat} (h : s.Journaled t n) (k : t.Journaled u n) : s.Journaled u n := by
  refine ⟨by rw [k.1, h.1], fun m hm => ?_, ?_, fun d => ?_⟩
  · obtain ⟨q, e⟩ := h.2.1 m hm
    obtain ⟨r, f⟩ := k.2.1 m hm
    exact ⟨r, by rw [f, e]⟩
  · obtain ⟨l, st, q, e⟩ := h.2.2.1
    obtain ⟨l', st', q', f⟩ := k.2.2.1
    exact ⟨l', st', q', by rw [f, e]⟩
  · obtain ⟨x, e⟩ := h.2.2.2 d
    obtain ⟨y, f⟩ := k.2.2.2 d
    exact ⟨y, by rw [f, e]⟩

theorem State.Journaled.foldl {α : Type} {n : Nat} (f : State → α → State) (h : ∀ (s : State) (a : α), s.Journaled (f s a) n) (l : List α) (s : State) :
    s.Journaled (l.foldl f s) n := by
  induction l generalizing s with
  | nil => exact (State.Traced.refl s).journaled n
  | cons a r ih => exact (h s a).trans (ih _)

theorem State.Journaled.sameMemory {s t : State} {n : Nat} (h : s.Journaled t n) : s.SameMemory t :=
  ⟨fun d => by obtain ⟨x, e⟩ := h.2.2.2 d; rw [e], by rw [h.1], by rw [h.1]⟩

/-- A core keeps all but its locket and CORESTAT. -/
theorem State.setCore_journaled (s : State) (n : Nat) (c : Core)
    (h : ∃ k st, c = { s.core n with regs := { (s.core n).regs with stat := st }, locket := k }) : s.Journaled (s.setCore n c) n := by
  obtain ⟨k, st, e⟩ := h
  refine ⟨rfl, fun m hm => ⟨_, (State.core_setCore_of_ne _ _ _ _ hm).trans rfl⟩, ⟨k, st, (s.core n).dbg.req, ?_⟩, fun d => ⟨_, rfl⟩⟩
  rw [State.core_setCore_self, e]

theorem State.journalFull_journaled (s : State) (n : Nat) (b : Buf) (off bundle sch : Nat) :
    s.Journaled (s.journalFull n b off bundle sch) n := by
  unfold State.journalFull
  extract_lets s0
  have h : s.Journaled s0 n := s.setCore_journaled n _ ⟨none, _, rfl⟩
  exact h.trans ((State.emit_traced ..).journaled n)

theorem State.journalSector_journaled (s : State) (n : Nat) (pre : Bool) (b : Buf) (sct off len val msk bundle sch : Nat) :
    s.Journaled (s.journalSector n pre b sct off len val msk bundle sch) n := by
  unfold State.journalSector
  extract_lets c
  split
  · exact (State.Traced.refl s).journaled n
  · split
    · exact (State.Traced.refl s).journaled n
    · split
      · exact State.journalFull_journaled ..
      · exact s.setCore_journaled n _ ⟨_, _, rfl⟩
    · exact s.setCore_journaled n _ ⟨_, _, rfl⟩
    · exact (State.Traced.refl s).journaled n

/-- A write of a buffer: the journal first, and then exactly its bits. -/
theorem State.bufWrite_eq (s : State) (n : Nat) (pre : Bool) (b : Buf) (off len val msk bundle sch : Nat) (h : len ≠ 0) :
    ∃ z, s.Journaled z n ∧ s.bufWrite n pre b off len val msk bundle sch =
      z.updCore n (fun c => c.setBuf b ((c.buf b).writeBits off len val msk)) := by
  unfold State.bufWrite
  rw [if_neg h]
  exact ⟨_, State.Journaled.foldl _ (fun s i => State.journalSector_journaled ..) _ s, rfl⟩

theorem State.bufWrite_zero (s : State) (n : Nat) (pre : Bool) (b : Buf) (off val msk bundle sch : Nat) :
    s.bufWrite n pre b off 0 val msk bundle sch = s := rfl

@[simp] theorem Core.buf_setBuf_self (c : Core) (b : Buf) (m : Memory) : (c.setBuf b m).buf b = m := by cases b <;> rfl

theorem Core.buf_setBuf_of_ne (c : Core) (b e : Buf) (m : Memory) (h : e ≠ b) : (c.setBuf b m).buf e = c.buf e := by
  cases b <;> cases e <;> first | rfl | exact absurd rfl h

theorem Core.setBuf_sameRegisters (c : Core) (b : Buf) (m : Memory) : c.SameRegisters (c.setBuf b m) := by
  cases b <;> simp [Core.SameRegisters, Core.setBuf]

/-- What a write of a buffer does to the buffers, the registers and the memories (R212). -/
theorem State.bufWrite_spec (s : State) (n : Nat) (pre : Bool) (b : Buf) (off len val msk bundle sch : Nat) (h : len ≠ 0) :
    ((s.bufWrite n pre b off len val msk bundle sch).core n).buf b = ((s.core n).buf b).writeBits off len val msk ∧
      (∀ e, e ≠ b → ((s.bufWrite n pre b off len val msk bundle sch).core n).buf e = (s.core n).buf e) ∧
      (s.core n).SameRegisters ((s.bufWrite n pre b off len val msk bundle sch).core n) ∧
      s.SameMemory (s.bufWrite n pre b off len val msk bundle sch) := by
  obtain ⟨z, hz, e⟩ := s.bufWrite_eq n pre b off len val msk bundle sch h
  obtain ⟨k, st, q, f⟩ := hz.2.2.1
  have hb : ∀ x, (z.core n).buf x = (s.core n).buf x := fun x => by rw [f]; cases x <;> rfl
  rw [e]
  refine ⟨?_, fun x hx => ?_, ?_, fun d => ?_, ?_, ?_⟩
  · rw [State.core_updCore_self, Core.buf_setBuf_self, hb]
  · rw [State.core_updCore_self, Core.buf_setBuf_of_ne _ _ _ _ hx, hb]
  · rw [State.core_updCore_self, f]; cases b <;> simp [Core.SameRegisters, Core.setBuf]
  · obtain ⟨x, g⟩ := hz.2.2.2 d; rw [State.die_updCore, g]
  · rw [State.updCore_mem, hz.1]
  · rw [State.updCore_host, hz.1]

/-! ## Performs -/

/-- With nothing queued under `p` and no perform under way, a perform of `p` writes back the core as it is (R244). -/
theorem State.perform_none (s : State) (n : Nat) (p : Entry → Bool) (h1 : (s.core n).performs = [])
    (h2 : ∀ e ∈ (s.core n).queue, p e = false) : s.perform n p [] = s.setCore n (s.core n) := by
  unfold State.perform
  have h : (s.core n).queue.filter p = [] := by
    rw [List.filter_eq_nil_iff]; intro e he; simp [h2 e he]
  simp only [h, List.map_nil, List.append_nil, List.length_nil, Nat.add_zero]
  rw [h1]
  show State.runPerforms 0 _ _ = _
  unfold State.runPerforms
  rw [← h1]

theorem State.core_setCore_core (s : State) (n m : Nat) : (s.setCore n (s.core n)).core m = s.core m := by
  by_cases h : m = n
  · subst h; simp
  · exact State.core_setCore_of_ne _ _ _ _ h

/-! ## Leaving a stop -/

/-- Returning from a stop: what is written on the core, and that every other core keeps its state (R308). -/
theorem State.returnTo_spec (s : State) (n index : Nat) :
    ((s.returnTo n index).core n).run = .running ∧ ((s.returnTo n index).core n).stop = none ∧
      ((s.returnTo n index).core n).markDist = 0 ∧
      ((s.returnTo n index).core n).regs = { (s.core n).regs with pc := BitVec.ofNat 24 index } ∧
      (s.core n).SameBuffers ((s.returnTo n index).core n) ∧ s.SameElsewhere (s.returnTo n index) n := by
  unfold State.returnTo
  rw [State.core_updCore_self]
  exact ⟨rfl, rfl, rfl, rfl, ⟨rfl, rfl, rfl⟩, fun m hm => State.core_updCore_of_ne _ _ _ _ hm, fun _ => rfl, rfl, rfl⟩

end Sys2Proof.Machine
end

