-- ==== Sys2Proof/Laws/Slots.lean ====
section
/-! SUPPORT. What a slot instruction comes to: its own trap, or else its effect; and what the recording of a result does. -/

namespace Sys2Proof.Machine

/-- An instruction that raises nothing takes its effect. -/
theorem slotExec_of_clear (s : State) (i : Instr) (eff : State → State) (h : s.faultOf s.cur i = none) :
    slotExec i s eff = .next (eff s) := by
  unfold slotExec; rw [h]

/-- An instruction that raises a trap takes it. -/
theorem slotExec_of_fault (s : State) (i : Instr) (eff : State → State) (t : TrapRec) (h : s.faultOf s.cur i = some t) :
    slotExec i s eff = .next (s.takeTrap s.cur t) := by
  unfold slotExec; rw [h]

/-- A slot instruction always has a next state. -/
theorem slotExec_next (i : Instr) (s : State) (eff : State → State) : ∃ t, slotExec i s eff = .next t := by
  unfold slotExec; split <;> exact ⟨_, rfl⟩

/-- A `ct` instruction that raises nothing takes its effect and commits. -/
theorem ctExec_of_clear (s : State) (i : Instr) (eff : State → State) (h : s.faultOf s.cur i = none) :
    ctExec i s eff = .next ((eff s).advance s.cur i) := slotExec_of_clear s i _ h

/-- No unit out of service is used by an instruction that uses no unit. -/
theorem outOfService_of_no_unit (s : State) (n : Nat) (i : Instr) (hp : (s.core n).plan i = none) (hb : (s.core n).mxBanks i = [])
    (hs : sfBanks i = []) (hm : mxBusy i = 0)
    (ha : (sourcesOf i ++ destsOf i).all (fun l => l.kind != .sliceA && l.kind != .sliceB) = true)
    (hwt : (s.core n).waitBanks i = [] := by rfl) : s.outOfService n i = none := by
  have e1 : (sourcesOf i ++ destsOf i).any (fun l => l.kind == .sliceA) = false := by
    simp only [List.any_eq_false]; intro l hl; have := List.all_eq_true.mp ha l hl; simp at this; simpa using this.1
  have e2 : (sourcesOf i ++ destsOf i).any (fun l => l.kind == .sliceB) = false := by
    simp only [List.any_eq_false]; intro l hl; have := List.all_eq_true.mp ha l hl; simp at this; simpa using this.2
  unfold State.outOfService
  simp only [hp, hb, hs, hm, hwt, e1, e2]
  simp

/-- The checks of an instruction outside the control slot, one by one. -/
theorem faultOf_of_checks (s : State) (n : Nat) (i : Instr) (sl : Slot) (h1 : slotOf i = some sl) (h2 : sl ≠ .ct)
    (hw : instrReasons i = Reasons.none) (hs : s.outOfService n i = none) (hu : (s.core n).nonUniform i = none)
    (ha : s.addressFault n i = none) : s.faultOf n i = none := by
  have e3 : s.controlFault n i = none := by
    unfold State.controlFault; rw [h1]; cases sl <;> simp at h2 ⊢
  simp [State.faultOf, State.illegalFault, h1, hw, State.serviceFault, hs, e3, State.uniformFault, hu, ha]

/-- An instruction that uses no unit, no address and no condition takes its effect. -/
theorem slotExec_plain (s : State) (i : Instr) (eff : State → State) (sl : Slot) (h1 : slotOf i = some sl) (h2 : sl ≠ .ct)
    (hw : instrReasons i = Reasons.none) (hp : ∀ c : Core, c.plan i = none) (hb : ∀ c : Core, c.mxBanks i = []) (hs : sfBanks i = [])
    (hm : mxBusy i = 0) (hn : ∀ c : Core, c.nonUniform i = none) (hk : ∀ c : Core, c.parkBad i = none)
    (ha : (sourcesOf i ++ destsOf i).all (fun l => l.kind != .sliceA && l.kind != .sliceB) = true)
    (hwt : ∀ c : Core, c.waitBanks i = [] := by intro _; rfl) : slotExec i s eff = .next (eff s) :=
  slotExec_of_clear s i eff (faultOf_of_checks s s.cur i sl h1 h2 hw (outOfService_of_no_unit s s.cur i (hp _) (hb _) hs hm ha (hwt _)) (hn _)
    (by simp [State.addressFault, hp, hk]))

/-- A `ct` instruction that meets no control condition takes its effect and commits. -/
theorem ctExec_plain (s : State) (i : Instr) (eff : State → State) (h1 : slotOf i = some .ct) (hw : instrReasons i = Reasons.none)
    (hp : ∀ c : Core, c.plan i = none) (hb : ∀ c : Core, c.mxBanks i = []) (hs : sfBanks i = []) (hm : mxBusy i = 0)
    (hn : ∀ c : Core, c.nonUniform i = none) (hk : ∀ c : Core, c.parkBad i = none)
    (ha : (sourcesOf i ++ destsOf i).all (fun l => l.kind != .sliceA && l.kind != .sliceB) = true) (hc : s.controlFault s.cur i = none)
    (hwt : ∀ c : Core, c.waitBanks i = [] := by intro _; rfl) :
    ctExec i s eff = .next ((eff s).advance s.cur i) := by
  refine ctExec_of_clear s i eff ?_
  simp [State.faultOf, State.illegalFault, h1, hw, State.serviceFault, outOfService_of_no_unit s s.cur i (hp _) (hb _) hs hm ha (hwt _), hc,
    State.uniformFault, hn, State.addressFault, hp, hk]

/-- A `ct` instruction that meets a control condition takes the trap of that condition. -/
theorem ctExec_control (s : State) (i : Instr) (eff : State → State) (t : TrapRec) (h1 : slotOf i = some .ct)
    (hw : instrReasons i = Reasons.none)
    (hp : ∀ c : Core, c.plan i = none) (hb : ∀ c : Core, c.mxBanks i = []) (hs : sfBanks i = []) (hm : mxBusy i = 0)
    (ha : (sourcesOf i ++ destsOf i).all (fun l => l.kind != .sliceA && l.kind != .sliceB) = true) (hc : s.controlFault s.cur i = some t)
    (hwt : ∀ c : Core, c.waitBanks i = [] := by intro _; rfl) :
    ctExec i s eff = .next (s.takeTrap s.cur t) := by
  refine slotExec_of_fault s i _ t ?_
  simp [State.faultOf, State.illegalFault, h1, hw, State.serviceFault, outOfService_of_no_unit s s.cur i (hp _) (hb _) hs hm ha (hwt _), hc]

/-- The commit moves the sequencer to the next bundle that R112 selects. -/
theorem advance_eq_movedTo (s : State) (i : Instr) (p : Nat) (loops : List LoopEntry) (h : (s.core s.cur).nextOf i = (some p, loops)) :
    s.advance s.cur i = s.movedTo p loops := by
  simp [State.advance, State.movedTo, State.updCore, h]

@[simp] theorem all_scalarLoc (r : BitVec 6) :
    (scalarLoc r).all (fun l => l.kind != .sliceA && l.kind != .sliceB) = true := by
  unfold scalarLoc; split <;> simp

theorem toNat_ne_zero_of_ne {w : Nat} {d : BitVec w} (h : d ≠ 0) : d.toNat ≠ 0 :=
  fun e => h (by apply BitVec.eq_of_toNat_eq; simpa using e)

/-- Recording a scalar. -/
theorem record_scalar (s : State) (slot lat : Nat) (d : BitVec 6) (v : Word) :
    s.record s.cur slot lat (.scalar d.toNat v) = s.scalarSet slot lat d v := by
  unfold State.record State.scalarSet ResVal.locs
  by_cases h : d = 0
  · subst h; rfl
  · rw [if_neg h]; simp only [toNat_ne_zero_of_ne h, if_false]; rfl

/-- Recording a condition. -/
theorem record_cond (s : State) (slot : Nat) (j : BitVec 6) (v : Bool) :
    s.record s.cur slot 1 (.cond j.toNat v) = s.condSet slot j v := rfl

/-- Recording a mask in all lanes. -/
theorem record_mask (s : State) (slot lat : Nat) (cl : Bool) (k : BitVec 6) (v : LaneMask) :
    s.record s.cur slot lat (.mask cl k.toNat v (BitVec.allOnes 256)) = s.maskSet slot lat cl k v := by
  unfold State.record State.maskSet ResVal.locs maskLoc
  by_cases h : k = 0
  · subst h; rfl
  · rw [if_neg h]; simp only [toNat_ne_zero_of_ne h, if_false]; rfl

end Sys2Proof.Machine
end

