-- ==== Sys2Proof/Laws/Control.lean ====
section
/-! SUPPORT. The control slot, constructor by constructor: the next bundle that each instruction selects, and the control condition that it
may meet. A proof about a `ct` instruction cites these and `ctExec_commits` or `ctExec_faults`, and unfolds no table over `Instr`. -/

namespace Sys2Proof.Machine

/-! ## The next bundle (R112) -/

section Next

variable (c : Core)

/-- The next bundle and the stack when the instruction itself selects nothing. -/
def Core.stepped (c : Core) : Option Nat × List LoopEntry :=
  (some (stepOn c.regs.pc.toNat c.regs.loops).1, (stepOn c.regs.pc.toNat c.regs.loops).2)

theorem nextOf_nop : c.nextOf (.nop .ct) = c.stepped := rfl
theorem nextOf_prep (j : BitVec 4) (t : BitVec 24) : c.nextOf (.prep j t) = c.stepped := rfl
theorem nextOf_br (j : BitVec 4) :
    c.nextOf (.br j) = if c.cond j.toNat then (some (c.target j.toNat).toNat, c.regs.loops) else c.stepped := rfl
theorem nextOf_brn (j : BitVec 4) :
    c.nextOf (.brn j) = if c.cond j.toNat then c.stepped else (some (c.target j.toNat).toNat, c.regs.loops) := rfl
theorem nextOf_jmp (t : BitVec 24) : c.nextOf (.jmp t) = (some t.toNat, c.regs.loops) := rfl
theorem nextOf_call (t : BitVec 24) : c.nextOf (.call t) = (some t.toNat, c.regs.loops) := rfl
theorem nextOf_calli (x : BitVec 6) (k : BitVec 8) :
    c.nextOf (.calli x k) = (some ((c.sreg x.toNat).toNat % 2 ^ 24), c.regs.loops) := rfl
theorem nextOf_ret : c.nextOf .ret = (some ((c.sreg 63).toNat % 2 ^ 24), c.regs.loops) := rfl
theorem nextOf_lexit : c.nextOf .lexit = (some (c.regs.pc.toNat + 1), c.regs.loops.tail) := rfl
theorem nextOf_pool (n : BitVec 13) : c.nextOf (.pool n) = (some (c.regs.pc.toNat + 1 + n.toNat), c.regs.loops) := rfl
theorem nextOf_loop (x : BitVec 6) (last : BitVec 24) : c.nextOf (.loop x last) =
    (some (openLoop c.regs.pc.toNat (c.sreg x.toNat).toNat last c.regs.loops).1,
      (openLoop c.regs.pc.toNat (c.sreg x.toNat).toNat last c.regs.loops).2) := rfl
theorem nextOf_loopi (n last : BitVec 24) : c.nextOf (.loopi n last) =
    (some (openLoop c.regs.pc.toNat n.toNat last c.regs.loops).1, (openLoop c.regs.pc.toNat n.toNat last c.regs.loops).2) := rfl
theorem nextOf_step (g : BitVec 4) : c.nextOf (.step g) = c.stepped := rfl
theorem nextOf_bari (k : BitVec 7) (x : BitVec 6) : c.nextOf (.bari k x) = c.stepped := rfl
theorem nextOf_bara (k : BitVec 7) (m : BitVec 8) : c.nextOf (.bara k m) = c.stepped := rfl
theorem nextOf_baraw (k : BitVec 7) (m : BitVec 8) : c.nextOf (.baraw k m) = c.stepped := rfl
theorem nextOf_barw (k : BitVec 7) : c.nextOf (.barw k) = c.stepped := rfl
theorem nextOf_fence (m : BitVec 8) : c.nextOf (.fence m) = c.stepped := rfl
theorem nextOf_txwait (x : BitVec 6) (p : BitVec 4) : c.nextOf (.txwait x p) = c.stepped := rfl
theorem nextOf_csrr (d : BitVec 6) (r : BitVec 12) : c.nextOf (.csrr d r) = c.stepped := rfl
theorem nextOf_csrw (r : BitVec 12) (x : BitVec 6) : c.nextOf (.csrw r x) = c.stepped := rfl
theorem nextOf_halt : c.nextOf .halt = (none, []) := rfl

end Next

/-! ## The control conditions (R110) -/

/-- The TARGET condition of a next bundle. -/
def targetSub (len : Nat) (nxt : Option Nat) : Option (Nat × Nat) :=
  match nxt with
  | some t => if len ≤ t then some (5, 0) else none
  | none => none

/-- The first condition that holds, TARGET last. -/
def firstSub (l : List (Bool × Nat)) (target : Option (Nat × Nat)) : Option (Nat × Nat) :=
  match l.find? (fun e => e.1) with
  | some e => some (e.2, 0)
  | none => target

/-- The LOOPEND condition of R118. -/
def loopEnd (p : Nat) (loops : List LoopEntry) (last : BitVec 24) : Bool :=
  decide (last.toNat ≤ p) || (match loops with
    | e :: _ => decide (e.last.toNat < last.toNat) || decide (p = e.last.toNat)
    | [] => false)

theorem targetSub_of_lt {len t : Nat} (h : t < len) : targetSub len (some t) = none := if_neg (Nat.not_le.mpr h)

theorem targetSub_of_le {len t : Nat} (h : len ≤ t) : targetSub len (some t) = some (5, 0) := if_pos h

@[simp] theorem targetSub_none (len : Nat) : targetSub len none = none := rfl

@[simp] theorem firstSub_nil (t : Option (Nat × Nat)) : firstSub [] t = t := rfl

@[simp] theorem firstSub_true (k : Nat) (l : List (Bool × Nat)) (t : Option (Nat × Nat)) : firstSub ((true, k) :: l) t = some (k, 0) := rfl

@[simp] theorem firstSub_false (k : Nat) (l : List (Bool × Nat)) (t : Option (Nat × Nat)) : firstSub ((false, k) :: l) t = firstSub l t := rfl

section Sub

variable (s : State) (n : Nat)

/-- Instructions that meet no condition but TARGET. -/
theorem ctSub_nop : s.ctSub n (.nop .ct) = targetSub (s.imageLen n) ((s.core n).nextOf (.nop .ct)).1 := rfl
theorem ctSub_prep (j : BitVec 4) (t : BitVec 24) :
    s.ctSub n (.prep j t) = targetSub (s.imageLen n) ((s.core n).nextOf (.prep j t)).1 := rfl
theorem ctSub_br (j : BitVec 4) : s.ctSub n (.br j) = targetSub (s.imageLen n) ((s.core n).nextOf (.br j)).1 := rfl
theorem ctSub_brn (j : BitVec 4) : s.ctSub n (.brn j) = targetSub (s.imageLen n) ((s.core n).nextOf (.brn j)).1 := rfl
theorem ctSub_jmp (t : BitVec 24) : s.ctSub n (.jmp t) = targetSub (s.imageLen n) (some t.toNat) := rfl
theorem ctSub_call (t : BitVec 24) : s.ctSub n (.call t) = targetSub (s.imageLen n) (some t.toNat) := rfl
theorem ctSub_pool (k : BitVec 13) : s.ctSub n (.pool k) = targetSub (s.imageLen n) ((s.core n).nextOf (.pool k)).1 := rfl
theorem ctSub_fence (m : BitVec 8) : s.ctSub n (.fence m) = targetSub (s.imageLen n) ((s.core n).nextOf (.fence m)).1 := rfl
theorem ctSub_csrr (d : BitVec 6) (r : BitVec 12) :
    s.ctSub n (.csrr d r) = targetSub (s.imageLen n) ((s.core n).nextOf (.csrr d r)).1 := rfl
theorem ctSub_csrw (r : BitVec 12) (x : BitVec 6) :
    s.ctSub n (.csrw r x) = targetSub (s.imageLen n) ((s.core n).nextOf (.csrw r x)).1 := rfl
theorem ctSub_halt : s.ctSub n .halt = none := rfl

/-- Instructions with conditions of their own. -/
theorem ctSub_calli (x : BitVec 6) (k : BitVec 8) : s.ctSub n (.calli x k) =
    firstSub [(decide (2 ^ 24 ≤ ((s.core n).sreg x.toNat).toNat), 5),
      (decide ((match s.imageOf n with
        | some im => getD 0 im.classes ((s.core n).sreg x.toNat).toNat
        | none => 0) ≠ k.toNat), 6)]
      (targetSub (s.imageLen n) (some (((s.core n).sreg x.toNat).toNat % 2 ^ 24))) := rfl
theorem ctSub_ret : s.ctSub n .ret = firstSub [(decide (2 ^ 24 ≤ ((s.core n).sreg 63).toNat), 5)]
    (targetSub (s.imageLen n) (some (((s.core n).sreg 63).toNat % 2 ^ 24))) := rfl
theorem ctSub_loop (x : BitVec 6) (last : BitVec 24) : s.ctSub n (.loop x last) =
    firstSub [(loopEnd (s.core n).regs.pc.toNat (s.core n).regs.loops last, 3),
      (decide (2 ^ 32 ≤ ((s.core n).sreg x.toNat).toNat), 4),
      (decide (((s.core n).sreg x.toNat).toNat ≠ 0) && decide (6 ≤ (s.core n).regs.loops.length), 1)]
      (targetSub (s.imageLen n) ((s.core n).nextOf (.loop x last)).1) := rfl
theorem ctSub_loopi (t last : BitVec 24) : s.ctSub n (.loopi t last) =
    firstSub [(loopEnd (s.core n).regs.pc.toNat (s.core n).regs.loops last, 3),
      (decide (t.toNat ≠ 0) && decide (6 ≤ (s.core n).regs.loops.length), 1)]
      (targetSub (s.imageLen n) ((s.core n).nextOf (.loopi t last)).1) := rfl
theorem ctSub_lexit : s.ctSub n .lexit =
    firstSub [((s.core n).regs.loops.isEmpty, 2)] (targetSub (s.imageLen n) (some ((s.core n).regs.pc.toNat + 1))) := rfl
theorem ctSub_step (g : BitVec 4) : s.ctSub n (.step g) =
    firstSub [(!s.memberOf n g.toNat, 9)] (targetSub (s.imageLen n) (s.core n).stepped.1) := rfl
theorem ctSub_bari (k : BitVec 7) (x : BitVec 6) (l : Nat) (y : Launch) (h : s.launchOf n = some (l, y)) : s.ctSub n (.bari k x) =
    firstSub [(decide (((s.core n).sreg x.toNat).toNat = 0) || decide (y.cores.length < ((s.core n).sreg x.toNat).toNat), 10),
      ((y.clasp k.toNat).init && (decide ((y.clasp k.toNat).count ≠ ((s.core n).sreg x.toNat).toNat) ||
        decide (0 < (y.clasp k.toNat).arrived)), 10)]
      (targetSub (s.imageLen n) (s.core n).stepped.1) := by
  show (match s.launchOf n with
    | some (_, l) => _
    | none => _) = _
  rw [h]; rfl
theorem ctSub_bara (k : BitVec 7) (m : BitVec 8) (l : Nat) (y : Launch) (h : s.launchOf n = some (l, y)) : s.ctSub n (.bara k m) =
    firstSub [(!(y.clasp k.toNat).init || (((s.core n).clasp k.toNat).aval && !((s.core n).clasp k.toNat).adone), 11)]
      (targetSub (s.imageLen n) (s.core n).stepped.1) := by
  show (match s.launchOf n with
    | some (_, l) => _
    | none => _) = _
  rw [h]; rfl
theorem ctSub_baraw (k : BitVec 7) (m : BitVec 8) (l : Nat) (y : Launch) (h : s.launchOf n = some (l, y)) : s.ctSub n (.baraw k m) =
    firstSub [(!(y.clasp k.toNat).init || (((s.core n).clasp k.toNat).aval && !((s.core n).clasp k.toNat).adone), 11)]
      (targetSub (s.imageLen n) (s.core n).stepped.1) := by
  show (match s.launchOf n with
    | some (_, l) => _
    | none => _) = _
  rw [h]; rfl
theorem ctSub_barw (k : BitVec 7) (l : Nat) (y : Launch) (h : s.launchOf n = some (l, y)) : s.ctSub n (.barw k) =
    firstSub [(!(y.clasp k.toNat).init || !((s.core n).clasp k.toNat).aval, 12)]
      (targetSub (s.imageLen n) (s.core n).stepped.1) := by
  show (match s.launchOf n with
    | some (_, l) => _
    | none => _) = _
  rw [h]; rfl
theorem ctSub_txwait (x : BitVec 6) (p : BitVec 4) : s.ctSub n (.txwait x p) =
    if ((s.core n).sreg x.toNat).toNat % 16 ≠ 0 ∨ ((s.core n).sreg x.toNat).toNat < aBase ∨
        aBase + 0x80000 < ((s.core n).sreg x.toNat).toNat + 16 then some (13, ((s.core n).sreg x.toNat).toNat)
    else targetSub (s.imageLen n) (s.core n).stepped.1 := rfl

/-- The control condition of a `ct` instruction other than TRAP, as a trap. -/
theorem controlFault_of_sub (i : Instr) (h : slotOf i = some .ct) (ht : ∀ code, i ≠ .trap code) :
    s.controlFault n i = (s.ctSub n i).map (fun e => (s.core n).trapAt 3 1 e.1 e.2) := by
  unfold State.controlFault
  rw [h]
  show (match i with
    | .trap code => some ((s.core n).trapAt 4 1 code.toNat 0)
    | _ => (s.ctSub n i).map (fun (e : Nat × Nat) => (s.core n).trapAt 3 1 e.1 e.2)) = _
  split
  · exact absurd rfl (ht _)
  · rfl

end Sub

/-! ## What a `ct` instruction comes to -/

section Exec

variable (s : State)

/-- The effects of the instructions that have one beside the move of the sequencer. -/
theorem exec_prep (j : BitVec 4) (t : BitVec 24) : exec (.prep j t) s = ctExec (.prep j t) s (fun s => s.prepare s.cur j.toNat t) := rfl
theorem exec_call (t : BitVec 24) : exec (.call t) s = ctExec (.call t) s (fun s => s.link s.cur) := rfl
theorem exec_calli (x : BitVec 6) (k : BitVec 8) : exec (.calli x k) s = ctExec (.calli x k) s (fun s => s.link s.cur) := rfl
theorem exec_step (g : BitVec 4) :
    exec (.step g) s = ctExec (.step g) s (fun s => (s.beginWait s.cur (.step g.toNat)).arrive s.cur g.toNat) := rfl
theorem exec_bari (k : BitVec 7) (x : BitVec 6) :
    exec (.bari k x) s = ctExec (.bari k x) s (fun s => s.claspInit s.cur k.toNat ((s.core s.cur).sreg x.toNat).toNat) := rfl
theorem exec_bara (k : BitVec 7) (m : BitVec 8) :
    exec (.bara k m) s = ctExec (.bara k m) s (fun s => s.claspArrive s.cur k.toNat m) := rfl
theorem exec_baraw (k : BitVec 7) (m : BitVec 8) :
    exec (.baraw k m) s = ctExec (.baraw k m) s (fun s => (s.claspArrive s.cur k.toNat m).claspWait s.cur k.toNat) := rfl
theorem exec_barw (k : BitVec 7) : exec (.barw k) s = ctExec (.barw k) s (fun s => s.claspWait s.cur k.toNat) := rfl
theorem exec_fence (m : BitVec 8) :
    exec (.fence m) s = ctExec (.fence m) s (fun s => if m = 0 then s else (s.perform s.cur (inColours m) []).closeWin s.cur) := rfl
theorem exec_txwait (x : BitVec 6) (p : BitVec 4) :
    exec (.txwait x p) s = ctExec (.txwait x p) s (fun s => s.txWait s.cur ((s.core s.cur).sreg x.toNat).toNat p.toNat) := rfl
theorem exec_halt : exec .halt s = ctExec .halt s (fun s => s.halt s.cur) := rfl
theorem exec_csrr (d : BitVec 6) (r : BitVec 12) : exec (.csrr d r) s =
    ctExec (.csrr d r) s (fun s => s.record s.cur 0 2 (.scalar d.toNat ((s.csrRead s.cur r.toNat).getD 0))) := rfl
theorem exec_csrw (r : BitVec 12) (x : BitVec 6) : exec (.csrw r x) s =
    ctExec (.csrw r x) s (fun s => s.updCore s.cur (fun c => { c with csrw := c.csrw ++ [(r.toNat, c.sreg x.toNat)] })) := rfl

end Exec

/-- A `ct` instruction: it is well formed, names no unit and raises no trap but a control fault. -/
structure CtPlain (i : Instr) : Prop where
  ct : slotOf i = some .ct
  formed : instrReasons i = Reasons.none
  noPlan : ∀ c : Core, c.plan i = none
  noMx : ∀ c : Core, c.mxBanks i = []
  noWait : ∀ c : Core, c.waitBanks i = []
  noSf : sfBanks i = []
  noBusy : mxBusy i = 0
  noCond : ∀ c : Core, c.nonUniform i = none
  noPark : ∀ c : Core, c.parkBad i = none
  noSlices : (sourcesOf i ++ destsOf i).all (fun l => l.kind != .sliceA && l.kind != .sliceB) = true

/-- A plain `ct` instruction without a control condition takes its effect and moves to the bundle that R112 selects. -/
theorem ctExec_commits (s : State) (i : Instr) (eff : State → State) (h : CtPlain i) (ht : ∀ code, i ≠ .trap code)
    (hc : s.ctSub s.cur i = none) : ctExec i s eff = .next ((eff s).advance s.cur i) :=
  ctExec_plain s i eff h.ct h.formed h.noPlan h.noMx h.noSf h.noBusy h.noCond h.noPark h.noSlices
    (by rw [controlFault_of_sub s s.cur i h.ct ht, hc]; rfl) h.noWait

/-- The same for an instruction without an effect of its own. -/
theorem ctExec_moves (s : State) (i : Instr) (p : Nat) (loops : List LoopEntry) (h : CtPlain i) (ht : ∀ code, i ≠ .trap code)
    (hc : s.ctSub s.cur i = none) (hn : (s.core s.cur).nextOf i = (some p, loops)) : ctExec i s id = .next (s.movedTo p loops) := by
  rw [ctExec_commits s i id h ht hc, id, advance_eq_movedTo s i p loops hn]

/-- A plain `ct` instruction with a control condition takes the control fault. -/
theorem ctExec_faults (s : State) (i : Instr) (eff : State → State) (sub addr : Nat) (h : CtPlain i) (ht : ∀ code, i ≠ .trap code)
    (hc : s.ctSub s.cur i = some (sub, addr)) :
    ctExec i s eff = .next (s.takeTrap s.cur ⟨3, 1, sub, BitVec.ofNat 64 addr, (s.core s.cur).regs.pc.toNat⟩) :=
  ctExec_control s i eff _ h.ct h.formed h.noPlan h.noMx h.noSf h.noBusy h.noSlices
    (by rw [controlFault_of_sub s s.cur i h.ct ht, hc]; rfl) h.noWait

/-- TXWAIT reads a barrier: with its bank in service and no control condition it takes its effect and commits. -/
theorem ctExec_txwait (s : State) (x : BitVec 6) (p : BitVec 4) (eff : State → State) (hs : s.outOfService s.cur (.txwait x p) = none)
    (hc : s.ctSub s.cur (.txwait x p) = none) : ctExec (.txwait x p) s eff = .next ((eff s).advance s.cur (.txwait x p)) := by
  refine ctExec_of_clear s _ eff ?_
  simp only [State.faultOf, State.serviceFault, hs, controlFault_of_sub s s.cur (.txwait x p) rfl (by intro _ h; cases h), hc]
  rfl

/-- TXWAIT with its bank in service and a control condition takes the control fault. -/
theorem ctExec_txwait_faults (s : State) (x : BitVec 6) (p : BitVec 4) (eff : State → State) (sub addr : Nat)
    (hs : s.outOfService s.cur (.txwait x p) = none) (hc : s.ctSub s.cur (.txwait x p) = some (sub, addr)) :
    ctExec (.txwait x p) s eff = .next (s.takeTrap s.cur ⟨3, 1, sub, BitVec.ofNat 64 addr, (s.core s.cur).regs.pc.toNat⟩) := by
  refine slotExec_of_fault s _ _ _ ?_
  simp only [State.faultOf, State.serviceFault, hs, controlFault_of_sub s s.cur (.txwait x p) rfl (by intro _ h; cases h), hc]
  rfl

section Plain

theorem ctPlain_nop : CtPlain (.nop .ct) := ⟨rfl, rfl, fun _ => rfl, fun _ => rfl, fun _ => rfl, rfl, rfl, fun _ => rfl, fun _ => rfl, rfl⟩
theorem ctPlain_jmp (t : BitVec 24) : CtPlain (.jmp t) :=
  ⟨rfl, rfl, fun _ => rfl, fun _ => rfl, fun _ => rfl, rfl, rfl, fun _ => rfl, fun _ => rfl, rfl⟩
theorem ctPlain_call (t : BitVec 24) : CtPlain (.call t) :=
  ⟨rfl, rfl, fun _ => rfl, fun _ => rfl, fun _ => rfl, rfl, rfl, fun _ => rfl, fun _ => rfl, rfl⟩
theorem ctPlain_ret : CtPlain .ret := ⟨rfl, rfl, fun _ => rfl, fun _ => rfl, fun _ => rfl, rfl, rfl, fun _ => rfl, fun _ => rfl, rfl⟩
theorem ctPlain_lexit : CtPlain .lexit := ⟨rfl, rfl, fun _ => rfl, fun _ => rfl, fun _ => rfl, rfl, rfl, fun _ => rfl, fun _ => rfl, rfl⟩
theorem ctPlain_halt : CtPlain .halt := ⟨rfl, rfl, fun _ => rfl, fun _ => rfl, fun _ => rfl, rfl, rfl, fun _ => rfl, fun _ => rfl, rfl⟩
theorem ctPlain_loop (x : BitVec 6) (last : BitVec 24) : CtPlain (.loop x last) :=
  ⟨rfl, rfl, fun _ => rfl, fun _ => rfl, fun _ => rfl, rfl, rfl, fun _ => rfl, fun _ => rfl, by
    show (scalarLoc x ++ []).all _ = true; simp⟩
theorem ctPlain_loopi (t last : BitVec 24) : CtPlain (.loopi t last) :=
  ⟨rfl, rfl, fun _ => rfl, fun _ => rfl, fun _ => rfl, rfl, rfl, fun _ => rfl, fun _ => rfl, rfl⟩
theorem ctPlain_step (g : BitVec 4) : CtPlain (.step g) :=
  ⟨rfl, rfl, fun _ => rfl, fun _ => rfl, fun _ => rfl, rfl, rfl, fun _ => rfl, fun _ => rfl, rfl⟩
theorem ctPlain_bari (k : BitVec 7) (x : BitVec 6) : CtPlain (.bari k x) :=
  ⟨rfl, rfl, fun _ => rfl, fun _ => rfl, fun _ => rfl, rfl, rfl, fun _ => rfl, fun _ => rfl, by
    show (scalarLoc x ++ []).all _ = true; simp⟩
theorem ctPlain_bara (k : BitVec 7) (m : BitVec 8) : CtPlain (.bara k m) :=
  ⟨rfl, rfl, fun _ => rfl, fun _ => rfl, fun _ => rfl, rfl, rfl, fun _ => rfl, fun _ => rfl, rfl⟩
theorem ctPlain_baraw (k : BitVec 7) (m : BitVec 8) : CtPlain (.baraw k m) :=
  ⟨rfl, rfl, fun _ => rfl, fun _ => rfl, fun _ => rfl, rfl, rfl, fun _ => rfl, fun _ => rfl, rfl⟩
theorem ctPlain_barw (k : BitVec 7) : CtPlain (.barw k) :=
  ⟨rfl, rfl, fun _ => rfl, fun _ => rfl, fun _ => rfl, rfl, rfl, fun _ => rfl, fun _ => rfl, rfl⟩
theorem ctPlain_fence (m : BitVec 8) : CtPlain (.fence m) :=
  ⟨rfl, rfl, fun _ => rfl, fun _ => rfl, fun _ => rfl, rfl, rfl, fun _ => rfl, fun _ => rfl, rfl⟩

/-- The instructions with a decode reason of their own are plain when they meet none. -/
theorem ctPlain_br (j : BitVec 4) (h : instrReasons (.br j) = Reasons.none) : CtPlain (.br j) :=
  ⟨rfl, h, fun _ => rfl, fun _ => rfl, fun _ => rfl, rfl, rfl, fun _ => rfl, fun _ => rfl, rfl⟩
theorem ctPlain_brn (j : BitVec 4) (h : instrReasons (.brn j) = Reasons.none) : CtPlain (.brn j) :=
  ⟨rfl, h, fun _ => rfl, fun _ => rfl, fun _ => rfl, rfl, rfl, fun _ => rfl, fun _ => rfl, rfl⟩
theorem ctPlain_prep (j : BitVec 4) (t : BitVec 24) (h : instrReasons (.prep j t) = Reasons.none) : CtPlain (.prep j t) :=
  ⟨rfl, h, fun _ => rfl, fun _ => rfl, fun _ => rfl, rfl, rfl, fun _ => rfl, fun _ => rfl, rfl⟩
theorem ctPlain_pool (k : BitVec 13) (h : instrReasons (.pool k) = Reasons.none) : CtPlain (.pool k) :=
  ⟨rfl, h, fun _ => rfl, fun _ => rfl, fun _ => rfl, rfl, rfl, fun _ => rfl, fun _ => rfl, rfl⟩
theorem ctPlain_calli (x : BitVec 6) (k : BitVec 8) (h : instrReasons (.calli x k) = Reasons.none) : CtPlain (.calli x k) :=
  ⟨rfl, h, fun _ => rfl, fun _ => rfl, fun _ => rfl, rfl, rfl, fun _ => rfl, fun _ => rfl, by
    show (scalarLoc x ++ scalarLoc 63).all _ = true; simp⟩
theorem ctPlain_csrr (d : BitVec 6) (r : BitVec 12) (h : instrReasons (.csrr d r) = Reasons.none) : CtPlain (.csrr d r) :=
  ⟨rfl, h, fun _ => rfl, fun _ => rfl, fun _ => rfl, rfl, rfl, fun _ => rfl, fun _ => rfl, by
    show ([] ++ scalarLoc d).all _ = true; simp⟩
theorem ctPlain_csrw (r : BitVec 12) (x : BitVec 6) (h : instrReasons (.csrw r x) = Reasons.none) : CtPlain (.csrw r x) :=
  ⟨rfl, h, fun _ => rfl, fun _ => rfl, fun _ => rfl, rfl, rfl, fun _ => rfl, fun _ => rfl, by
    show (scalarLoc x ++ []).all _ = true; simp⟩

end Plain

end Sys2Proof.Machine
end

