-- ==== Sys2Proof/Laws/Lanes.lean ====
section
/-! SUPPORT. Packed strings and slice lines: what a lane of a slice operand holds after its lines have been packed, and the vector
results that an instruction records. -/

namespace Sys2Proof.Machine

/-! ## Packed strings -/

theorem packBits_lt (b : Nat) (l : List Nat) : packBits b l < 2 ^ (b * l.length) := by
  induction l with
  | nil => simp [packBits]
  | cons x xs ih =>
    unfold packBits
    have h1 : x % 2 ^ b < 2 ^ b := Nat.mod_lt _ (Nat.two_pow_pos b)
    rw [Nat.shiftLeft_eq, List.length_cons, Nat.mul_succ, Nat.pow_add]
    have h2 : packBits b xs + 1 ≤ 2 ^ (b * xs.length) := ih
    calc x % 2 ^ b + packBits b xs * 2 ^ b < 2 ^ b + packBits b xs * 2 ^ b := Nat.add_lt_add_right h1 _
      _ = (packBits b xs + 1) * 2 ^ b := by rw [Nat.add_mul, Nat.one_mul, Nat.add_comm]
      _ ≤ 2 ^ (b * xs.length) * 2 ^ b := Nat.mul_le_mul_right _ h2

/-- Element k of a packed string. -/
theorem packBits_elem (b : Nat) (l : List Nat) (k : Nat) : packBits b l / 2 ^ (b * k) % 2 ^ b = nth 0 l k % 2 ^ b := by
  induction l generalizing k with
  | nil => simp [packBits, nth]
  | cons x xs ih =>
    unfold packBits
    rw [Nat.shiftLeft_eq]
    cases k with
    | zero => simp [nth, Nat.add_mul_mod_self_right]
    | succ k =>
      rw [Nat.mul_succ, Nat.add_comm (b * k) b, Nat.pow_add, ← Nat.div_div_eq_div_mul,
        Nat.add_mul_div_right _ _ (Nat.two_pow_pos b), Nat.div_eq_of_lt (Nat.mod_lt _ (Nat.two_pow_pos b)), Nat.zero_add, ih]
      simp [nth]

/-- The digits of v, packed again. -/
theorem packBits_digits (b w v : Nat) : packBits b ((List.range w).map (fun i => v / 2 ^ (b * i) % 2 ^ b)) = v % 2 ^ (b * w) := by
  induction w generalizing v with
  | zero => simp [packBits, Nat.mod_one]
  | succ w ih =>
    rw [List.range_succ_eq_map, List.map_cons, List.map_map]
    unfold packBits
    have : ((fun i => v / 2 ^ (b * i) % 2 ^ b) ∘ Nat.succ) = fun i => (v / 2 ^ b) / 2 ^ (b * i) % 2 ^ b := by
      funext i
      simp only [Function.comp]
      rw [Nat.mul_succ, Nat.add_comm (b * i) b, Nat.pow_add, Nat.div_div_eq_div_mul]
    rw [this, ih, Nat.shiftLeft_eq]
    simp only [Nat.mul_zero, Nat.pow_zero, Nat.div_one, Nat.mod_mod]
    rw [Nat.mul_succ, Nat.add_comm (b * w) b, Nat.pow_add, Nat.mod_mul, Nat.mul_comm (v / 2 ^ b % 2 ^ (b * w))]

/-! ## Lists by position -/

theorem nth_eq_getElem {α : Type} (d : α) (l : List α) (k : Nat) (h : k < l.length) : nth d l k = l[k] := by
  simp [nth, List.getElem?_eq_getElem h]

theorem nth_map_range {α : Type} (d : α) (f : Nat → α) (n k : Nat) (h : k < n) : nth d ((List.range n).map f) k = f k := by
  rw [nth_eq_getElem _ _ _ (by simpa using h)]; simp

theorem nth_map {α β : Type} (d : β) (e : α) (f : α → β) (l : List α) (k : Nat) (h : k < l.length) :
    nth d (l.map f) k = f (nth e l k) := by
  rw [nth_eq_getElem _ _ _ (by simpa using h), nth_eq_getElem _ _ _ h]; simp

theorem nth_zipWith {α β γ : Type} (d : γ) (a : α) (b : β) (f : α → β → γ) (l : List α) (m : List β) (k : Nat) (h : k < l.length)
    (h' : k < m.length) : nth d (List.zipWith f l m) k = f (nth a l k) (nth b m k) := by
  rw [nth_eq_getElem _ _ _ (by simp; omega), nth_eq_getElem _ _ _ h, nth_eq_getElem _ _ _ h']; simp

theorem nth_zip {α β : Type} (a : α) (b : β) (l : List α) (m : List β) (k : Nat) (h : k < l.length) (h' : k < m.length) :
    nth (a, b) (List.zip l m) k = (nth a l k, nth b m k) := by
  rw [nth_eq_getElem _ _ _ (by simp; omega), nth_eq_getElem _ _ _ h, nth_eq_getElem _ _ _ h']; simp

@[simp] theorem allLanes_length : allLanes.length = 256 := by simp [allLanes]

theorem nth_allLanes (l : Nat) (h : l < 256) : nth 0 allLanes l = l := by
  rw [nth_eq_getElem _ _ _ (by simpa using h)]; simp [allLanes]

@[simp] theorem patterns_length (c : Core) (cl : Bool) (t : NumFmt) (o : SliceOp) : (c.patterns cl t o).length = 256 := by
  simp [Core.patterns, Core.lanes]

@[simp] theorem lanes_length (c : Core) (cl : Bool) (o : SliceOp) : (c.lanes cl o).length = 256 := by simp [Core.lanes]

/-- The raw bits of a lane of an operand. -/
theorem nth_lanes (c : Core) (cl : Bool) (o : SliceOp) (l : Nat) (h : l < 256) :
    nth 0 (c.lanes cl o) l = laneOf (c.sliceLines cl o.start.toNat o.w) l := by
  unfold Core.lanes
  rw [nth_map 0 0 _ _ _ (by simpa using h), nth_allLanes l h]; rfl

/-- The pattern of a lane of an operand. -/
theorem nth_patterns (c : Core) (cl : Bool) (t : NumFmt) (o : SliceOp) (l : Nat) (h : l < 256) :
    nth 0 (c.patterns cl t o) l = c.elem cl t o l := by
  unfold Core.patterns
  rw [nth_map 0 0 _ _ _ (by simpa using h), nth_lanes _ _ _ _ h]; rfl

/-! ## Lines -/

@[simp] theorem linesOf_length (w : Nat) (vals : List Nat) : (linesOf w vals).length = w := by simp [linesOf]

/-- A lane of the lines that hold the given values. -/
theorem laneOf_linesOf (w : Nat) (vals : List Nat) (l : Nat) (hv : vals.length = 256) (hl : l < 256) :
    laneOf (linesOf w vals) l = nth 0 vals l % 2 ^ (4 * w) := by
  unfold laneOf linesOf
  rw [List.map_map, ← packBits_digits 4 w (nth 0 vals l)]
  congr 1
  apply List.map_congr_left
  intro i _
  simp only [Function.comp, BitVec.toNat_ofNat]
  have h1 : packBits 4 (vals.map (fun v => v / 2 ^ (4 * i) % 16)) < 2 ^ (4 * 256) := by
    have := packBits_lt 4 (vals.map (fun v => v / 2 ^ (4 * i) % 16))
    rwa [List.length_map, hv] at this
  rw [Nat.mod_eq_of_lt h1]
  have h2 := packBits_elem 4 (vals.map (fun v => v / 2 ^ (4 * i) % 16)) l
  rw [show (16 : Nat) = 2 ^ 4 from rfl] at *
  rw [h2]
  simp only [nth, List.getElem?_map]
  have h3 : vals[l]? = some (vals[l]'(by omega)) := List.getElem?_eq_getElem (by omega)
  rw [h3]
  simp

/-- Recording lane values for the slices of an operand. -/
theorem lanesSet_record (s : State) (slot lat : Nat) (cl : Bool) (d : SliceOp) (en : LaneMask) (f : Nat → Nat) (vals : List Nat)
    (hv : vals.length = 256) (h : ∀ l, l < 256 → nth 0 vals l % 2 ^ (4 * d.w) = f l % 2 ^ (4 * d.w)) :
    s.LanesSet (s.record s.cur slot lat (.slices cl d.start.toNat en (linesOf d.w vals))) slot lat cl d en f := by
  refine ⟨linesOf d.w vals, by simp, fun l hl => by rw [laneOf_linesOf _ _ _ hv hl, h l hl], ?_⟩
  unfold State.record State.recorded ResVal.locs
  simp

/-- A vector instruction that takes its lane values from the core records them in its cluster under the K mask. -/
theorem lanesSet_lanesTo (s : State) (u : VectorSlot) (lat : Nat) (k : BitVec 4) (d : SliceOp) (g : Core → List Nat) (f : Nat → Nat)
    (hv : (g (s.core s.cur)).length = 256)
    (h : ∀ l, l < 256 → nth 0 (g (s.core s.cur)) l % 2 ^ (4 * d.w) = f l % 2 ^ (4 * d.w)) :
    s.LanesSet (lanesTo u lat k d g s) u.slot.index lat (clusterOf u) d ((s.core s.cur).mask (clusterOf u) k.toNat) f :=
  lanesSet_record s _ lat _ d _ f _ hv h

/-- A lanewise operation on one source. -/
theorem lanesSet_lanes1 (s : State) (u : VectorSlot) (lat : Nat) (t : NumFmt) (k : BitVec 4) (d x : SliceOp) (f g : Nat → Nat)
    (h : ∀ l, l < 256 → f ((s.core s.cur).elem (clusterOf u) t x l) % 2 ^ (4 * d.w) = g l % 2 ^ (4 * d.w)) :
    s.LanesSet (lanes1 u lat t k d x f s) u.slot.index lat (clusterOf u) d ((s.core s.cur).mask (clusterOf u) k.toNat) g := by
  unfold lanes1
  refine lanesSet_lanesTo s u lat k d (fun c => (c.patterns (clusterOf u) t x).map f) g (by simp) (fun l hl => ?_)
  rw [nth_map 0 0 _ _ _ (by simpa using hl), nth_patterns _ _ _ _ _ hl, h l hl]

/-- A lanewise operation on two sources. -/
theorem lanesSet_lanes2 (s : State) (u : VectorSlot) (lat : Nat) (t : NumFmt) (k : BitVec 4) (d x y : SliceOp) (f : Nat → Nat → Nat)
    (g : Nat → Nat) (h : ∀ l, l < 256 →
      f ((s.core s.cur).elem (clusterOf u) t x l) ((s.core s.cur).elem (clusterOf u) t y l) % 2 ^ (4 * d.w) = g l % 2 ^ (4 * d.w)) :
    s.LanesSet (lanes2 u lat t k d x y f s) u.slot.index lat (clusterOf u) d ((s.core s.cur).mask (clusterOf u) k.toNat) g := by
  unfold lanes2
  refine lanesSet_lanesTo s u lat k d (fun c => List.zipWith f (c.patterns (clusterOf u) t x) (c.patterns (clusterOf u) t y)) g
    (by simp) (fun l hl => ?_)
  rw [nth_zipWith 0 0 0 _ _ _ l (by simpa using hl) (by simpa using hl), nth_patterns _ _ _ _ _ hl, nth_patterns _ _ _ _ _ hl, h l hl]

/-- The arithmetic on two sources is a lanewise operation. -/
theorem arith2_eq (u : VectorSlot) (ty k : BitVec 4) (sat : Bool) (d x y : SliceOp) (li lf : Nat) (fi : Int → Int → Int)
    (ff : FVal → FVal → FVal) : arith2 u ty k sat d x y li lf fi ff = lanes2 u (latIF ty li lf) (vtypeD ty) k d x y (fun a b =>
      placeExact (vtypeD ty) d.w sat (fi ((vtypeD ty).value a).toI ((vtypeD ty).value b).toI)
        (ff ((vtypeD ty).value a).toF ((vtypeD ty).value b).toF)) := rfl

/-- The fused arithmetic on three sources. -/
theorem lanesSet_arith3 (s : State) (u : VectorSlot) (ty k : BitVec 4) (sat : Bool) (d x y : SliceOp) (fi : Int → Int → Int → Int)
    (ff : FVal → FVal → FVal → FVal) :
    s.LanesSet (arith3 u ty k sat d x y fi ff s) u.slot.index (latIF ty 3 6) (clusterOf u) d
      ((s.core s.cur).mask (clusterOf u) k.toNat) (fun l =>
        let v := fun o => (vtypeD ty).value ((s.core s.cur).elem (clusterOf u) (vtypeD ty) o l)
        placeExact (vtypeD ty) d.w sat (fi (v d).toI (v x).toI (v y).toI) (ff (v d).toF (v x).toF (v y).toF)) := by
  unfold arith3
  refine lanesSet_lanesTo s u (latIF ty 3 6) k d _ _ (by simp) (fun l hl => ?_)
  rw [nth_zipWith 0 0 (0, 0) _ _ _ l (by simpa using hl) (by simpa using hl), nth_zip _ _ _ _ _ (by simpa using hl) (by simpa using hl),
    nth_patterns _ _ _ _ _ hl, nth_patterns _ _ _ _ _ hl, nth_patterns _ _ _ _ _ hl]

/-- An instruction without addresses and conditions takes its effect when it is well-formed and its units serve. -/
theorem slotExec_serves (s : State) (i : Instr) (eff : State → State) (sl : Slot) (h1 : slotOf i = some sl) (h2 : sl ≠ .ct)
    (hw : WellFormed i) (hs : s.Serves i) (hp : ∀ c : Core, c.plan i = none) (hn : ∀ c : Core, c.nonUniform i = none)
    (hk : ∀ c : Core, c.parkBad i = none) : slotExec i s eff = .next (eff s) :=
  slotExec_of_clear s i eff (faultOf_of_checks s s.cur i sl h1 h2 hw hs (hn _) (by simp [State.addressFault, hp, hk]))

end Sys2Proof.Machine
end

