-- ==== Sys2Proof/Laws/Mem.lean ====
section
/-! SUPPORT. The memories: every operation keeps the canonical form, and what a byte reads as after a write. -/

namespace Sys2Proof.Machine

/-! ## The canonical form -/

/-- The canonical form, as a property of all cells. -/
theorem Memory.wf_iff (m : Memory) :
    Memory.wf m = true ↔ m.Pairwise (fun c d => c.1 < d.1) ∧ ∀ c ∈ m, c.2 ≠ 0 := by
  induction m with
  | nil => simp [Memory.wf]
  | cons c r ih =>
    cases r with
    | nil => simp [Memory.wf]
    | cons d t =>
      simp only [Memory.wf, Bool.and_eq_true, bne_iff_ne, ne_eq, decide_eq_true_eq, ih, List.pairwise_cons]
      constructor
      · rintro ⟨⟨hc, hcd⟩, ⟨hd, hp⟩, hz⟩
        refine ⟨⟨?_, hd, hp⟩, ?_⟩
        · intro x hx
          rcases List.mem_cons.mp hx with rfl | hx
          · exact hcd
          · exact lt_trans hcd (hd x hx)
        · intro x hx
          rcases List.mem_cons.mp hx with rfl | hx
          · exact hc
          · exact hz x hx
      · rintro ⟨⟨hc, hd, hp⟩, hz⟩
        exact ⟨⟨hz c (by simp), hc d (by simp)⟩, ⟨hd, hp⟩, fun x hx => hz x (List.mem_cons_of_mem _ hx)⟩

theorem mem_cellsOf (n a v : Nat) (c : Host.Cell) (h : c ∈ cellsOf a n v) : a ≤ c.1 ∧ c.1 < a + n ∧ c.2 ≠ 0 := by
  induction n generalizing a v with
  | zero => simp [cellsOf] at h
  | succ n ih =>
    unfold cellsOf at h
    split at h
    · have := ih _ _ h
      exact ⟨by omega, by omega, this.2.2⟩
    · rename_i hv
      rcases List.mem_cons.mp h with rfl | h
      · refine ⟨by simp, by simp, ?_⟩
        intro hz
        have h8 : (BitVec.ofNat 8 v).toNat = (0 : BitVec 8).toNat := congrArg BitVec.toNat hz
        simp at h8
        omega
      · have := ih _ _ h
        exact ⟨by omega, by omega, this.2.2⟩

theorem cellsOf_pairwise (n a v : Nat) : (cellsOf a n v).Pairwise (fun c d => c.1 < d.1) := by
  induction n generalizing a v with
  | zero => simp [cellsOf]
  | succ n ih =>
    unfold cellsOf
    split
    · exact ih _ _
    · refine List.pairwise_cons.mpr ⟨fun c hc => ?_, ih _ _⟩
      have := mem_cellsOf _ _ _ _ hc
      simp only
      omega

/-- A write keeps the canonical form. -/
theorem Memory.wf_writeN (m : Memory) (a n v : Nat) (h : Memory.wf m = true) : Memory.wf (Memory.writeN m a n v) = true := by
  rw [Memory.wf_iff] at h ⊢
  obtain ⟨hp, hz⟩ := h
  unfold Memory.writeN
  refine ⟨?_, ?_⟩
  · rw [List.pairwise_append, List.pairwise_append]
    refine ⟨⟨hp.filter _, cellsOf_pairwise _ _ _, ?_⟩, hp.filter _, ?_⟩
    · intro c hc d hd
      have := mem_cellsOf _ _ _ _ hd
      have := (List.mem_filter.mp hc).2
      simp at this
      omega
    · intro c hc d hd
      have h2 := (List.mem_filter.mp hd).2
      simp at h2
      rcases List.mem_append.mp hc with hc | hc
      · have := (List.mem_filter.mp hc).2
        simp at this
        omega
      · have := mem_cellsOf _ _ _ _ hc
        omega
  · intro c hc
    rcases List.mem_append.mp hc with hc | hc
    · rcases List.mem_append.mp hc with hc | hc
      · exact hz c (List.mem_filter.mp hc).1
      · exact (mem_cellsOf _ _ _ _ hc).2.2
    · exact hz c (List.mem_filter.mp hc).1

theorem Memory.wf_write (m : Memory) (a : Nat) (b : Byte) (h : Memory.wf m = true) : Memory.wf (Memory.write m a b) = true :=
  Memory.wf_writeN _ _ _ _ h

theorem Memory.wf_writeBits (m : Memory) (a n v k : Nat) (h : Memory.wf m = true) :
    Memory.wf (Memory.writeBits m a n v k) = true :=
  Memory.wf_writeN _ _ _ _ h

theorem Memory.wf_writeCells (m : Memory) (l : List (Nat × Byte × Byte)) (h : Memory.wf m = true) :
    Memory.wf (Memory.writeCells m l) = true := by
  unfold Memory.writeCells
  induction l generalizing m with
  | nil => exact h
  | cons e r ih => exact ih _ (Memory.wf_write _ _ _ h)

theorem Memory.wf_nil : Memory.wf [] = true := rfl

/-- Leaving cells out keeps the canonical form. -/
theorem Memory.wf_filter (m : Memory) (p : Host.Cell → Bool) (h : Memory.wf m = true) : Memory.wf (m.filter p) = true := by
  rw [Memory.wf_iff] at h ⊢
  exact ⟨h.1.filter _, fun c hc => h.2 c (List.mem_filter.mp hc).1⟩

/-! ## Reading one byte -/

theorem getD_append_of_not_mem {α : Type} (d : α) (m r : Map α) (k : Nat) (h : ∀ c ∈ m, c.1 ≠ k) :
    getD d (m ++ r) k = getD d r k := by
  induction m with
  | nil => rfl
  | cons c t ih =>
    simp only [List.cons_append, getD]
    rw [if_neg (h c (by simp)), ih (fun x hx => h x (List.mem_cons_of_mem _ hx))]

theorem getD_of_not_mem {α : Type} (d : α) (m : Map α) (k : Nat) (h : ∀ c ∈ m, c.1 ≠ k) : getD d m k = d := by
  have := getD_append_of_not_mem d m [] k h
  simpa [getD] using this

theorem getD_append_left {α : Type} (d : α) (m r : Map α) (k : Nat) (h : ∀ c ∈ r, c.1 ≠ k) :
    getD d (m ++ r) k = getD d m k := by
  induction m with
  | nil => simpa [getD] using getD_of_not_mem d r k h
  | cons c t ih => simp [getD, ih]

theorem getD_filter {α : Type} (d : α) (m : Map α) (p : Nat → Bool) (k : Nat) (h : p k = true) :
    getD d (m.filter (fun c => p c.1)) k = getD d m k := by
  induction m with
  | nil => rfl
  | cons c t ih =>
    obtain ⟨i, b⟩ := c
    by_cases hp : p i = true
    · simp [hp, getD, ih]
    · have : i ≠ k := fun e => hp (e ▸ h)
      simp [hp, getD, ih, this]

/-- A write leaves every byte outside its range alone. -/
theorem Memory.read_writeN_of_not_mem (m : Memory) (a n v b : Nat) (h : b < a ∨ a + n ≤ b) :
    Memory.read (Memory.writeN m a n v) b = Memory.read m b := by
  unfold Memory.read Memory.writeN
  have hc : ∀ c ∈ cellsOf a n v, c.1 ≠ b := fun c hc => by
    have := mem_cellsOf _ _ _ _ hc
    omega
  rcases h with h | h
  · rw [getD_append_left, getD_append_left _ _ _ _ hc]
    · exact getD_filter (d := (0 : Byte)) m (fun x => decide (x < a)) b (by simpa using h)
    · intro c hc
      have := (List.mem_filter.mp hc).2
      simp at this
      omega
  · rw [List.append_assoc, getD_append_of_not_mem, getD_append_of_not_mem _ _ _ _ hc]
    · exact getD_filter (d := (0 : Byte)) m (fun x => decide (a + n ≤ x)) b (by simpa using h)
    · intro c hc
      have := (List.mem_filter.mp hc).2
      simp at this
      omega

theorem getD_cellsOf (n a v i : Nat) (h : i < n) : getD (0 : Byte) (cellsOf a n v) (a + i) = BitVec.ofNat 8 (v / 256 ^ i) := by
  induction n generalizing a v i with
  | zero => omega
  | succ n ih =>
    unfold cellsOf
    cases i with
    | zero =>
      split
      · rename_i hv
        rw [getD_of_not_mem]
        · apply BitVec.eq_of_toNat_eq
          simp [hv]
        · intro c hc
          have := mem_cellsOf _ _ _ _ hc
          omega
      · simp [getD]
    | succ i =>
      have e : a + (i + 1) = a + 1 + i := by omega
      have hd : v / 256 / 256 ^ i = v / 256 ^ (i + 1) := by rw [Nat.div_div_eq_div_mul, pow_succ, Nat.mul_comm]
      split
      · rw [e, ih _ _ _ (by omega), hd]
      · rw [getD, if_neg (by omega), e, ih _ _ _ (by omega), hd]

/-- Byte i of a write reads as byte i of the value written (little-endian, R5). -/
theorem Memory.read_writeN (m : Memory) (a n v i : Nat) (h : i < n) :
    Memory.read (Memory.writeN m a n v) (a + i) = BitVec.ofNat 8 (v / 256 ^ i) := by
  unfold Memory.read Memory.writeN
  rw [getD_append_left, getD_append_of_not_mem, getD_cellsOf _ _ _ _ h]
  · intro c hc
    have := (List.mem_filter.mp hc).2
    simp at this
    omega
  · intro c hc
    have := (List.mem_filter.mp hc).2
    simp at this
    omega

theorem Memory.read_write_self (m : Memory) (a : Nat) (b : Byte) : Memory.read (Memory.write m a b) a = b := by
  have := Memory.read_writeN m a 1 b.toNat 0 (by omega)
  simpa [Memory.write] using this

theorem Memory.read_write_of_ne (m : Memory) (a c : Nat) (b : Byte) (h : c ≠ a) :
    Memory.read (Memory.write m a b) c = Memory.read m c :=
  Memory.read_writeN_of_not_mem _ _ _ _ _ (by omega)

/-! ## Reading several bytes -/

theorem foldl_add_init (l : Memory) (a x : Nat) :
    l.foldl (fun (acc : Nat) c => acc + c.2.toNat * 2 ^ (8 * (c.1 - a))) x =
      x + l.foldl (fun (acc : Nat) c => acc + c.2.toNat * 2 ^ (8 * (c.1 - a))) 0 := by
  induction l generalizing x with
  | nil => simp
  | cons c r ih =>
    simp only [List.foldl_cons]
    rw [ih (x + _), ih (0 + _)]
    omega

theorem Memory.readN_nil (a n : Nat) : Memory.readN [] a n = 0 := rfl

theorem Memory.readN_cons (c : Host.Cell) (m : Memory) (a n : Nat) :
    Memory.readN (c :: m) a n =
      (if a ≤ c.1 ∧ c.1 < a + n then c.2.toNat * 2 ^ (8 * (c.1 - a)) else 0) + Memory.readN m a n := by
  unfold Memory.readN
  by_cases h : a ≤ c.1 ∧ c.1 < a + n
  · have hf : (decide (a ≤ c.1) && decide (c.1 < a + n)) = true := by simpa using h
    rw [if_pos h, List.filter_cons, if_pos hf, List.foldl_cons, foldl_add_init]
    omega
  · have hf : ¬ (decide (a ≤ c.1) && decide (c.1 < a + n)) = true := by simpa using h
    rw [if_neg h, List.filter_cons, if_neg hf, Nat.zero_add]

theorem Memory.readN_append (m r : Memory) (a n : Nat) :
    Memory.readN (m ++ r) a n = Memory.readN m a n + Memory.readN r a n := by
  induction m with
  | nil => simp [Memory.readN_nil]
  | cons c t ih => rw [List.cons_append, Memory.readN_cons, ih, Memory.readN_cons, Nat.add_assoc]

/-- Cells outside the range read add nothing. -/
theorem Memory.readN_outside (m : Memory) (a n : Nat) (h : ∀ c ∈ m, c.1 < a ∨ a + n ≤ c.1) : Memory.readN m a n = 0 := by
  induction m with
  | nil => rfl
  | cons c t ih =>
    have hc := h c (by simp)
    rw [Memory.readN_cons, if_neg (by omega), ih (fun x hx => h x (List.mem_cons_of_mem _ hx))]

theorem Memory.readN_zero (m : Memory) (a : Nat) : Memory.readN m a 0 = 0 :=
  Memory.readN_outside m a 0 (fun _ _ => by omega)

/-- The lowest byte and the rest, of a memory that lists no address twice. -/
theorem Memory.readN_succ (m : Memory) (a n : Nat) (h : m.Pairwise (fun c d => c.1 < d.1)) :
    Memory.readN m a (n + 1) = (Memory.read m a).toNat + 256 * Memory.readN m (a + 1) n := by
  induction m with
  | nil => rfl
  | cons c t ih =>
    obtain ⟨hc, ht⟩ := List.pairwise_cons.mp h
    rw [Memory.readN_cons, Memory.readN_cons, ih ht]
    unfold Memory.read
    obtain ⟨k, b⟩ := c
    simp only at hc
    by_cases hk : k = a
    · subst hk
      have h0 : getD (0 : Byte) t k = 0 := getD_of_not_mem _ _ _ (fun c hx => by have := hc c hx; omega)
      rw [if_pos (by omega), if_neg (by omega), getD, if_pos rfl, h0]
      simp
    · rw [getD, if_neg hk]
      by_cases hr : a + 1 ≤ k ∧ k < a + 1 + n
      · rw [if_pos (by omega), if_pos hr]
        have e : 8 * (k - a) = 8 * (k - (a + 1)) + 8 := by omega
        rw [e, pow_add]
        simp only
        ring
      · rw [if_neg (by simp only; omega), if_neg hr]
        omega

/-- A read of n bytes of a memory in canonical form fits them. -/
theorem Memory.readN_lt (m : Memory) (a n : Nat) (h : Memory.wf m = true) : Memory.readN m a n < 2 ^ (8 * n) := by
  have hp := ((Memory.wf_iff m).mp h).1
  clear h
  induction n generalizing a with
  | zero => simp [Memory.readN_zero]
  | succ n ih =>
    rw [Memory.readN_succ _ _ _ hp, show 8 * (n + 1) = 8 * n + 8 by omega, pow_add]
    have := ih (a + 1)
    have := (Memory.read m a).isLt
    omega

/-- Byte i of a read is the byte at its address (little-endian, R5). -/
theorem Memory.readN_byte (m : Memory) (a n i : Nat) (h : Memory.wf m = true) (hi : i < n) :
    BitVec.ofNat 8 (Memory.readN m a n / 256 ^ i) = Memory.read m (a + i) := by
  have hp := ((Memory.wf_iff m).mp h).1
  clear h
  induction n generalizing a i with
  | zero => omega
  | succ n ih =>
    rw [Memory.readN_succ _ _ _ hp]
    have hb := (Memory.read m a).isLt
    cases i with
    | zero =>
      apply BitVec.eq_of_toNat_eq
      simp only [pow_zero, Nat.div_one, BitVec.toNat_ofNat, Nat.add_zero]
      omega
    | succ i =>
      rw [pow_succ, Nat.mul_comm (256 ^ i), ← Nat.div_div_eq_div_mul,
        show ((Memory.read m a).toNat + 256 * Memory.readN m (a + 1) n) / 256 = Memory.readN m (a + 1) n by omega, ih _ _ (by omega)]
      rw [show a + 1 + i = a + (i + 1) by omega]

theorem Memory.readN_cellsOf (n a v : Nat) : Memory.readN (cellsOf a n v) a n = v % 2 ^ (8 * n) := by
  induction n generalizing a v with
  | zero => simp [cellsOf, Memory.readN_zero, Nat.mod_one]
  | succ n ih =>
    have hv : v % 2 ^ (8 * (n + 1)) = v % 256 + 256 * (v / 256 % 2 ^ (8 * n)) := by
      rw [show 8 * (n + 1) = 8 + 8 * n by omega, pow_add]
      exact Nat.mod_mul
    rw [Memory.readN_succ _ _ _ (cellsOf_pairwise _ _ _), hv]
    have hr : Memory.read (cellsOf a (n + 1) v) a = BitVec.ofNat 8 v := by
      have := getD_cellsOf (n + 1) a v 0 (by omega)
      simpa [Memory.read] using this
    have ht : Memory.readN (cellsOf a (n + 1) v) (a + 1) n = Memory.readN (cellsOf (a + 1) n (v / 256)) (a + 1) n := by
      rw [cellsOf]
      split
      · rfl
      · rw [Memory.readN_cons, if_neg (by simp only; omega), Nat.zero_add]
    rw [hr, ht, ih]
    simp

/-- A read of the bytes just written gives the value, cut to them. -/
theorem Memory.readN_writeN (m : Memory) (a n v : Nat) : Memory.readN (Memory.writeN m a n v) a n = v % 2 ^ (8 * n) := by
  unfold Memory.writeN
  rw [Memory.readN_append, Memory.readN_append, Memory.readN_cellsOf, Memory.readN_outside, Memory.readN_outside]
  · omega
  · intro c hc
    have := (List.mem_filter.mp hc).2
    simp at this
    omega
  · intro c hc
    have := (List.mem_filter.mp hc).2
    simp at this
    omega

end Sys2Proof.Machine
end

