-- ==== Sys2Proof/Laws/Package.lean ====
section
/-! SUPPORT. The fields of State after an update of a queue, a stream, a controller or a unit, their read-back, what a drawn order is, and what
a link does with what crosses it. -/

namespace Sys2Proof.Machine

/-! ## Queues -/

@[simp] theorem State.now_setQueue (s : State) (d q : Nat) (x : Queue) : (s.setQueue d q x).now = s.now := rfl
@[simp] theorem State.time_setQueue (s : State) (d q : Nat) (x : Queue) : (s.setQueue d q x).time = s.time := rfl
@[simp] theorem State.inputs_setQueue (s : State) (d q : Nat) (x : Queue) : (s.setQueue d q x).inputs = s.inputs := rfl
@[simp] theorem State.delays_setQueue (s : State) (d q : Nat) (x : Queue) : (s.setQueue d q x).delays = s.delays := rfl
@[simp] theorem State.drawn_setQueue (s : State) (d q : Nat) (x : Queue) : (s.setQueue d q x).drawn = s.drawn := rfl
@[simp] theorem State.cur_setQueue (s : State) (d q : Nat) (x : Queue) : (s.setQueue d q x).cur = s.cur := rfl
@[simp] theorem State.cores_setQueue (s : State) (d q : Nat) (x : Queue) : (s.setQueue d q x).cores = s.cores := rfl
@[simp] theorem State.dies_setQueue (s : State) (d q : Nat) (x : Queue) : (s.setQueue d q x).dies = s.dies := rfl
@[simp] theorem State.launches_setQueue (s : State) (d q : Nat) (x : Queue) : (s.setQueue d q x).launches = s.launches := rfl
@[simp] theorem State.graphs_setQueue (s : State) (d q : Nat) (x : Queue) : (s.setQueue d q x).graphs = s.graphs := rfl
@[simp] theorem State.runs_setQueue (s : State) (d q : Nat) (x : Queue) : (s.setQueue d q x).runs = s.runs := rfl
@[simp] theorem State.copies_setQueue (s : State) (d q : Nat) (x : Queue) : (s.setQueue d q x).copies = s.copies := rfl
@[simp] theorem State.nextId_setQueue (s : State) (d q : Nat) (x : Queue) : (s.setQueue d q x).nextId = s.nextId := rfl
@[simp] theorem State.vfs_setQueue (s : State) (d q : Nat) (x : Queue) : (s.setQueue d q x).vfs = s.vfs := rfl
@[simp] theorem State.mem_setQueue (s : State) (d q : Nat) (x : Queue) : (s.setQueue d q x).mem = s.mem := rfl
@[simp] theorem State.writes_setQueue (s : State) (d q : Nat) (x : Queue) : (s.setQueue d q x).writes = s.writes := rfl
@[simp] theorem State.log_setQueue (s : State) (d q : Nat) (x : Queue) : (s.setQueue d q x).log = s.log := rfl
@[simp] theorem State.host_setQueue (s : State) (d q : Nat) (x : Queue) : (s.setQueue d q x).host = s.host := rfl
@[simp] theorem State.releases_setQueue (s : State) (d q : Nat) (x : Queue) : (s.setQueue d q x).releases = s.releases := rfl
@[simp] theorem State.units_setQueue (s : State) (d q : Nat) (x : Queue) : (s.setQueue d q x).units = s.units := rfl
@[simp] theorem State.firmware_setQueue (s : State) (d q : Nat) (x : Queue) : (s.setQueue d q x).firmware = s.firmware := rfl
@[simp] theorem State.streams_setQueue (s : State) (d q : Nat) (x : Queue) : (s.setQueue d q x).streams = s.streams := rfl
@[simp] theorem State.ports_setQueue (s : State) (d q : Nat) (x : Queue) : (s.setQueue d q x).ports = s.ports := rfl
@[simp] theorem State.portIn_setQueue (s : State) (d q : Nat) (x : Queue) : (s.setQueue d q x).portIn = s.portIn := rfl
@[simp] theorem State.portOut_setQueue (s : State) (d q : Nat) (x : Queue) : (s.setQueue d q x).portOut = s.portOut := rfl
@[simp] theorem State.boot_setQueue (s : State) (d q : Nat) (x : Queue) : (s.setQueue d q x).boot = s.boot := rfl
@[simp] theorem State.pkg_setQueue (s : State) (d q : Nat) (x : Queue) : (s.setQueue d q x).pkg = s.pkg := rfl
@[simp] theorem State.worlds_setQueue (s : State) (d q : Nat) (x : Queue) : (s.setQueue d q x).worlds = s.worlds := rfl
@[simp] theorem State.seals_setQueue (s : State) (d q : Nat) (x : Queue) : (s.setQueue d q x).seals = s.seals := rfl
@[simp] theorem State.out_setQueue (s : State) (d q : Nat) (x : Queue) : (s.setQueue d q x).out = s.out := rfl
@[simp] theorem State.core_setQueue (s : State) (d q : Nat) (x : Queue) (n : Nat) : (s.setQueue d q x).core n = s.core n := rfl
@[simp] theorem State.die_setQueue (s : State) (d q : Nat) (x : Queue) (d0 : Nat) : (s.setQueue d q x).die d0 = s.die d0 := rfl
@[simp] theorem State.vf_setQueue (s : State) (d q : Nat) (x : Queue) (v : Nat) : (s.setQueue d q x).vf v = s.vf v := rfl
@[simp] theorem State.launch?_setQueue (s : State) (d q : Nat) (x : Queue) (l : Nat) : (s.setQueue d q x).launch? l = s.launch? l := rfl

@[simp] theorem State.queue_setQueue_self (s : State) (d q : Nat) (x : Queue) : (s.setQueue d q x).queue d q = x := by
  simp [State.queue, State.setQueue]

theorem State.queue_setQueue_of_ne (s : State) (d q e r : Nat) (x : Queue) (h : qKey e r ≠ qKey d q) :
    (s.setQueue d q x).queue e r = s.queue e r := by
  simp [State.queue, State.setQueue, getD_put_of_ne _ _ _ _ _ h]

/-! ## Streams -/

@[simp] theorem State.now_setStream (s : State) (k : Nat) (x : Stream) : (s.setStream k x).now = s.now := rfl
@[simp] theorem State.time_setStream (s : State) (k : Nat) (x : Stream) : (s.setStream k x).time = s.time := rfl
@[simp] theorem State.inputs_setStream (s : State) (k : Nat) (x : Stream) : (s.setStream k x).inputs = s.inputs := rfl
@[simp] theorem State.delays_setStream (s : State) (k : Nat) (x : Stream) : (s.setStream k x).delays = s.delays := rfl
@[simp] theorem State.drawn_setStream (s : State) (k : Nat) (x : Stream) : (s.setStream k x).drawn = s.drawn := rfl
@[simp] theorem State.cur_setStream (s : State) (k : Nat) (x : Stream) : (s.setStream k x).cur = s.cur := rfl
@[simp] theorem State.cores_setStream (s : State) (k : Nat) (x : Stream) : (s.setStream k x).cores = s.cores := rfl
@[simp] theorem State.dies_setStream (s : State) (k : Nat) (x : Stream) : (s.setStream k x).dies = s.dies := rfl
@[simp] theorem State.queues_setStream (s : State) (k : Nat) (x : Stream) : (s.setStream k x).queues = s.queues := rfl
@[simp] theorem State.launches_setStream (s : State) (k : Nat) (x : Stream) : (s.setStream k x).launches = s.launches := rfl
@[simp] theorem State.graphs_setStream (s : State) (k : Nat) (x : Stream) : (s.setStream k x).graphs = s.graphs := rfl
@[simp] theorem State.runs_setStream (s : State) (k : Nat) (x : Stream) : (s.setStream k x).runs = s.runs := rfl
@[simp] theorem State.copies_setStream (s : State) (k : Nat) (x : Stream) : (s.setStream k x).copies = s.copies := rfl
@[simp] theorem State.nextId_setStream (s : State) (k : Nat) (x : Stream) : (s.setStream k x).nextId = s.nextId := rfl
@[simp] theorem State.vfs_setStream (s : State) (k : Nat) (x : Stream) : (s.setStream k x).vfs = s.vfs := rfl
@[simp] theorem State.mem_setStream (s : State) (k : Nat) (x : Stream) : (s.setStream k x).mem = s.mem := rfl
@[simp] theorem State.writes_setStream (s : State) (k : Nat) (x : Stream) : (s.setStream k x).writes = s.writes := rfl
@[simp] theorem State.log_setStream (s : State) (k : Nat) (x : Stream) : (s.setStream k x).log = s.log := rfl
@[simp] theorem State.host_setStream (s : State) (k : Nat) (x : Stream) : (s.setStream k x).host = s.host := rfl
@[simp] theorem State.releases_setStream (s : State) (k : Nat) (x : Stream) : (s.setStream k x).releases = s.releases := rfl
@[simp] theorem State.units_setStream (s : State) (k : Nat) (x : Stream) : (s.setStream k x).units = s.units := rfl
@[simp] theorem State.firmware_setStream (s : State) (k : Nat) (x : Stream) : (s.setStream k x).firmware = s.firmware := rfl
@[simp] theorem State.ports_setStream (s : State) (k : Nat) (x : Stream) : (s.setStream k x).ports = s.ports := rfl
@[simp] theorem State.portIn_setStream (s : State) (k : Nat) (x : Stream) : (s.setStream k x).portIn = s.portIn := rfl
@[simp] theorem State.portOut_setStream (s : State) (k : Nat) (x : Stream) : (s.setStream k x).portOut = s.portOut := rfl
@[simp] theorem State.boot_setStream (s : State) (k : Nat) (x : Stream) : (s.setStream k x).boot = s.boot := rfl
@[simp] theorem State.pkg_setStream (s : State) (k : Nat) (x : Stream) : (s.setStream k x).pkg = s.pkg := rfl
@[simp] theorem State.worlds_setStream (s : State) (k : Nat) (x : Stream) : (s.setStream k x).worlds = s.worlds := rfl
@[simp] theorem State.seals_setStream (s : State) (k : Nat) (x : Stream) : (s.setStream k x).seals = s.seals := rfl
@[simp] theorem State.out_setStream (s : State) (k : Nat) (x : Stream) : (s.setStream k x).out = s.out := rfl
@[simp] theorem State.core_setStream (s : State) (k : Nat) (x : Stream) (n : Nat) : (s.setStream k x).core n = s.core n := rfl
@[simp] theorem State.die_setStream (s : State) (k : Nat) (x : Stream) (d0 : Nat) : (s.setStream k x).die d0 = s.die d0 := rfl
@[simp] theorem State.vf_setStream (s : State) (k : Nat) (x : Stream) (v : Nat) : (s.setStream k x).vf v = s.vf v := rfl
@[simp] theorem State.launch?_setStream (s : State) (k : Nat) (x : Stream) (l : Nat) : (s.setStream k x).launch? l = s.launch? l := rfl

@[simp] theorem State.stream_setStream_self (s : State) (k : Nat) (x : Stream) : (s.setStream k x).stream k = x := by
  simp [State.stream, State.setStream]

theorem State.stream_setStream_of_ne (s : State) (k j : Nat) (x : Stream) (h : j ≠ k) :
    (s.setStream k x).stream j = s.stream j := by
  simp [State.stream, State.setStream, getD_put_of_ne _ _ _ _ _ h]

/-! ## Controllers -/

@[simp] theorem State.now_setFw (s : State) (k : Nat) (f : Firmware) : (s.setFw k f).now = s.now := rfl
@[simp] theorem State.time_setFw (s : State) (k : Nat) (f : Firmware) : (s.setFw k f).time = s.time := rfl
@[simp] theorem State.inputs_setFw (s : State) (k : Nat) (f : Firmware) : (s.setFw k f).inputs = s.inputs := rfl
@[simp] theorem State.delays_setFw (s : State) (k : Nat) (f : Firmware) : (s.setFw k f).delays = s.delays := rfl
@[simp] theorem State.drawn_setFw (s : State) (k : Nat) (f : Firmware) : (s.setFw k f).drawn = s.drawn := rfl
@[simp] theorem State.cur_setFw (s : State) (k : Nat) (f : Firmware) : (s.setFw k f).cur = s.cur := rfl
@[simp] theorem State.cores_setFw (s : State) (k : Nat) (f : Firmware) : (s.setFw k f).cores = s.cores := rfl
@[simp] theorem State.dies_setFw (s : State) (k : Nat) (f : Firmware) : (s.setFw k f).dies = s.dies := rfl
@[simp] theorem State.queues_setFw (s : State) (k : Nat) (f : Firmware) : (s.setFw k f).queues = s.queues := rfl
@[simp] theorem State.launches_setFw (s : State) (k : Nat) (f : Firmware) : (s.setFw k f).launches = s.launches := rfl
@[simp] theorem State.graphs_setFw (s : State) (k : Nat) (f : Firmware) : (s.setFw k f).graphs = s.graphs := rfl
@[simp] theorem State.runs_setFw (s : State) (k : Nat) (f : Firmware) : (s.setFw k f).runs = s.runs := rfl
@[simp] theorem State.copies_setFw (s : State) (k : Nat) (f : Firmware) : (s.setFw k f).copies = s.copies := rfl
@[simp] theorem State.nextId_setFw (s : State) (k : Nat) (f : Firmware) : (s.setFw k f).nextId = s.nextId := rfl
@[simp] theorem State.vfs_setFw (s : State) (k : Nat) (f : Firmware) : (s.setFw k f).vfs = s.vfs := rfl
@[simp] theorem State.mem_setFw (s : State) (k : Nat) (f : Firmware) : (s.setFw k f).mem = s.mem := rfl
@[simp] theorem State.writes_setFw (s : State) (k : Nat) (f : Firmware) : (s.setFw k f).writes = s.writes := rfl
@[simp] theorem State.log_setFw (s : State) (k : Nat) (f : Firmware) : (s.setFw k f).log = s.log := rfl
@[simp] theorem State.host_setFw (s : State) (k : Nat) (f : Firmware) : (s.setFw k f).host = s.host := rfl
@[simp] theorem State.releases_setFw (s : State) (k : Nat) (f : Firmware) : (s.setFw k f).releases = s.releases := rfl
@[simp] theorem State.units_setFw (s : State) (k : Nat) (f : Firmware) : (s.setFw k f).units = s.units := rfl
@[simp] theorem State.streams_setFw (s : State) (k : Nat) (f : Firmware) : (s.setFw k f).streams = s.streams := rfl
@[simp] theorem State.ports_setFw (s : State) (k : Nat) (f : Firmware) : (s.setFw k f).ports = s.ports := rfl
@[simp] theorem State.portIn_setFw (s : State) (k : Nat) (f : Firmware) : (s.setFw k f).portIn = s.portIn := rfl
@[simp] theorem State.portOut_setFw (s : State) (k : Nat) (f : Firmware) : (s.setFw k f).portOut = s.portOut := rfl
@[simp] theorem State.boot_setFw (s : State) (k : Nat) (f : Firmware) : (s.setFw k f).boot = s.boot := rfl
@[simp] theorem State.pkg_setFw (s : State) (k : Nat) (f : Firmware) : (s.setFw k f).pkg = s.pkg := rfl
@[simp] theorem State.worlds_setFw (s : State) (k : Nat) (f : Firmware) : (s.setFw k f).worlds = s.worlds := rfl
@[simp] theorem State.seals_setFw (s : State) (k : Nat) (f : Firmware) : (s.setFw k f).seals = s.seals := rfl
@[simp] theorem State.out_setFw (s : State) (k : Nat) (f : Firmware) : (s.setFw k f).out = s.out := rfl
@[simp] theorem State.core_setFw (s : State) (k : Nat) (f : Firmware) (n : Nat) : (s.setFw k f).core n = s.core n := rfl
@[simp] theorem State.die_setFw (s : State) (k : Nat) (f : Firmware) (d0 : Nat) : (s.setFw k f).die d0 = s.die d0 := rfl
@[simp] theorem State.vf_setFw (s : State) (k : Nat) (f : Firmware) (v : Nat) : (s.setFw k f).vf v = s.vf v := rfl
@[simp] theorem State.launch?_setFw (s : State) (k : Nat) (f : Firmware) (l : Nat) : (s.setFw k f).launch? l = s.launch? l := rfl

@[simp] theorem State.fw_setFw_self (s : State) (k : Nat) (f : Firmware) : (s.setFw k f).fw k = f := by
  simp [State.fw, State.setFw]

theorem State.fw_setFw_of_ne (s : State) (k j : Nat) (f : Firmware) (h : j ≠ k) : (s.setFw k f).fw j = s.fw j := by
  simp [State.fw, State.setFw, getD_put_of_ne _ _ _ _ _ h]

/-! ## Units -/

@[simp] theorem State.now_setUnit (s : State) (u : UnitId) (r : UnitRec) : (s.setUnit u r).now = s.now := rfl
@[simp] theorem State.time_setUnit (s : State) (u : UnitId) (r : UnitRec) : (s.setUnit u r).time = s.time := rfl
@[simp] theorem State.inputs_setUnit (s : State) (u : UnitId) (r : UnitRec) : (s.setUnit u r).inputs = s.inputs := rfl
@[simp] theorem State.delays_setUnit (s : State) (u : UnitId) (r : UnitRec) : (s.setUnit u r).delays = s.delays := rfl
@[simp] theorem State.drawn_setUnit (s : State) (u : UnitId) (r : UnitRec) : (s.setUnit u r).drawn = s.drawn := rfl
@[simp] theorem State.cur_setUnit (s : State) (u : UnitId) (r : UnitRec) : (s.setUnit u r).cur = s.cur := rfl
@[simp] theorem State.cores_setUnit (s : State) (u : UnitId) (r : UnitRec) : (s.setUnit u r).cores = s.cores := rfl
@[simp] theorem State.dies_setUnit (s : State) (u : UnitId) (r : UnitRec) : (s.setUnit u r).dies = s.dies := rfl
@[simp] theorem State.queues_setUnit (s : State) (u : UnitId) (r : UnitRec) : (s.setUnit u r).queues = s.queues := rfl
@[simp] theorem State.launches_setUnit (s : State) (u : UnitId) (r : UnitRec) : (s.setUnit u r).launches = s.launches := rfl
@[simp] theorem State.graphs_setUnit (s : State) (u : UnitId) (r : UnitRec) : (s.setUnit u r).graphs = s.graphs := rfl
@[simp] theorem State.runs_setUnit (s : State) (u : UnitId) (r : UnitRec) : (s.setUnit u r).runs = s.runs := rfl
@[simp] theorem State.copies_setUnit (s : State) (u : UnitId) (r : UnitRec) : (s.setUnit u r).copies = s.copies := rfl
@[simp] theorem State.nextId_setUnit (s : State) (u : UnitId) (r : UnitRec) : (s.setUnit u r).nextId = s.nextId := rfl
@[simp] theorem State.vfs_setUnit (s : State) (u : UnitId) (r : UnitRec) : (s.setUnit u r).vfs = s.vfs := rfl
@[simp] theorem State.mem_setUnit (s : State) (u : UnitId) (r : UnitRec) : (s.setUnit u r).mem = s.mem := rfl
@[simp] theorem State.writes_setUnit (s : State) (u : UnitId) (r : UnitRec) : (s.setUnit u r).writes = s.writes := rfl
@[simp] theorem State.log_setUnit (s : State) (u : UnitId) (r : UnitRec) : (s.setUnit u r).log = s.log := rfl
@[simp] theorem State.host_setUnit (s : State) (u : UnitId) (r : UnitRec) : (s.setUnit u r).host = s.host := rfl
@[simp] theorem State.releases_setUnit (s : State) (u : UnitId) (r : UnitRec) : (s.setUnit u r).releases = s.releases := rfl
@[simp] theorem State.firmware_setUnit (s : State) (u : UnitId) (r : UnitRec) : (s.setUnit u r).firmware = s.firmware := rfl
@[simp] theorem State.streams_setUnit (s : State) (u : UnitId) (r : UnitRec) : (s.setUnit u r).streams = s.streams := rfl
@[simp] theorem State.ports_setUnit (s : State) (u : UnitId) (r : UnitRec) : (s.setUnit u r).ports = s.ports := rfl
@[simp] theorem State.portIn_setUnit (s : State) (u : UnitId) (r : UnitRec) : (s.setUnit u r).portIn = s.portIn := rfl
@[simp] theorem State.portOut_setUnit (s : State) (u : UnitId) (r : UnitRec) : (s.setUnit u r).portOut = s.portOut := rfl
@[simp] theorem State.boot_setUnit (s : State) (u : UnitId) (r : UnitRec) : (s.setUnit u r).boot = s.boot := rfl
@[simp] theorem State.pkg_setUnit (s : State) (u : UnitId) (r : UnitRec) : (s.setUnit u r).pkg = s.pkg := rfl
@[simp] theorem State.worlds_setUnit (s : State) (u : UnitId) (r : UnitRec) : (s.setUnit u r).worlds = s.worlds := rfl
@[simp] theorem State.seals_setUnit (s : State) (u : UnitId) (r : UnitRec) : (s.setUnit u r).seals = s.seals := rfl
@[simp] theorem State.out_setUnit (s : State) (u : UnitId) (r : UnitRec) : (s.setUnit u r).out = s.out := rfl
@[simp] theorem State.core_setUnit (s : State) (u : UnitId) (r : UnitRec) (n : Nat) : (s.setUnit u r).core n = s.core n := rfl
@[simp] theorem State.die_setUnit (s : State) (u : UnitId) (r : UnitRec) (d0 : Nat) : (s.setUnit u r).die d0 = s.die d0 := rfl
@[simp] theorem State.vf_setUnit (s : State) (u : UnitId) (r : UnitRec) (v : Nat) : (s.setUnit u r).vf v = s.vf v := rfl
@[simp] theorem State.launch?_setUnit (s : State) (u : UnitId) (r : UnitRec) (l : Nat) : (s.setUnit u r).launch? l = s.launch? l := rfl

/-! ## Drawn orders -/

theorem pickNext_perm {α : Type} (l : List α) (done k : Nat) : (pickNext l done k).Perm l := by
  unfold pickNext
  simp only []
  split
  · rename_i x h
    obtain ⟨hi, rfl⟩ := List.getElem?_eq_some_iff.mp h
    exact ((List.getElem_cons_eraseIdx_perm hi).append_left (l.take done)).trans (by rw [List.take_append_drop])
  · exact List.Perm.refl l

/-- A drawn order of a list is a permutation of it, and drawing it changes the two fields of the choices alone. -/
theorem State.shuffle_spec (s : State) (l : List Nat) :
    (s.shuffle l).1.Perm l ∧
      (s.shuffle l).2 = { s with delays := (s.shuffle l).2.delays, drawn := (s.shuffle l).2.drawn } := by
  unfold State.shuffle
  generalize List.range (l.length - 1) = is
  suffices ∀ (is : List Nat) (e : List Nat × State), e.1.Perm l →
      e.2 = { s with delays := e.2.delays, drawn := e.2.drawn } →
      let r := is.foldl (fun (e : List Nat × State) i => let (k, t) := e.2.draw; (pickNext e.1 i k, t)) e
      r.1.Perm l ∧ r.2 = { s with delays := r.2.delays, drawn := r.2.drawn } from this is (l, s) (List.Perm.refl l) rfl
  intro is
  induction is with
  | nil => intro e h1 h2; exact ⟨h1, h2⟩
  | cons i is ih =>
    intro e h1 h2
    refine ih _ ((pickNext_perm _ _ _).trans h1) ?_
    obtain ⟨l', t⟩ := e
    simp only at h2 ⊢
    rw [h2]
    unfold State.draw
    split <;> rfl

/-! ## Links (R410) -/

theorem Port.not_up_of_training (x : Port) (h : x.state = 1) : x.up = false := by
  unfold Port.up
  rw [h]
  decide

/-- What comes over a link that carries traffic, with nothing before it, acts at once. -/
theorem State.viaPort_open (s : State) (p : Nat) (i : Instr) (act : Host.Outcome State Fault Refusal) (h : (s.portLink p).up = true)
    (hq : ∀ e ∈ s.portIn, e.1 ≠ p) : s.viaPort p i act = act := by
  have : s.portIn.all (fun e => e.1 != p) = true := List.all_eq_true.mpr (fun e he => by simpa using hq e he)
  simp [State.viaPort, h, this]

/-- What comes over a link that trains waits. -/
theorem State.viaPort_training (s : State) (p : Nat) (i : Instr) (act : Host.Outcome State Fault Refusal) (h : (s.portLink p).state = 1) :
    s.viaPort p i act = .next { s with portIn := s.portIn ++ [(p, i)] } := by
  simp [State.viaPort, Port.not_up_of_training _ h, h]

/-- What goes out over a link that carries traffic, with nothing before it, arrives at once. -/
theorem State.toLink_open (s : State) (p : Nat) (m : HostMsg) (h : (s.portLink p).up = true) (hq : ∀ e ∈ s.portOut, e.1 ≠ p) :
    s.toLink p m = s.reachHost m := by
  have : s.portOut.all (fun e => e.1 != p) = true := List.all_eq_true.mpr (fun e he => by simpa using hq e he)
  simp [State.toLink, h, this]

/-- What goes out over a link that trains waits. -/
theorem State.toLink_training (s : State) (p : Nat) (m : HostMsg) (h : (s.portLink p).state = 1) :
    s.toLink p m = { s with portOut := s.portOut ++ [(p, m)] } := by
  simp [State.toLink, Port.not_up_of_training _ h, h]

end Sys2Proof.Machine
end

