-- ==== Sys2Proof/Tests/Slice0.lean ====
section
/-! SUPPORT. The model's own tests: the WellFormed smoke, words written out from the encoding tables, one small step of each family with
values of the manual or of hand calculation, and for every statement a state and operands that meet its hypotheses. -/

set_option Elab.async false

namespace Sys2Proof.Tests

open Sys2Proof Sys2Proof.Machine

/-! ## Helpers -/

/-- Core 0 runs an image of one NOP bundle. -/
def base : State := { State.reset.withFetchWord 64 0 with delays := List.replicate 64 0 }

/-- The same with core 0 changed. -/
def on (f : Core → Core) : State := base.updCore 0 f

/-- Core 0 with pc p and the given loops, in an image of p + 2 lines. -/
def looped (p : Nat) (loops : List LoopEntry) : State :=
  (State.reset.updCore 0 (fun c => { c with regs := { c.regs with pc := BitVec.ofNat 24 p, loops } })).withFetchWord 64 0

/-- Core 0 with one scalar set. -/
def withS (r : Nat) (v : Word) : Core → Core := fun c => { c with regs := { c.regs with s := vset c.regs.s r v } }

/-- Core 0 with one A slice set. -/
def withA (i : Nat) (v : SliceLine) : Core → Core := fun c => { c with sliceA := put c.sliceA i v }

/-- Core 0 with a condition and a target. -/
def withJ (j : Nat) (v : Bool) (t : BitVec 24) : Core → Core := fun c =>
  { c with regs := { c.regs with jc := vset c.regs.jc j v, jt := vset c.regs.jt j t } }

/-- The state after one instruction of core 0. -/
def after (i : Instr) (s : State) : State :=
  match exec i s with
  | .next t => t
  | _ => s

/-- The results that an instruction records, as (slot, cycles from now, value). -/
def recorded (i : Instr) (s : State) : List (Nat × Nat × ResVal) :=
  ((after i s).core 0).results.map (fun r => (r.slot, r.land - s.now, r.val))

/-- The first lanes of the slices that an instruction records: (slot, latency, lanes 0 and 1). -/
def lanesOf (i : Instr) (s : State) : List (Nat × Nat × Nat × Nat) :=
  ((after i s).core 0).results.map (fun r => match r.val with
    | .slices _ _ _ lines => (r.slot, r.land - s.now, laneOf lines 0, laneOf lines 1)
    | _ => (r.slot, r.land - s.now, 0, 0))

/-- A row of slices that holds `a` in lane 0, `b` in lane 1 and 0 in the others, w slices wide from start. -/
def withLanes (cl : Bool) (start w a b : Nat) : Core → Core := fun c =>
  (List.range w).foldl (fun (c : Core) i => c.putSlice cl (start + i) (BitVec.ofNat 1024 (a / 16 ^ i % 16 + 16 * (b / 16 ^ i % 16)))
    (BitVec.allOnes 256)) c

/-- Bytes of a typed buffer of core 0. -/
def withBuf (b : Buf) (off n v : Nat) : Core → Core := fun c => c.setBuf b (Memory.writeN (c.buf b) off n v)

/-! ## Well-formedness -/

/-- For each check of R72 on one instruction a term that it refuses, and next to it one that it takes. -/
theorem test_ill_formed_operand : [Instr.prep 12 0, .br 15, .brn 12, .calli 1 0, .pool 0, .ceq .sa 12 0 0, .clti .sb 63 0 0, .sel .sa 1 2 3 12,
    .agen .sa 1 2 3 7, .rdli .sa 1 6, .rdjt .sa 1 12, .vadd .va 0 0 false ⟨3072, 0⟩ ⟨0, 0⟩ ⟨0, 0⟩, .vmov .va 0 0 false ⟨3071, 1⟩ ⟨0, 0⟩,
    .vceq .va 0 0 16 ⟨0, 0⟩ ⟨0, 0⟩, .vcmpu .va 0 12 0, .vcmpu .va 0 0 16, .kand .vb 16 0 0, .knot .va 0 16, .mma 0 0 0 2045 0,
    .mma 0 0 0 0 4093, .mcvt 1 0 true ⟨0, 6⟩, .mstc 1 0 1921, .slda 15 32753, .ldv 0 0 0 false ⟨3057, 15⟩, .stk 0 0 0 0 false 16,
    .atadd 0 0 0 1 0, .atcas 0 0 0 0 0 0, .fill 0 2047 30721, .park 4095 false ⟨0, 1⟩, .unpk 4081 false ⟨0, 15⟩].all
      (fun i => !wellFormed i && (instrReasons i).operand) = true := by decide

theorem test_well_formed_limits : [Instr.prep 11 0, .calli 1 1, .pool 8191, .ceq .sa 11 0 0, .sel .sa 1 2 3 11, .agen .sa 1 2 3 6, .rdli .sa 1 5,
    .vadd .va 0 0 true ⟨3071, 0⟩ ⟨3056, 15⟩ ⟨0, 0⟩, .vceq .va 0 0 15 ⟨0, 0⟩ ⟨0, 0⟩, .mma 0 0 0 2044 4092, .mcvt 1 0 true ⟨0, 7⟩,
    .mstc 1 0 1920, .slda 15 32752, .atadd 0 0 0 2 0, .fill 0 2047 30720, .park 4080 false ⟨0, 15⟩].all wellFormed = true := by decide

theorem test_ill_formed_type : [Instr.vadd .va 13 0 false ⟨0, 0⟩ ⟨0, 0⟩ ⟨0, 0⟩, .vadd .va 15 0 false ⟨0, 0⟩ ⟨0, 0⟩ ⟨0, 0⟩, .vand .va 8 0 ⟨0, 0⟩ ⟨0, 0⟩ ⟨0, 0⟩,
    .vcvt .va 0 0 false ⟨0, 0⟩ ⟨0, 0⟩ 15, .vsel .va 15 0 ⟨0, 0⟩ ⟨0, 0⟩ ⟨0, 0⟩, .vredmax .va 13 0 ⟨0, 0⟩ ⟨0, 0⟩, .vlane .va 9 0 ⟨0, 0⟩, .vpack .va 9 0 false ⟨0, 0⟩ ⟨0, 0⟩ 0x13,
    .vunpk .va 0 0 ⟨0, 0⟩ ⟨0, 0⟩ 9, .vdiv 3 0 ⟨0, 0⟩ ⟨0, 0⟩ ⟨0, 0⟩, .vrcp 8 0 ⟨0, 0⟩ ⟨0, 0⟩, .vrcpl 10 0 ⟨0, 0⟩ ⟨0, 0⟩, .vsumx .va 12 0 ⟨0, 0⟩ ⟨0, 0⟩, .mma 0 1 0 0 0,
    .mma 0x18 0 0 0 0, .mcvt 2 0 false ⟨0, 15⟩, .mldc 0x0A 0 false ⟨0, 15⟩, .mstc 0x10 0 0].all (fun i => !wellFormed i && (instrReasons i).type)
      = true := by decide

theorem test_ill_formed_csr_and_sat : [Instr.csrr 1 7, .csrr 1 12, .csrw 0 1, .csrw 2 1].all (fun i => !wellFormed i && (instrReasons i).csr) = true ∧
    wellFormed (.csrr 1 6) = true ∧ wellFormed (.csrw 1 1) = true ∧
    wellFormed (.vadd .va 9 0 true ⟨0, 7⟩ ⟨0, 7⟩ ⟨0, 7⟩) = false ∧ wellFormed (.vadd .va 3 0 true ⟨0, 7⟩ ⟨0, 7⟩ ⟨0, 7⟩) = true := by decide

/-- Words with one reason each: an unassigned code, a code of `vb` in `va`, a zero field that is not zero, TY where no type is taken, SAT where
it is not accepted (R53, R58, R64, R69, R72). -/
theorem test_word_reasons : (slotReasons .sa 0x5600000000000000).opcode = true ∧ slotReasons .va 0x6200000000000000 = { opcode := true } ∧
    slotReasons .sa 0x0200000000000001 = { reserved := true } ∧ slotReasons .va 0x4120000000000000 = { type := true } ∧
    slotReasons .va 0x0C01000000000000 = { reserved := true } ∧ slotReasons .ct 0x0180000000000000 = Reasons.none ∧
    slotReasons .ct 1 = { reserved := true } := by decide

/-! ## Words of the encoding tables -/

/-- Every word reads as its instruction, which is well-formed and encodes to it. -/
def readAll (sl : Slot) (rows : List (Nat × Instr)) : Bool :=
  rows.all (fun r => decodeSlot sl r.1 == some r.2 && encodeWord r.2 == r.1 && wellFormed r.2)

/-- Control slot: words of R62, written from its bit ranges. -/
theorem test_decode_control : readAll .ct [
    (0x0000000000000000, .nop .ct),
    (0x0258000000ABCDEF, .prep 11 0xABCDEF),
    (0x0428000000000000, .br 5),
    (0x0650000000000000, .brn 10),
    (0x0800000000123456, .jmp 0x123456),
    (0x0A00000000654321, .call 0x654321),
    (0x0C5A0000000000C3, .calli 45 0xC3),
    (0x0E00000000000000, .ret),
    (0x104A000000100001, .loop 37 0x100001),
    (0x124091A280900009, .loopi 0x812345 0x900009),
    (0x1400000000000000, .lexit),
    (0x1668000000000000, .step 13),
    (0x186300A400000000, .bari 99 41),
    (0x1A4D5A0000000000, .bara 77 0x5A),
    (0x1C7F000000000000, .barw 127),
    (0x1E40A50000000000, .baraw 64 0xA5),
    (0x2040800000000000, .fence 0x81),
    (0x2267200000000000, .txwait 51 9),
    (0x240000000000BEEF, .trap 0xBEEF),
    (0x2600000000000000, .halt),
    (0x284200000000000B, .csrr 33 11),
    (0x2A44000000000001, .csrw 1 34),
    (0x2C00000000001FFF, .pool 8191)] = true := by decide

/-- Scalar slots: words of R63 and R68, here in `sb`. -/
theorem test_decode_scalar_1 : readAll .sb [
    (0x0000000000000000, .nop .sb),
    (0x0239668000000000, .add .sb 7 11 13),
    (0x0472CD0000000000, .sub .sb 14 22 26),
    (0x08AC338000000000, .mul .sb 21 33 39),
    (0x0AE59A0000000000, .mulh .sb 28 44 52),
    (0x0D1EE08000000000, .mulhu .sb 35 55 1),
    (0x0F50470000000000, .div .sb 42 2 14),
    (0x1189AD8000000000, .divu .sb 49 13 27),
    (0x13C3140000000000, .rem .sb 56 24 40),
    (0x15FC7A8000000000, .remu .sb 63 35 53),
    (0x1635C10000000000, .and .sb 6 46 2),
    (0x186F278000000000, .or .sb 13 57 15),
    (0x1AA08E0000000000, .xor .sb 20 4 28),
    (0x22D9F48000000000, .shl .sb 27 15 41),
    (0x25135B0000000000, .shr .sb 34 26 54),
    (0x274CA18000000000, .sra .sb 41 37 3),
    (0x2F86080000000000, .min .sb 48 48 16),
    (0x31BF6E8000000000, .max .sb 55 59 29),
    (0x33F0D50000000000, .minu .sb 62 6 42),
    (0x342A3B8000000000, .maxu .sb 5 17 55),
    (0x3603820000000000, .ceq .sb 0 28 4),
    (0x383CE88000000000, .cne .sb 7 39 17),
    (0x3A164F0000000000, .clt .sb 2 50 30),
    (0x3C4FB58000000000, .cltu .sb 9 61 43),
    (0x0741000080000038, .addi .sb 40 8 2147483704),
    (0x1D7A600080000005, .andi .sb 47 19 2147483653),
    (0x1FB3C00080000012, .ori .sb 54 30 2147483666),
    (0x21ED20008000001F, .xori .sb 61 41 2147483679),
    (0x282680000000002C, .shli .sb 4 52 44),
    (0x2A5FE00000000039, .shri .sb 11 63 57)] = true := by decide

/-- Scalar slots: words of R63 and R68, here in `sb`. -/
theorem test_decode_scalar_2 : readAll .sb [
    (0x2C91400000000006, .srai .sb 18 10 6),
    (0x3E0AA000FFFF0013, .ceqi .sb 1 21 4294901779),
    (0x40440000FFFF0020, .clti .sb 8 32 4294901792),
    (0x4338F0000000002D, .movi .sb 39 263882790666285),
    (0x4570F0000000003A, .movih .sb 46 263882790666298),
    (0x4649458E00000000, .sel .sb 9 10 11 7),
    (0x49A8200000000000, .clz .sb 53 1),
    (0x4BE1800000000000, .ctz .sb 60 12),
    (0x4C1AE00000000000, .popc .sb 3 23),
    (0x4E49458C00000000, .agen .sb 9 10 11 6),
    (0x51E0A00000000000, .rdli .sb 60 5),
    (0x53E9600000000000, .rdjt .sb 61 11),
    (0x55F0000000000000, .rdxy .sb 62)] = true := by decide

/-- The same map in `sa` (R68). -/
theorem test_decode_scalar_sa : readAll .sa [
    (0x0239668000000000, .add .sa 7 11 13),
    (0x0472CD0000000000, .sub .sa 14 22 26)] = true := by decide

/-- Vector slots: words of R64 and R69, here in `va`. -/
theorem test_decode_vector_1 : readAll .va [
    (0x0000000000000000, .nop .va),
    (0x022918D531AA4A7F, .vadd .va 1 4 true ⟨397, 5⟩ ⟨794, 10⟩ ⟨1191, 15⟩),
    (0x044B63447C1994EE, .vsub .va 2 5 true ⟨1588, 4⟩ ⟨1985, 9⟩ ⟨2382, 14⟩),
    (0x066DADB30B0823DD, .vmul .va 3 6 true ⟨2779, 3⟩ ⟨176, 8⟩ ⟨573, 13⟩),
    (0x093E3CA255776E4C, .vfma .va 9 15 false ⟨970, 2⟩ ⟨1367, 7⟩ ⟨1764, 12⟩),
    (0x0B3E87119FE6B8BB, .vfms .va 9 15 false ⟨2161, 1⟩ ⟨2558, 6⟩ ⟨2955, 11⟩),
    (0x0D0216002ED547AA, .vmin .va 8 1 ⟨352, 0⟩ ⟨749, 5⟩ ⟨1146, 10⟩),
    (0x0F02607F79449219, .vmax .va 8 1 ⟨1543, 15⟩ ⟨1940, 4⟩ ⟨2337, 9⟩),
    (0x1065AAEE08330000, .vabs .va 3 2 true ⟨2734, 14⟩ ⟨131, 3⟩),
    (0x1265210839DD0000, .vneg .va 3 2 true ⟨528, 8⟩ ⟨925, 13⟩),
    (0x14E552A26B77FACE, .vaddi .va 7 2 true ⟨1322, 2⟩ ⟨1719, 7⟩ 64206),
    (0x16E5844C9D11FACE, .vmuli .va 7 2 true ⟨2116, 12⟩ ⟨2513, 1⟩ 64206),
    (0x18D8B5E6133B2C00, .vand .va 6 12 ⟨2910, 6⟩ ⟨307, 11⟩ ⟨704, 0⟩),
    (0x1ADA44D55DAA767F, .vor .va 6 13 ⟨1101, 5⟩ ⟨1498, 10⟩ ⟨1895, 15⟩),
    (0x1CDC8F44A819056E, .vxor .va 6 14 ⟨2292, 4⟩ ⟨2689, 9⟩ ⟨86, 14⟩),
    (0x20C01E3337084FDD, .vshl .va 6 0 ⟨483, 3⟩ ⟨880, 8⟩ ⟨1277, 13⟩),
    (0x22C268A281779A4C, .vshr .va 6 1 ⟨1674, 2⟩ ⟨2071, 7⟩ ⟨2468, 12⟩),
    (0x24C4B3111066293B, .vsra .va 6 2 ⟨2865, 1⟩ ⟨262, 6⟩ ⟨659, 11⟩),
    (0x1EA642005AD50000, .vnot .va 5 3 ⟨1056, 0⟩ ⟨1453, 5⟩),
    (0x268673AA8C7F003B, .vshli .va 4 3 ⟨1850, 10⟩ ⟨2247, 15⟩ 59),
    (0x2888A5440299003C, .vshri .va 4 4 ⟨2644, 4⟩ ⟨41, 9⟩ 60),
    (0x2A8A1B6E3433003D, .vsrai .va 4 5 ⟨438, 14⟩ ⟨835, 3⟩ 61),
    (0x2DAD4D0865DD000E, .vcvt .va 13 6 true ⟨1232, 8⟩ ⟨1629, 13⟩ 14),
    (0x2E4F7EA297770000, .vmov .va 2 7 true ⟨2026, 2⟩ ⟨2423, 7⟩),
    (0x3150B04C00003F80, .vbri .va 10 8 ⟨2820, 12⟩ 0x3F80),
    (0x33920D9100000032, .vsplat .va 12 9 ⟨217, 1⟩ 50),
    (0x35D426663F3B5800, .vsel .va 14 10 ⟨614, 6⟩ ⟨1011, 11⟩ ⟨1408, 0⟩),
    (0x3776000C70D589AA, .vceq .va 11 11 12 ⟨1805, 5⟩ ⟨2202, 10⟩),
    (0x3978000DA27FBB44, .vcne .va 11 12 13 ⟨2599, 15⟩ ⟨2996, 4⟩),
    (0x3B7A000E1899316E, .vclt .va 11 13 14 ⟨393, 9⟩ ⟨790, 14⟩)] = true := by decide

/-- Vector slots: words of R64 and R69, here in `va`. -/
theorem test_decode_vector_2 : readAll .va [
    (0x3D7C000F4A336308, .vcle .va 11 14 15 ⟨1187, 3⟩ ⟨1584, 8⟩),
    (0x3E08000B000F0000, .vcmpu .va 4 11 15),
    (0x400000010006000B, .kand .va 1 6 11),
    (0x420000020007000C, .kor .va 2 7 12),
    (0x440000030008000D, .kxor .va 3 8 13),
    (0x460000040009000E, .kandn .va 4 9 14),
    (0x48000008000D0000, .knot .va 8 13),
    (0x4A277BDD94A20000, .vredadd .va 1 3 true ⟨1981, 13⟩ ⟨2378, 2⟩),
    (0x4D28AD770ACC0000, .vredmax .va 9 4 ⟨2775, 7⟩ ⟨172, 12⟩),
    (0x4F2823913C660000, .vredmin .va 9 4 ⟨569, 1⟩ ⟨966, 6⟩),
    (0x5128553B6E0086D5, .vperm .va 9 4 ⟨1363, 11⟩ ⟨1760, 0⟩ ⟨2157, 5⟩),
    (0x53289FAAB87F00FF, .vrot .va 9 4 ⟨2554, 10⟩ ⟨2951, 15⟩ 255),
    (0x54B215C400000000, .vlane .va 5 9 ⟨348, 4⟩),
    (0x56082E99476E0000, .xmov .va 4 ⟨745, 9⟩ ⟨1142, 14⟩),
    (0x5928603379080009, .vpack .va 9 4 false ⟨1539, 3⟩ ⟨1936, 8⟩ 9),
    (0x5A4891DDAAA20017, .vunpk .va 2 4 ⟨2333, 13⟩ ⟨2730, 2⟩ 23),
    (0x5C0807F720CC0000, .vclz .va 0 4 ⟨127, 7⟩ ⟨524, 12⟩),
    (0x5E08399152660000, .vpop .va 0 4 ⟨921, 1⟩ ⟨1318, 6⟩),
    (0x6F486B3B84000000, .vsumx .va 10 4 ⟨1715, 11⟩ ⟨2112, 0⟩)] = true := by decide

/-- The map in `vb`, and the long operations that stand there only (R69). -/
theorem test_decode_vector_vb : readAll .vb [
    (0x022918D531AA4A7F, .vadd .vb 1 4 true ⟨397, 5⟩ ⟨794, 10⟩ ⟨1191, 15⟩),
    (0x044B63447C1994EE, .vsub .vb 2 5 true ⟨1588, 4⟩ ⟨1985, 9⟩ ⟨2382, 14⟩),
    (0x618A9CD5B5AA12FF, .vdiv 12 5 ⟨2509, 5⟩ ⟨2906, 10⟩ ⟨303, 15⟩),
    (0x630A2BC444990000, .vsqrt 8 5 ⟨700, 4⟩ ⟨1097, 9⟩),
    (0x656C5D6E76330000, .vrcp 11 6 ⟨1494, 14⟩ ⟨1891, 3⟩),
    (0x676C8F08A7DD0000, .vrsq 11 6 ⟨2288, 8⟩ ⟨2685, 13⟩),
    (0x696C05221DF70000, .vexp2 11 6 ⟨82, 2⟩ ⟨479, 7⟩),
    (0x6B6C36CC4F910000, .vlog2 11 6 ⟨876, 12⟩ ⟨1273, 1⟩),
    (0x6D2C6866813B0000, .vrcpl 9 6 ⟨1670, 6⟩ ⟨2067, 11⟩)] = true := by decide

/-- Matrix slot: words of R65 and R70. -/
theorem test_decode_matrix : readAll .mx [
    (0x0000000000000000, .nop .mx),
    (0x030551F53E900000, .mma 16 10 10 501 1001),
    (0x053A59F63EA00000, .mmz 19 20 11 502 1002),
    (0x0654E1F73EB00000, .mmat 5 9 12 503 1003),
    (0x083269F83EC00000, .mmzt 3 4 13 504 1004),
    (0x0A00780000000000, .mclr 15),
    (0x0C003C8000000000, .maddc 7 9),
    (0x0E10380000012BCF, .mcvt 1 7 true ⟨700, 15⟩),
    (0x117040000001320F, .mldc 23 8 true ⟨800, 15⟩),
    (0x124048000001384F, .mbias 4 9 true ⟨900, 15⟩),
    (0x14201F8000000000, .mstc 2 3 1920)] = true := by decide

/-- Load/store slot: words of R66 and R71. -/
theorem test_decode_loadstore : readAll .ls [
    (0x0000000000000000, .nop .ls),
    (0x023DF80AFFFFFFF8, .lds 61 62 2 true 0xFFFFFFF8),
    (0x0541080C7FFFFFFF, .sts 5 1 2 3 0x7FFFFFFF),
    (0x060A017FFFFFBF0F, .ldv 10 5 0x1FFFFF true ⟨3056, 15⟩),
    (0x09CB01A00000BF0F, .stv 7 11 6 0x100000 false ⟨3056, 15⟩),
    (0x0A0C35C1579BBF0F, .ldvs 12 13 7 0x0ABCD true ⟨3056, 15⟩),
    (0x0CCE3E03579ABF0F, .stvs 3 14 15 8 0x1ABCD false ⟨3056, 15⟩),
    (0x0E1002600081BF0F, .ldvx 16 9 ⟨2048, 2⟩ true ⟨3056, 15⟩),
    (0x109102A00080BF0F, .stvx 2 17 10 ⟨2048, 2⟩ false ⟨3056, 15⟩),
    (0x121202C2468ABF0F, .ldvb 18 11 0x12345 false ⟨3056, 15⟩),
    (0x1414A00880000000, .atadd 0 20 40 2 2147483648),
    (0x1655A40C80000001, .atmin 1 21 41 3 2147483649),
    (0x1896A80880000002, .atmax 2 22 42 2 2147483650),
    (0x1AD7AC0C80000003, .atminu 3 23 43 3 2147483651),
    (0x1D18B00880000004, .atmaxu 4 24 44 2 2147483652),
    (0x1F59B40C80000005, .atand 5 25 45 3 2147483653),
    (0x219AB80880000006, .ator 6 26 46 2 2147483654),
    (0x23DBBC0C80000007, .atxch 7 27 47 3 2147483655),
    (0x25B2CF4C00001234, .atcas 6 50 51 52 3 0x1234),
    (0x2635000000004321, .pref 53 0x4321),
    (0x2836DC0000000010, .txinit 54 55 0x10),
    (0x2A38E40000000020, .txarv 56 57 0x20),
    (0x2C3A03000067000F, .ldk 58 12 0x33 true 15),
    (0x2E7B03400088000E, .stk 1 59 13 0x44 false 14)] = true := by decide

/-- Scale, fill and park slot: words of R67 and R71. -/
theorem test_decode_fill : readAll .sf [
    (0x0000000000000000, .nop .sf),
    (0x03FFFF0000007800, .fill 63 2047 30720),
    (0x04000000FF01001F, .park 4080 true ⟨1, 15⟩),
    (0x060000000010001F, .unpk 1 false ⟨1, 15⟩),
    (0x09E00000FFE00000, .slda 15 32752),
    (0x0AE0000024680000, .sldb 7 0x1234)] = true := by decide

/-- The bundle of R81: MARK, ADDI s5, s5, 64 and VADD.f32 A0.8, A8.8, A16.8. -/
theorem test_bundle_of_the_manual :
    let l : Line := BitVec.ofNat 512 (0x0100000000000000 + 0x0628A00000000040 * 2 ^ 64 + 0x0320000700870107 * 2 ^ 192)
    let b := decodeLine l
    b.mark = true ∧ b.segb = false ∧ b.bad = [] ∧
      b.work = [.addi .sa 5 5 64, .vadd .va 9 0 false ⟨0, 7⟩ ⟨8, 7⟩ ⟨16, 7⟩] ∧ encodeBundle b.work true false = l := by decide +kernel

/-! ## One step of each family -/

theorem test_add_wraps : recorded (.add .sa 3 1 2) (on (withS 1 0xFFFFFFFFFFFFFFFF ∘ withS 2 2)) = [(1, 1, .scalar 3 1)] := by decide +kernel

theorem test_scalar_to_s0_is_discarded : recorded (.mul .sb 0 1 2) (on (withS 1 3 ∘ withS 2 5)) = [] := by decide +kernel

theorem test_mulh_signed : recorded (.mulh .sa 3 1 2) (on (withS 1 0xFFFFFFFFFFFFFFFF ∘ withS 2 2)) = [(1, 3, .scalar 3 0xFFFFFFFFFFFFFFFF)] ∧
    recorded (.mulhu .sa 3 1 2) (on (withS 1 0xFFFFFFFFFFFFFFFF ∘ withS 2 2)) = [(1, 3, .scalar 3 1)] := by decide +kernel

theorem test_division_corners : recorded (.div .sa 3 1 2) (on (withS 1 7)) = [(1, 20, .scalar 3 0xFFFFFFFFFFFFFFFF)] ∧
    recorded (.rem .sa 3 1 2) (on (withS 1 7)) = [(1, 20, .scalar 3 7)] ∧
    recorded (.div .sa 3 1 2) (on (withS 1 0x8000000000000000 ∘ withS 2 0xFFFFFFFFFFFFFFFF)) = [(1, 20, .scalar 3 0x8000000000000000)] ∧
    recorded (.rem .sa 3 1 2) (on (withS 1 0xFFFFFFFFFFFFFFF9 ∘ withS 2 2)) = [(1, 20, .scalar 3 0xFFFFFFFFFFFFFFFF)] := by decide +kernel

theorem test_sra_keeps_the_sign : recorded (.sra .sa 3 1 2) (on (withS 1 0x8000000000000000 ∘ withS 2 67)) = [(1, 1, .scalar 3 0xF000000000000000)] ∧
    recorded (.srai .sa 3 1 63) (on (withS 1 0x8000000000000000)) = [(1, 1, .scalar 3 0xFFFFFFFFFFFFFFFF)] := by decide +kernel

theorem test_immediates : recorded (.addi .sa 3 1 0xFFFFFFFF) (on (withS 1 5)) = [(1, 1, .scalar 3 4)] ∧
    recorded (.andi .sa 3 1 0xFFFFFFFF) (on (withS 1 0xFFFFFFFFFFFFFFFF)) = [(1, 1, .scalar 3 0xFFFFFFFF)] ∧
    recorded (.movi .sa 3 0x800000000000) base = [(1, 1, .scalar 3 0xFFFF800000000000)] ∧
    recorded (.movih .sa 3 0x800000000001) base = [(1, 1, .scalar 3 0x8000000000010000)] := by decide +kernel

theorem test_counts : recorded (.clz .sa 3 1) (on (withS 1 1)) = [(1, 2, .scalar 3 63)] ∧ recorded (.ctz .sa 3 1) base = [(1, 2, .scalar 3 64)] ∧
    recorded (.popc .sa 3 1) (on (withS 1 0xF0F)) = [(1, 2, .scalar 3 8)] := by decide +kernel

theorem test_compares : recorded (.clt .sb 2 1 0) (on (withS 1 0xFFFFFFFFFFFFFFFF)) = [(2, 1, .cond 2 true)] ∧
    recorded (.cltu .sb 2 1 0) (on (withS 1 0xFFFFFFFFFFFFFFFF)) = [(2, 1, .cond 2 false)] ∧
    recorded (.ceqi .sb 2 1 0xFFFFFFFF) (on (withS 1 0xFFFFFFFFFFFFFFFF)) = [(2, 1, .cond 2 true)] := by decide +kernel

theorem test_agen_and_sel : recorded (.agen .sa 3 1 2 6) (on (withS 1 0x1000 ∘ withS 2 3)) = [(1, 1, .scalar 3 0x10C0)] ∧
    recorded (.sel .sa 3 1 2 11) (on (withS 1 10 ∘ withS 2 20 ∘ withJ 11 true 0)) = [(1, 1, .scalar 3 10)] := by decide +kernel

/-- LOOP with trip 2 whose body ends at its own successor, at the first pass and at the last (R118, R119). -/
theorem test_loop_steps : ((after (.loopi 2 1) (looped 0 [])).core 0).regs.loops = [⟨2, 0, 1, 1⟩] ∧
    ((after (.nop .ct) (looped 1 [⟨2, 0, 1, 1⟩])).core 0).regs.pc = 1 ∧
    ((after (.nop .ct) (looped 1 [⟨2, 0, 1, 1⟩])).core 0).regs.loops = [⟨2, 1, 1, 1⟩] ∧
    ((after (.nop .ct) (looped 1 [⟨2, 1, 1, 1⟩])).core 0).regs.pc = 2 ∧
    ((after (.nop .ct) (looped 1 [⟨2, 1, 1, 1⟩])).core 0).regs.loops = [] := by decide +kernel

theorem test_transfers : ((after (.br 3) (on (withJ 3 true 1))).core 0).regs.pc = 1 ∧ ((after (.brn 3) (on (withJ 3 false 0))).core 0).regs.pc = 0 ∧
    ((after (.jmp 1) base).core 0).regs.pc = 1 ∧ recorded (.call 0) base = [(0, 1, .scalar 63 1)] ∧
    ((after .ret (on (withS 63 1))).core 0).regs.pc = 1 := by decide +kernel

theorem test_control_faults : ((after (.jmp 2) base).core 0).stop = some (.trap ⟨3, 1, 5, 0, 0⟩) ∧
    ((after .lexit base).core 0).stop = some (.trap ⟨3, 1, 2, 0, 0⟩) ∧ ((after (.step 0) base).core 0).stop = some (.trap ⟨3, 1, 9, 0, 0⟩) ∧
    ((after (.trap 0xBEEF) base).core 0).stop = some (.trap ⟨4, 1, 0xBEEF, 0, 0⟩) := by decide +kernel

theorem test_csr : recorded (.csrr 5 10) base = [(0, 2, .scalar 5 0)] ∧ recorded (.csrr 5 8) base = [(0, 2, .scalar 5 0x100000000)] ∧
    ((after (.csrw 1 7) (on (withS 7 4))).core 0).csrw = [(1, 4)] := by decide +kernel

theorem test_halt_drains : ((after .halt base).core 0).run = .draining ∧ ((after .halt base).core 0).stop = some .halt := by decide +kernel

/-- VADD.i8 with SAT saturates at 127 and wraps without (R93, R94). -/
theorem test_vadd_saturates : lanesOf (.vadd .va 0 0 true ⟨0, 1⟩ ⟨2, 1⟩ ⟨4, 1⟩) (on (withLanes false 2 2 100 1 ∘ withLanes false 4 2 100 255)) =
      [(3, 1, 127, 0)] ∧
    lanesOf (.vadd .va 0 0 false ⟨0, 1⟩ ⟨2, 1⟩ ⟨4, 1⟩) (on (withLanes false 2 2 100 1 ∘ withLanes false 4 2 100 255)) = [(3, 1, 200, 0)] := by
  decide +kernel

/-- 1.0 + 2.0 = 3.0 and 1.5 · 1.5 = 2.25 in FP32. -/
theorem test_vadd_float : lanesOf (.vadd .vb 9 0 false ⟨0, 7⟩ ⟨8, 7⟩ ⟨16, 7⟩) (on (withLanes true 8 8 0x3F800000 0 ∘ withLanes true 16 8 0x40000000 0)) =
      [(4, 4, 0x40400000, 0)] ∧
    lanesOf (.vmul .vb 9 0 false ⟨0, 7⟩ ⟨8, 7⟩ ⟨16, 7⟩) (on (withLanes true 8 8 0x3FC00000 0 ∘ withLanes true 16 8 0x3FC00000 0)) =
      [(4, 5, 0x40100000, 0)] := by decide +kernel

/-- One rounding in VFMA: (1 + 2^-12)² − 1 in FP32 is 2^-11 + 2^-24 (R161). -/
theorem test_vfma_rounds_once : lanesOf (.vfma .va 9 0 false ⟨0, 7⟩ ⟨8, 7⟩ ⟨8, 7⟩) (on (withLanes false 8 8 0x3F800800 0 ∘
    withLanes false 0 8 0xBF800000 0)) = [(3, 6, 0x3A000400, 0)] := by decide +kernel

theorem test_vabs_of_the_least : lanesOf (.vabs .va 0 0 false ⟨0, 1⟩ ⟨2, 1⟩) (on (withLanes false 2 2 0x80 0xFF)) = [(3, 1, 0x80, 1)] ∧
    lanesOf (.vabs .va 0 0 true ⟨0, 1⟩ ⟨2, 1⟩) (on (withLanes false 2 2 0x80 0xFF)) = [(3, 1, 0x7F, 1)] := by decide +kernel

theorem test_vector_shifts : lanesOf (.vsrai .va 0 0 ⟨0, 1⟩ ⟨2, 1⟩ 1) (on (withLanes false 2 2 0x80 7)) = [(3, 1, 0xC0, 3)] ∧
    lanesOf (.vshli .va 0 0 ⟨0, 1⟩ ⟨2, 1⟩ 1) (on (withLanes false 2 2 0x81 7)) = [(3, 1, 2, 14)] := by decide +kernel

theorem test_vcvt_rounds_to_even : lanesOf (.vcvt .va 2 0 false ⟨0, 7⟩ ⟨8, 7⟩ 9) (on (withLanes false 8 8 0x40200000 0x40600000)) =
    [(3, 4, 2, 4)] := by decide +kernel

theorem test_masks : recorded (.vceq .va 0 0 5 ⟨0, 1⟩ ⟨2, 1⟩) (on (withLanes false 0 2 1 0)) =
    [(3, 1, .mask false 5 (BitVec.allOnes 256 - 1) (BitVec.allOnes 256))] := by decide +kernel

theorem test_reductions : lanesOf (.vredadd .va 2 0 false ⟨0, 7⟩ ⟨8, 7⟩) (on (withLanes false 8 8 40 2)) = [(3, 4, 42, 42)] ∧
    lanesOf (.vredmin .va 2 0 ⟨0, 7⟩ ⟨8, 7⟩) (on (withLanes false 8 8 40 0xFFFFFFFE)) = [(3, 4, 0xFFFFFFFE, 0xFFFFFFFE)] := by decide +kernel

theorem test_cross_lane : lanesOf (.vrot .va 0 0 ⟨0, 1⟩ ⟨2, 1⟩ 1) (on (withLanes false 2 2 5 9)) = [(3, 2, 0, 5)] ∧
    lanesOf (.xmov .va 0 ⟨0, 1⟩ ⟨2, 1⟩) (on (withLanes false 2 2 5 9)) = [(3, 2, 5, 9)] ∧
    lanesOf (.vlane .vb 0 0 ⟨0, 1⟩) base = [(4, 1, 0, 1)] := by decide +kernel

/-- 1 / 4 and the square root of 4 in FP32. -/
theorem test_long_operations : lanesOf (.vdiv 9 0 ⟨0, 7⟩ ⟨8, 7⟩ ⟨16, 7⟩) (on (withLanes true 8 8 0x3F800000 0 ∘ withLanes true 16 8 0x40800000 0)) =
      [(4, 14, 0x3E800000, 0x7FC00000)] ∧
    lanesOf (.vsqrt 9 0 ⟨0, 7⟩ ⟨8, 7⟩) (on (withLanes true 8 8 0x40800000 0)) = [(4, 14, 0x40000000, 0)] ∧
    lanesOf (.vrcp 9 0 ⟨0, 7⟩ ⟨8, 7⟩) (on (withLanes true 8 8 0x40800000 0x40000000)) = [(4, 8, 0x3E800000, 0x3F000000)] := by decide +kernel

/-- The INT8 product of one row A = (3, -1) and one column B = (5, 7): 15 - 7 = 8 (R189, R190), and when MCLR lands (R201). -/
theorem test_matrix_product : matProduct ⟨1, 1, 2, 16, .int32, .plain, 0⟩ (.num (.int true 8)) (.num (.int true 8)) 0xFF03 0x0705 0 0 false (fun _ => 0) = 8 ∧
    ((after (.mclr 3) base).core 0).tiles.map (fun l => (l.tile, l.land, l.len, l.val)) = [(3, 1, 32768, 0)] := by decide +kernel

theorem test_scale_load : ((after (.slda 0 0) (on (withBuf .a 0 1 0x7F))).core 0).scales.map (fun w => (w.due, w.n, w.val)) = [(4, 16, 0x7F)] := by
  decide +kernel

/-- A signed byte load from the A buffer lands after 4 cycles, a W-buffer load after 8 (R211). -/
theorem test_scalar_loads : recorded (.lds 1 3 0 true 0) (on (withS 1 0x7F00000000000000 ∘ withBuf .a 0 1 0x80)) =
      [(6, 4, .scalar 3 0xFFFFFFFFFFFFFF80)] ∧
    recorded (.lds 1 3 1 false 0) (on (withS 1 0x7F00000000200000 ∘ withBuf .w 0 2 0x8001)) = [(6, 8, .scalar 3 0x8001)] := by decide +kernel

theorem test_scalar_store : Memory.readN ((after (.sts 0 1 2 2 4) (on (withS 1 0x7F00000000000000 ∘ withS 2 0x1122334455667788))).core 0).bufA 0 12 =
    0x5566778800000000 := by decide +kernel

/-- Width 1: lanes 0 and 1 take the two halves of the first byte (R219). -/
theorem test_vector_load : lanesOf (.ldv 1 0 0 false ⟨0, 0⟩) (on (withS 1 0x7F00000000000000 ∘ withBuf .a 0 1 0xA5)) = [(6, 4, 5, 10)] := by
  decide +kernel

theorem test_address_faults : ((after (.lds 1 3 0 false 0) (on (withS 1 0x10000000000000))).core 0).stop =
      some (.trap ⟨7, 0x40, 1, 0x10000000000000, 0⟩) ∧
    ((after (.lds 1 3 3 false 0) (on (withS 1 0x7F0000000007FFFC))).core 0).stop = some (.trap ⟨7, 0x40, 2, 0x7F0000000007FFFC, 0⟩) := by
  decide +kernel

/-- FILL of two units takes effect after 2 cycles (R232). -/
theorem test_fill : ((after (.fill 1 1 0) (on (withS 1 0xAB))).core 0).fills.map (fun w => (w.due, w.len, w.val % 2 ^ 65)) =
    [(2, 32, 0x100000000000000AB)] := by decide +kernel

/-- A global store enters its colour queue and changes no memory (R213). -/
theorem test_global_store_waits : let t := after (.sts 3 1 2 0 0) (on (withS 1 0x1000 ∘ withS 2 0x77))
    (t.core 0).queue.map (fun e => (e.col, e.bytes)) = [(3, [(0x1000, 0x77, 0xFF)])] ∧ t.mem = [] := by decide +kernel

/-- One cycle of the package issues the bundle and moves the time on by 10/11 ns (R6). -/
theorem test_step_issues : (match step (State.reset.withFetchWord 128 (0x0218828000000000 * 2 ^ 64)) with
    | .next t => ((t.core 0).regs.pc.toNat, t.now, (t.core 0).results.length, t.time.units)
    | _ => (0, 0, 0, 0)) = (1, 1, 0, 10000000) := by decide +kernel

/-! ## Witnesses: states and operands that meet the hypotheses of each statement -/

theorem witness_EncodedInstructionsDecodeBack : slotOf (.ldv 63 15 0x1FFFFF true ⟨3056, 15⟩) = some .ls ∧
    WellFormed (.ldv 63 15 0x1FFFFF true ⟨3056, 15⟩) := by unfold WellFormed; decide

theorem witness_EveryWordHasOneMeaning : (0x2C00000000001FFF < 2 ^ 64 ∧ decodeSlot .ct 0x2C00000000001FFF = some (.pool 8191)) ∧
    (0x2E00000000000000 < 2 ^ 64 ∧ 0x16 < 0x2E00000000000000 / 2 ^ 57) := by decide

/-- An event due, an event of a later cycle, and none. -/
theorem witness_StepTakesEventOrCycle :
    ({ base with inputs := [⟨0, .portRetrain 0⟩] } : State).inputs = ⟨0, .portRetrain 0⟩ :: [] ∧ 0 ≤ base.now ∧ base.inputs = [] ∧
    ({ base with inputs := [⟨1, .portRetrain 0⟩] } : State).inputs = ⟨1, .portRetrain 0⟩ :: [] ∧ base.now < 1 := by
  refine ⟨rfl, ?_, rfl, rfl, ?_⟩ <;> decide

/-- A bundle of ADD and VADD at the pc of core 0, which nothing holds. -/
def issuing : State := State.reset.placeLine (encodeBundle [.add .sa 3 4 5, .vadd .va 0 0 false ⟨0, 1⟩ ⟨2, 1⟩ ⟨4, 1⟩] false false)

theorem witness_StepIssuesTheDecodedBundle :
    let l := encodeBundle [.add .sa 3 4 5, .vadd .va 0 0 false ⟨0, 1⟩ ⟨2, 1⟩ ⟨4, 1⟩] false false
    (issuing.core 0).atBoundary issuing.now = true ∧ (issuing.core 0).pendNow = none ∧ (issuing.core 0).failed = false ∧
      (issuing.core 0).stopNext = none ∧ issuing.segmentStep 0 = issuing ∧ issuing.lineAt 0 (issuing.core 0).regs.pc.toNat = .line l ∧
      issuing.poolLine 0 (issuing.core 0).regs.pc.toNat = false ∧ (issuing.core 0).bound = 0 ∧ (decodeLine l).bad = [] ∧
      (stepTwo (decodeLine l)).1 = 0 ∧ issuing.hazards 0 (decodeLine l) = [] ∧ (decodeLine l).mark = false ∧
      issuing.holdOf 0 (decodeLine l) false = none ∧ issuing.issueChecks 0 (decodeLine l) = none ∧ (issuing.core 0).debugNow = false ∧
      (issuing.core 0).breakHits = 0 := by decide +kernel

/-- The same with the other clauses of the mark distance and of MARK: BOUND 3 at distance 3, and a MARK bundle on an idle scoreboard. -/
theorem witness_StepIssuesTheDecodedBundle_mark :
    let s := (State.reset.placeLine (encodeBundle [] true false)).updCore 0 (fun c => { c with bound := 3, markDist := 3 })
    let l := encodeBundle [] true false
    (s.core 0).atBoundary s.now = true ∧ s.segmentStep 0 = s ∧ s.lineAt 0 (s.core 0).regs.pc.toNat = .line l ∧
      (s.core 0).markDist < (s.core 0).bound.toNat + 1 ∧ (decodeLine l).bad = [] ∧ (decodeLine l).mark = true ∧ (s.core 0).busy s.now = false ∧
      s.holdOf 0 (decodeLine l) false = none ∧ s.issueChecks 0 (decodeLine l) = none := by decide +kernel

theorem witness_TimeNeverStepsBack : ∃ t, step base = .next t := ⟨_, rfl⟩

theorem witness_MemoriesStayCanonical : State.reset.MemoriesOk ∧ ∃ t, step State.reset = .next t := by
  refine ⟨⟨by decide, by decide, ?_, ?_⟩, _, rfl⟩
  · intro d
    unfold State.die vget
    split
    · rename_i h
      have : d = 0 ∨ d = 1 ∨ d = 2 ∨ d = 3 := by omega
      rcases this with rfl | rfl | rfl | rfl <;> rfl
    · rfl
  · intro n; rfl

theorem witness_ScalarRegisterForms : (6 : BitVec 6).toNat ≤ 6 := by decide

theorem witness_ScalarDivision : (base.core base.cur).sreg 2 = 0 ∧
    (let s := on (withS 1 0x8000000000000000 ∘ withS 2 0xFFFFFFFFFFFFFFFF)
     ((s.core s.cur).sreg 1).toInt = -(2 ^ 63 : Nat) ∧ ((s.core s.cur).sreg 2).toInt = -1 ∧ (s.core s.cur).sreg 2 ≠ 0) := by decide +kernel

theorem witness_ScalarImmediateReadAndCompareForms : (11 : BitVec 6).toNat < 12 ∧ (5 : BitVec 6).toNat < 6 ∧
    (base.core base.cur).sreg 1 = 0 ∧ ((on (withS 1 0x8000000000000000)).core 0).sreg 1 ≠ 0 := by decide +kernel

/-- Operands of each width, an integer that clamps, the greatest magnitudes, and a value on either side of the overflow of FP16. -/
theorem witness_NumberFormatsRoundAndPlace : (0 < 8 ∧ 0 < 4 ∧ 0xFFFF < 2 ^ (4 * 4) ∧ 8 ≤ 4 * 4) ∧ (4 * 2 ≤ 64 ∧ 0xFF < 2 ^ (4 * 2)) ∧
    FFmt.f16.maxFinite ≤ FFmt.f16.maxFinite ∧ FFmt.f16.hasInf = true ∧ FFmt.e4m3.hasInf = false ∧
    FFmt.f16.round (.fin false 65520 0) = FFmt.f16.infPattern ∧ FFmt.f16.round (.fin false 65519 0) = FFmt.f16.maxFinite ∧
    fitInt true 8 2 true 200 = 0x7F := by decide +kernel

/-- 1/3 and √2 in FP16, 1/3, 1/√2, 2^(1/2) and log2 3 in P12, by hand to one part in 2,048 (R98, R183). -/
theorem test_quotients_and_roots : FFmt.f16.div (.fin false 1 0) (.fin false 3 0) = 0x3555 ∧ FFmt.f16.sqrt (.fin false 2 0) = 0x3DA8 ∧
    FFmt.p12.recip (.fin false 3 0) = 125 * 2048 + 683 ∧ FFmt.p12.rsqrt (.fin false 2 0) = 126 * 2048 + 848 ∧
    FFmt.p12.exp2 (.fin false 1 (-1)) = 127 * 2048 + 848 ∧ FFmt.p12.log2 (.fin false 3 0) = 127 * 2048 + 1198 := by decide +kernel

/-- One pending result of each kind, the last not due. -/
def landing : State := { on (fun c => { c with results := [⟨1, 0, 1, [⟨.scalar, 63, 1⟩], 5, .scalar 63 7⟩, ⟨2, 0, 1, [⟨.cond, 11, 1⟩], 5, .cond 11 true⟩,
  ⟨3, 0, 0, [⟨.target, 0, 1⟩], 5, .target 0 9⟩, ⟨4, 0, 3, [⟨.maskA, 15, 1⟩], 5, .mask false 15 3 1⟩,
  ⟨5, 0, 3, [⟨.sliceA, 3071, 1⟩], 5, .slices false 3071 1 [0xFF]⟩, ⟨6, 0, 1, [⟨.scalar, 1, 1⟩], 6, .scalar 1 7⟩] }) with now := 5 }

theorem witness_ResultsLandOnTheirLocations :
    (landing.core 0).results.find? (fun x => x.id == 1) = some ⟨1, 0, 1, [⟨.scalar, 63, 1⟩], 5, .scalar 63 7⟩ ∧ 5 ≤ landing.now ∧
    (landing.core 0).results.find? (fun x => x.id == 2) = some ⟨2, 0, 1, [⟨.cond, 11, 1⟩], 5, .cond 11 true⟩ ∧
    (landing.core 0).results.find? (fun x => x.id == 3) = some ⟨3, 0, 0, [⟨.target, 0, 1⟩], 5, .target 0 9⟩ ∧
    (landing.core 0).results.find? (fun x => x.id == 4) = some ⟨4, 0, 3, [⟨.maskA, 15, 1⟩], 5, .mask false 15 3 1⟩ ∧
    (landing.core 0).results.find? (fun x => x.id == 5) = some ⟨5, 0, 3, [⟨.sliceA, 3071, 1⟩], 5, .slices false 3071 1 [0xFF]⟩ ∧
    (landing.core 0).results.find? (fun x => x.id == 6) = some ⟨6, 0, 1, [⟨.scalar, 1, 1⟩], 6, .scalar 1 7⟩ ∧ landing.now < 6 := by decide +kernel

/-- What these landings leave: the values of the statement's clauses. -/
theorem test_landings : ((after (.resultLanding 0 1) landing).core 0).sreg 63 = 7 ∧ ((after (.resultLanding 0 2) landing).core 0).cond 11 = true ∧
    ((after (.resultLanding 0 3) landing).core 0).target 0 = 9 ∧ ((after (.resultLanding 0 4) landing).core 0).mask false 15 = 1 ∧
    ((after (.resultLanding 0 5) landing).core 0).slice false 3071 = 0xF ∧ after (.resultLanding 0 6) landing = landing := by decide +kernel

/-- Loop stacks for each clause of LoopsOpenAndStep, at bundle 1 of an image of three lines. -/
theorem witness_LoopsOpenAndStep :
    (let s := looped 1 []; (s.core s.cur).regs.loops = [] ∧ 1 + 1 < s.imageLen s.cur) ∧
    (let s := looped 1 [⟨2, 0, 2, 0⟩]; (s.core s.cur).regs.loops = ⟨2, 0, 2, 0⟩ :: [] ∧ (2 : BitVec 24).toNat ≠ (s.core s.cur).regs.pc.toNat ∧
      1 + 1 < s.imageLen s.cur) ∧
    (let s := looped 1 [⟨2, 0, 1, 0⟩]; (1 : BitVec 24).toNat = (s.core s.cur).regs.pc.toNat ∧ (0 : BitVec 32).toNat + 1 < (2 : BitVec 32).toNat ∧
      (0 : BitVec 24).toNat < s.imageLen s.cur) ∧
    (let s := looped 1 [⟨2, 1, 1, 0⟩]; (s.core s.cur).regs.loops = [⟨2, 1, 1, 0⟩] ∧ (2 : BitVec 32).toNat ≤ (1 : BitVec 32).toNat + 1 ∧
      1 + 1 < s.imageLen s.cur) ∧
    (let s := looped 1 [⟨2, 1, 1, 0⟩, ⟨2, 0, 2, 0⟩]; (s.core s.cur).regs.loops = ⟨2, 1, 1, 0⟩ :: ⟨2, 0, 2, 0⟩ :: [] ∧
      (2 : BitVec 24).toNat ≠ (s.core s.cur).regs.pc.toNat ∧ 1 + 1 < s.imageLen s.cur) ∧
    (let s := looped 1 [⟨2, 1, 1, 0⟩, ⟨2, 0, 1, 0⟩]; (s.core s.cur).regs.loops = ⟨2, 1, 1, 0⟩ :: ⟨2, 0, 1, 0⟩ :: [] ∧
      (stepOn 1 [⟨2, 0, 1, 0⟩]).1 < s.imageLen s.cur) := by decide

/-- LOOP and LOOPI from bundle 1 to END 2 of an image of four lines: trips 0, 1 and 2^32 - 1, at depth 0 and at depth 5. -/
theorem witness_LoopsOpenAndStep_open :
    let img := fun (loops : List LoopEntry) (v : Word) => ((State.reset.updCore 0 (fun c => { c with regs := { c.regs with
      pc := 2, s := vset c.regs.s 1 v } })).withFetchWord 64 0).updCore 0 (fun c => { c with regs := { c.regs with pc := 1, loops } })
    (let s := img [] 0; (s.core s.cur).regs.pc.toNat < (2 : BitVec 24).toNat ∧ (2 : BitVec 24).toNat + 1 < s.imageLen s.cur ∧
      ((s.core s.cur).sreg 1).toNat = 0) ∧
    (let e : LoopEntry := ⟨9, 0, 2, 0⟩
     let s := img [e, e, e, e, e] 0xFFFFFFFF; ((s.core s.cur).sreg 1).toNat ≠ 0 ∧ ((s.core s.cur).sreg 1).toNat < 2 ^ 32 ∧
      (s.core s.cur).regs.loops.length < 6 ∧ (2 : BitVec 24).toNat ≤ e.last.toNat ∧ (s.core s.cur).regs.pc.toNat ≠ e.last.toNat ∧
      (s.core s.cur).regs.pc.toNat + 1 < s.imageLen s.cur) ∧
    (let s := img [] 0; (s.core s.cur).regs.pc.toNat < (3 : BitVec 24).toNat ∧ s.imageLen s.cur ≤ (3 : BitVec 24).toNat + 1) ∧
    (1 : BitVec 24) ≠ 0 := by decide

/-- LOOPI 2 to the last line of its image opens the loop; with trip 0 it leaves the image and raises TARGET (R110, R112, R118). -/
theorem test_loop_to_the_last_line :
    ((after (.loopi 2 1) (looped 0 [])).core 0).regs.loops = [⟨2, 0, 1, 1⟩] ∧
    ((after (.loopi 0 1) (looped 0 [])).core 0).stop = some (.trap ⟨3, 1, 5, 0, 0⟩) := by decide

theorem witness_TransfersSelectTheNextBundle :
    (let s := on (withJ 11 true 1); (11 : BitVec 4).toNat < 12 ∧ (s.core s.cur).cond 11 = true ∧ ((s.core s.cur).target 11).toNat < s.imageLen s.cur) ∧
    (let s := on (withJ 11 false 1); (s.core s.cur).cond 11 = false ∧ ((s.core s.cur).target 11).toNat < s.imageLen s.cur ∧
      (stepOn (s.core s.cur).regs.pc.toNat (s.core s.cur).regs.loops).1 < s.imageLen s.cur) ∧
    (1 : BitVec 24).toNat < base.imageLen base.cur ∧
    (let s := (on (withS 1 1)).updVf 0 (fun f => { f with images := [(0, { fetchImage 0 0 with classes := [(1, 7)] })] })
     ∃ im, s.imageOf s.cur = some im ∧ ((s.core s.cur).sreg 1).toNat < 2 ^ 24 ∧ (7 : BitVec 8) ≠ 0 ∧
      getD 0 im.classes ((s.core s.cur).sreg 1).toNat = (7 : BitVec 8).toNat ∧ ((s.core s.cur).sreg 1).toNat < s.imageLen s.cur) ∧
    (let s := on (withS 63 1); ((s.core s.cur).sreg 63).toNat < 2 ^ 24 ∧ ((s.core s.cur).sreg 63).toNat < s.imageLen s.cur) ∧
    (let s := looped 1 [⟨2, 0, 1, 0⟩]; (s.core s.cur).regs.loops ≠ [] ∧ 1 + 1 < s.imageLen s.cur) ∧
    (let s := (looped 1 []).updCore 0 (fun c => { c with regs := { c.regs with pc := 0 } })
     (1 : BitVec 13) ≠ 0 ∧ (1 : BitVec 13).toNat ≤ 8191 ∧ (s.core s.cur).regs.pc.toNat + 1 + (1 : BitVec 13).toNat < s.imageLen s.cur) := by
  refine ⟨by decide, by decide, by decide, ⟨_, rfl, by decide, by decide, by decide, by decide⟩, by decide, by decide, by decide⟩

theorem witness_ControlFaults :
    (let e : LoopEntry := ⟨9, 0, 2, 0⟩
     let s := looped 1 [e, e, e, e, e, e]; (1 : BitVec 24) ≠ 0 ∧ (s.core s.cur).regs.pc.toNat < (2 : BitVec 24).toNat ∧
      (s.core s.cur).regs.loops.length = 6 ∧ (2 : BitVec 24).toNat ≤ e.last.toNat ∧ (s.core s.cur).regs.pc.toNat ≠ e.last.toNat) ∧
    (base.core base.cur).regs.loops = [] ∧ (0 : BitVec 24).toNat ≤ (base.core base.cur).regs.pc.toNat ∧
    (let s := looped 1 [⟨9, 0, 2, 0⟩]; (s.core s.cur).regs.loops = ⟨9, 0, 2, 0⟩ :: [] ∧ (2 : BitVec 24).toNat < (3 : BitVec 24).toNat) ∧
    (let s := looped 2 [⟨9, 0, 2, 0⟩]; (s.core s.cur).regs.pc.toNat = (2 : BitVec 24).toNat) ∧
    (let s := on (withS 1 0x100000000); (s.core s.cur).regs.loops = [] ∧ (s.core s.cur).regs.pc.toNat < (1 : BitVec 24).toNat ∧
      2 ^ 32 ≤ ((s.core s.cur).sreg 1).toNat) ∧
    base.imageLen base.cur ≤ (2 : BitVec 24).toNat ∧
    (let s := on (withS 63 0x1000000 ∘ withS 1 0x1000000); 2 ^ 24 ≤ ((s.core s.cur).sreg 63).toNat ∧ 2 ^ 24 ≤ ((s.core s.cur).sreg 1).toNat) ∧
    (∃ im, base.imageOf base.cur = some im ∧ (1 : BitVec 8) ≠ 0 ∧ ((base.core base.cur).sreg 1).toNat < 2 ^ 24 ∧
      getD 0 im.classes ((base.core base.cur).sreg 1).toNat ≠ (1 : BitVec 8).toNat) ∧
    base.memberOf base.cur (15 : BitVec 4).toNat = false ∧
    (let s := on (withS 1 8); ((s.core s.cur).sreg 1).toNat % 16 ≠ 0) := by
  refine ⟨by decide, by decide, by decide, by decide, by decide, by decide, by decide, by decide, ⟨_, rfl, by decide, by decide, by decide⟩,
    by decide, by decide⟩

/-- Clasp 5 of the launch of core 0, initialised with count 1 or 2, with or without the core's own arrival. -/
def clasped (count : Nat) (aval adone : Bool) : State :=
  (base.updLaunch 0 (fun x => { x with clasps := [(5, ⟨true, false, 0, count, View.initial⟩)] })).updCore 0 (fun c =>
    { c with regs := { c.regs with clasps := [(5, ⟨adone, aval, false, View.initial⟩)], s := vset c.regs.s 1 1 } })

/-- The clauses about the next bundle. -/
theorem witness_ControlFaults_next :
    (let s := (looped 0 []).updCore 0 (fun c => { c with regs := { c.regs with pc := 1, jt := vset c.regs.jt 3 2 } })
     s.imageLen s.cur ≤ (stepOn (s.core s.cur).regs.pc.toNat (s.core s.cur).regs.loops).1 ∧ (3 : BitVec 4).toNat < 12 ∧ (s.core s.cur).cond 3 = false ∧
      s.imageLen s.cur ≤ ((s.core s.cur).target 3).toNat) ∧
    (let s := on (withJ 3 true 2 ∘ withS 63 2); (s.core s.cur).cond 3 = true ∧ s.imageLen s.cur ≤ ((s.core s.cur).target 3).toNat ∧
      s.imageLen s.cur ≤ ((s.core s.cur).sreg 63).toNat) ∧
    (let s := (looped 0 [⟨1, 0, 9, 0⟩]).updCore 0 (fun c => { c with regs := { c.regs with pc := 1 } })
     s.imageLen s.cur ≤ (s.core s.cur).regs.pc.toNat + 1 ∧ (s.core s.cur).regs.loops ≠ []) ∧
    ((1 : BitVec 13) ≠ 0 ∧ base.imageLen base.cur ≤ (base.core base.cur).regs.pc.toNat + 1 + (1 : BitVec 13).toNat) := by decide

theorem witness_ControlFaults_clasps :
    (∃ l y, base.launchOf base.cur = some (l, y) ∧ ((base.core base.cur).sreg 1).toNat = 0 ∧ (y.clasp 5).init = false) ∧
    (let s := on (withS 1 2); ∃ l y, s.launchOf s.cur = some (l, y) ∧ y.cores.length < ((s.core s.cur).sreg 1).toNat) ∧
    (let s := clasped 2 true false
     ∃ l y, s.launchOf s.cur = some (l, y) ∧ (y.clasp 5).init = true ∧ (y.clasp 5).count ≠ ((s.core s.cur).sreg 1).toNat ∧
      ((s.core s.cur).clasp 5).aval = true ∧ ((s.core s.cur).clasp 5).adone = false) ∧
    (let s := clasped 1 false false; ∃ l y, s.launchOf s.cur = some (l, y) ∧ (y.clasp 5).init = true ∧ ((s.core s.cur).clasp 5).aval = false) ∧
    (let s := on (withS 1 8); s.Serves (.txwait 1 0) ∧ ((s.core s.cur).sreg 1).toNat % 16 ≠ 0) ∧
    (let s := on (withS 1 0x7F00000000080000)
     s.Serves (.txwait 1 0) ∧ aBase + 0x80000 < ((s.core s.cur).sreg 1).toNat + 16) := by
  unfold State.Serves
  refine ⟨⟨_, _, rfl, by decide, by decide⟩, ⟨_, _, rfl, by decide⟩, ⟨_, _, rfl, by decide, by decide, by decide, by decide⟩,
    ⟨_, _, rfl, by decide, by decide⟩, by decide +kernel, by decide +kernel⟩

/-- Core 0 at a MARK bundle. -/
def markLine (ct : List Instr) : Line := encodeBundle ct true false
def atMark (ct : List Instr) (f : Core → Core) : State := (State.reset.placeLine (markLine ct)).updCore 0 f

/-- With a result pending, inside a loop, and beside a branch. -/
theorem witness_ControlFaults_marks :
    (let s := atMark [] (fun c => { c with results := [⟨1, 0, 1, [⟨.scalar, 63, 1⟩], 5, .scalar 63 7⟩] }); let b := decodeLine (markLine [])
     s.StandsAt 0 (markLine []) ∧ b.mark = true ∧ stepTwo b = (0, 0) ∧ s.hazards 0 b = [] ∧ (s.core 0).imode = false ∧ (s.core 0).results ≠ []) ∧
    (let s := atMark [] (fun c => { c with regs := { c.regs with loops := [⟨2, 0, 1, 0⟩] } }); let b := decodeLine (markLine [])
     s.StandsAt 0 (markLine []) ∧ s.hazards 0 b = [] ∧ (s.core 0).busy s.now = false ∧ s.holdOf 0 b false = none ∧ ((s.core 0).stepFour b).1 = 0 ∧
      s.bundleService 0 b = none ∧ (s.core 0).regs.loops = ⟨2, 0, 1, 0⟩ :: [] ∧ (1 : BitVec 24).toNat ≠ (s.core 0).regs.pc.toNat) ∧
    (let s := atMark [.jmp 1] id; let b := decodeLine (markLine [.jmp 1])
     s.StandsAt 0 (markLine [.jmp 1]) ∧ stepTwo b = (0, 0) ∧ s.hazards 0 b = [] ∧ (s.core 0).busy s.now = false ∧ s.holdOf 0 b false = none ∧
      ((s.core 0).stepFour b).1 = 0 ∧ s.bundleService 0 b = none ∧ b.ct = .jmp 1) := by
  unfold State.StandsAt; decide +kernel

theorem witness_SoftwareTrapStopsTheCore : (base.core base.cur).held = Held.zero := by decide

/-- Core 0 in step group 0 of an image for one core. -/
def grouped : State := base.updVf 0 (fun f => { f with images := [(0, { fetchImage 0 0 with groups := [(0, 0, 0, 1, 1)] })] })

theorem witness_StepAndTxwaitWait : base.Serves (.txwait 1 0) ∧
    (stepOn (grouped.core grouped.cur).regs.pc.toNat (grouped.core grouped.cur).regs.loops).1 < grouped.imageLen grouped.cur ∧
    (∃ l k, grouped.launchOf grouped.cur = some (l, k)) ∧ grouped.memberOf grouped.cur (0 : BitVec 4).toNat = true ∧
    (let s := on (withS 1 0x7F0000000007FFF0); let a := ((s.core s.cur).sreg 1).toNat
     a % 16 = 0 ∧ aBase ≤ a ∧ a + 16 ≤ aBase + 0x80000 ∧ (s.core s.cur).txPhase (a - aBase) = (0 : BitVec 4).toNat ∧
      (s.core s.cur).txPhase (a - aBase) ≠ (1 : BitVec 4).toNat) := by
  refine ⟨by unfold State.Serves; decide +kernel, by decide, ⟨_, _, rfl⟩, by decide, by decide⟩

theorem witness_ClaspInstructions :
    (let s := on (withS 1 1)
     ∃ l y, s.launchOf s.cur = some (l, y) ∧ (stepOn (s.core s.cur).regs.pc.toNat (s.core s.cur).regs.loops).1 < s.imageLen s.cur ∧
      0 < ((s.core s.cur).sreg 1).toNat ∧ ((s.core s.cur).sreg 1).toNat ≤ y.cores.length ∧ (y.clasp 5).init = false) ∧
    (let s := clasped 1 false false
     ∃ l y, s.launchOf s.cur = some (l, y) ∧ (y.clasp 5).init = true ∧ ((s.core s.cur).clasp 5).aval = false ∧ (s.core s.cur).performs = [] ∧
      (∀ e ∈ (s.core s.cur).queue, inColours ((0xFF : BitVec 8) ||| y.bound 5) e = false) ∧ s.cur ∈ y.cores.map (fun m => m.1) ∧
      (y.clasp 5).count ≤ (y.clasp 5).arrived + 1) ∧
    (let s := clasped 2 true true
     ∃ l y, s.launchOf s.cur = some (l, y) ∧ (y.clasp 5).init = true ∧ ((s.core s.cur).clasp 5).adone = true ∧
      ((s.core s.cur).clasp 5).aval = true ∧ (y.clasp 5).arrived + 1 < (y.clasp 5).count) ∧
    ((clasped 2 true false).core 0).clasp 5 = ⟨false, true, false, View.initial⟩ ∧
    (let s := clasped 1 true true
     ∃ l y, s.launchOf s.cur = some (l, y) ∧ 0 < ((s.core s.cur).sreg 1).toNat ∧ ((s.core s.cur).sreg 1).toNat ≤ y.cores.length ∧
      (y.clasp 5).init = true ∧ (y.clasp 5).count = ((s.core s.cur).sreg 1).toNat ∧ (y.clasp 5).arrived = 0) ∧
    (let s := clasped 2 true false
     ∃ l y, s.launchOf s.cur = some (l, y) ∧ ((s.core s.cur).sreg 1).toNat ≤ y.cores.length ∧ (y.clasp 5).count ≠ ((s.core s.cur).sreg 1).toNat) := by
  refine ⟨⟨_, _, rfl, by decide, by decide, by decide, by decide⟩,
    ⟨_, _, rfl, by decide, by decide, by decide, (by intro e h; cases h), by decide, by decide⟩,
    ⟨_, _, rfl, by decide, by decide, by decide, by decide⟩, by decide, ⟨_, _, rfl, by decide, by decide, by decide, by decide, by decide⟩,
    ⟨_, _, rfl, by decide, by decide⟩⟩

/-- BARI of the same count clears AVAL and ADONE of its core (R127). -/
theorem test_bari_again : ((after (.bari 5 1) (clasped 1 true true)).core 0).clasp 5 = ⟨false, false, false, View.initial⟩ := by decide

theorem witness_FenceAndHalt : (stepOn (base.core base.cur).regs.pc.toNat (base.core base.cur).regs.loops).1 < base.imageLen base.cur ∧
    (0x80 : BitVec 8) ≠ 0 ∧ (base.core base.cur).performs = [] ∧ (base.core base.cur).queue = [] ∧
    (∀ e ∈ (base.core base.cur).queue, inColours (0x80 : BitVec 8) e = false) := by
  refine ⟨by decide, by decide, by decide, by decide, ?_⟩
  intro e h; cases h

theorem witness_ControlRegisterAccess : (stepOn (base.core base.cur).regs.pc.toNat (base.core base.cur).regs.loops).1 < base.imageLen base.cur ∧
    (let s := on (withS 1 0x7F00000300000058)
     (((s.core s.cur).sreg 1).toNat + ((0 : BitVec 32).signExtend 64).toNat) % 2 ^ 64 = 0x7F00000300000000 + 8 * 11 ∧ 11 < 12 ∧
      s.csrRead s.cur 11 = some 0 ∧ s.Serves (.lds 1 2 3 false 0) ∧ (s.die (dieOf s.cur)).jobs = []) ∧
    (let s := on (withS 1 0x7F00000300000008)
     (((s.core s.cur).sreg 1).toNat + ((0 : BitVec 32).signExtend 64).toNat) % 2 ^ 64 = 0x7F00000300000008 ∧ s.Serves (.sts 0 1 2 3 0)) ∧
    (let c := (on (fun c => { c with csrw := [(1, 5)] })).core 0
     c.csrw = [(1, (5 : Word))] ∧ c.results = [] ∧ c.tiles = [] ∧ c.mstcs = [] ∧ c.scales = [] ∧ c.fills = [] ∧ c.parks = [] ∧ c.loads = []) := by
  unfold State.Serves; decide +kernel

/-! Vector slots: well-formed instructions at the limits of their operands on a core whose units serve. -/

theorem witness_VectorArithmetic : WellFormed (.vadd .va 3 15 true ⟨3056, 15⟩ ⟨0, 0⟩ ⟨0, 0⟩) ∧ base.Serves (.vadd .va 3 15 true ⟨3056, 15⟩ ⟨0, 0⟩ ⟨0, 0⟩) ∧
    WellFormed (.vfms .vb 12 0 false ⟨0, 4⟩ ⟨8, 4⟩ ⟨16, 4⟩) ∧ base.Serves (.vfms .vb 12 0 false ⟨0, 4⟩ ⟨8, 4⟩ ⟨16, 4⟩) := by
  unfold WellFormed State.Serves; decide

theorem witness_VectorUnaryAndImmediate : WellFormed (.vmin .va 9 0 ⟨0, 7⟩ ⟨8, 7⟩ ⟨16, 7⟩) ∧ base.Serves (.vmin .va 9 0 ⟨0, 7⟩ ⟨8, 7⟩ ⟨16, 7⟩) ∧
    WellFormed (.vneg .vb 0 0 true ⟨0, 1⟩ ⟨2, 1⟩) ∧ base.Serves (.vneg .vb 0 0 true ⟨0, 1⟩ ⟨2, 1⟩) ∧ vtypeD 4 = .int false 8 ∧
    WellFormed (.vmuli .va 4 0 false ⟨0, 1⟩ ⟨2, 1⟩ 0xFFFF) ∧ base.Serves (.vmuli .va 4 0 false ⟨0, 1⟩ ⟨2, 1⟩ 0xFFFF) := by
  unfold WellFormed State.Serves; decide

theorem witness_VectorLogicShiftsCounts : vtypeD 7 = .int false 64 ∧ WellFormed (.vsrai .va 7 0 ⟨0, 15⟩ ⟨16, 15⟩ 63) ∧
    base.Serves (.vsrai .va 7 0 ⟨0, 15⟩ ⟨16, 15⟩ 63) := by unfold WellFormed State.Serves; decide

theorem witness_VectorMovesAndConversion : WellFormed (.vcvt .va 14 0 true ⟨0, 1⟩ ⟨2, 15⟩ 3) ∧ base.Serves (.vcvt .va 14 0 true ⟨0, 1⟩ ⟨2, 15⟩ 3) ∧
    WellFormed (.vsplat .vb 12 0 ⟨0, 4⟩ 63) ∧ base.Serves (.vsplat .vb 12 0 ⟨0, 4⟩ 63) := by unfold WellFormed State.Serves; decide

/-- Mask 1 enables lanes 0 and 1; mask 2 holds both, none, or the first of them. -/
def masked (v : LaneMask) : State := on (fun c => { c with regs := { c.regs with kA := vset (vset c.regs.kA 1 3) 2 v } })

theorem witness_VectorComparesAndMasks : WellFormed (.vcle .va 8 15 15 ⟨0, 15⟩ ⟨16, 15⟩) ∧ base.Serves (.vcle .va 8 15 15 ⟨0, 15⟩ ⟨16, 15⟩) ∧
    WellFormed (.kandn .vb 15 15 15) ∧ (11 : BitVec 6).toNat < 12 ∧ (2 : BitVec 6).toNat < 16 ∧
    (let c := (masked 3).core 0; ∀ l, l < 256 → (c.mask false 1).getLsbD l = true → (c.mask false 2).getLsbD l = true) ∧
    (let c := (masked 0).core 0; ∀ l, l < 256 → (c.mask false 1).getLsbD l = true → (c.mask false 2).getLsbD l = false) ∧
    (let c := (masked 1).core 0; (c.mask false 1).getLsbD 0 = true ∧ (c.mask false 1).getLsbD 1 = true ∧ (c.mask false 2).getLsbD 0 = true ∧
      (c.mask false 2).getLsbD 1 = false) := by
  refine ⟨by unfold WellFormed; decide, by unfold State.Serves; decide, by unfold WellFormed; decide, by decide, by decide, by decide +kernel,
    by decide +kernel, by decide +kernel⟩

theorem witness_VectorReductions : WellFormed (.vredadd .va 3 0 true ⟨0, 15⟩ ⟨16, 15⟩) ∧ base.Serves (.vredadd .va 3 0 true ⟨0, 15⟩ ⟨16, 15⟩) ∧
    vtypeD 3 = .int true 64 ∧ WellFormed (.vredmin .vb 12 0 ⟨0, 4⟩ ⟨16, 4⟩) ∧ base.Serves (.vredmin .vb 12 0 ⟨0, 4⟩ ⟨16, 4⟩) ∧
    vtypeD 12 = .flt .e8m10 := by unfold WellFormed State.Serves; decide

theorem witness_VectorCrossLane : WellFormed (.vperm .va 14 0 ⟨0, 1⟩ ⟨2, 1⟩ ⟨4, 1⟩) ∧ base.Serves (.vperm .va 14 0 ⟨0, 1⟩ ⟨2, 1⟩ ⟨4, 1⟩) ∧
    WellFormed (.xmov .vb 0 ⟨0, 15⟩ ⟨3056, 15⟩) ∧ base.Serves (.xmov .vb 0 ⟨0, 15⟩ ⟨3056, 15⟩) ∧
    WellFormed (.vpack .va 9 0 false ⟨0, 0⟩ ⟨16, 15⟩ 9) ∧ base.Serves (.vunpk .va 0 0 ⟨0, 15⟩ ⟨16, 15⟩ 0x17) := by
  unfold WellFormed State.Serves; decide

theorem witness_LongAndDeprecatedOperations : vtypeD 9 = .flt .f32 ∧ WellFormed (.vdiv 9 0 ⟨0, 7⟩ ⟨8, 7⟩ ⟨16, 7⟩) ∧
    base.Serves (.vdiv 9 0 ⟨0, 7⟩ ⟨8, 7⟩ ⟨16, 7⟩) ∧ WellFormed (.vrcpl 9 0 ⟨0, 7⟩ ⟨8, 7⟩) ∧ base.Serves (.vrcpl 9 0 ⟨0, 7⟩ ⟨8, 7⟩) ∧
    WellFormed (.vsumx .va 9 0 ⟨0, 7⟩ ⟨8, 7⟩) ∧ base.Serves (.vsumx .va 9 0 ⟨0, 7⟩ ⟨8, 7⟩) := by unfold WellFormed State.Serves; decide

/-- Values for each clause about P12: zero, a power of two, and one that is none, each at the greatest significand. -/
theorem witness_LongAndDeprecatedOperations_values : (2 ^ 64 - 1 : Nat) ≠ 0 ∧ (2 ^ 64 - 1 : Nat) < 2 ^ 64 ∧ (-1100 : Int) ≤ -1100 ∧ (1100 : Int) ≤ 1100 ∧
    FFmt.p12.hasInf = true ∧ FFmt.p12.exp2 (.fin false 1 7) = FFmt.p12.infPattern ∧ FFmt.p12.exp2 (.fin false 127 0) = 254 * 2048 ∧
    FFmt.p12.log2 (.fin false 1 5) = FFmt.p12.round (.fin false 5 0) ∧ FFmt.p12.log2 (.fin false 1 (-1)) = FFmt.p12.round (.fin true 1 0) := by decide +kernel

theorem witness_ArrayInstructionsStart : mfmt (16 : BitVec 5).toNat = some (.bfp 8) ∧ mfmt (10 : BitVec 5).toNat = some (.bfp 2) ∧
    shapeOf (.bfp 8) (.bfp 2) = some ⟨64, 128, 32, 8, .fp32, .bfp, 16⟩ ∧ WellFormed (.mmat 16 10 15 2040 4092) ∧
    base.Serves (.mmat 16 10 15 2040 4092) := by unfold WellFormed State.Serves; decide +kernel

theorem witness_MatrixAndTileValues : 31 < 32 ∧ 63 < 64 ∧ (base.core base.cur).tiles = [] ∧ 8191 < 8192 ∧ 255 < 256 ∧
    tileFmt 1 false = some (.flt .f32) ∧ 0 < tileG (.flt .f32) ⟨0, 7⟩ ∧ tileFmt 2 true = some (.flt .e8m10) ∧
    8191 < 32768 / (accOf (.flt .e8m10)).bytes ∧ tileFmt 1 true = some (.flt .f32) := by decide +kernel

theorem witness_TileInstructions : tileFmt 1 false = some (.flt .f32) ∧ tileFmt 2 true = some (.flt .e8m10) ∧
    [Instr.mclr 15, .maddc 15 0, .mldc 1 0 true ⟨0, 15⟩, .mbias 1 0 true ⟨0, 7⟩, .mcvt 1 0 false ⟨3056, 15⟩, .mstc 2 0 1920].all
      (fun i => decide (instrReasons i = Reasons.none) && decide (base.outOfService base.cur i = none)) = true := by decide +kernel

theorem witness_FillSlotInstructions :
    (let s := on (fun c => { c with parkmap := 0x8001 })
     [Instr.slda 15 32752, .sldb 0 32767, .fill 63 2047 30720, .park 4080 true ⟨3056, 15⟩, .unpk 0 false ⟨0, 0⟩].all (fun i =>
      decide (instrReasons i = Reasons.none) && decide (s.outOfService s.cur i = none) && decide (s.addressFault s.cur i = none))) = true := by
  decide +kernel

/-- Core 0 with a pending late write of each kind, all due. -/
def late : State :=
  let s := on (fun c => { c with
    tiles := [⟨1, 15, 5, true, 0, 32768, 3, 0, 0⟩], mstcs := [⟨2, 5, 0, 8192, 7, 0, 0⟩], fills := [⟨3, 5, 524272, 16, 9, 0, 0⟩]
    parks := [⟨4, 5, 0, 128, 11, 0, 0⟩], scales := [⟨5, 5, true, 256, 1⟩] })
  { s with now := 5 }

theorem witness_LateWritesLand : (late.core 0).tiles.find? (fun x => x.id == 1) = some ⟨1, 15, 5, true, 0, 32768, 3, 0, 0⟩ ∧ 5 ≤ late.now ∧
    (late.core 0).mstcs.find? (fun x => x.id == 2) = some ⟨2, 5, 0, 8192, 7, 0, 0⟩ ∧
    (late.core 0).fills.find? (fun x => x.id == 3) = some ⟨3, 5, 524272, 16, 9, 0, 0⟩ ∧
    (late.core 0).parks.find? (fun x => x.id == 4) = some ⟨4, 5, 0, 128, 11, 0, 0⟩ ∧
    (late.core 0).scales.find? (fun x => x.id == 5) = some ⟨5, 5, true, 256, 1⟩ ∧ (256 : Nat) ≤ 256 := by decide

/-! Loads and stores. -/

theorem witness_ScalarLoads :
    let s := on (withS 1 0x7F0000000007FFF8)
    let a := (((s.core s.cur).sreg 1).toNat + ((0 : BitVec 32).signExtend 64).toNat) % 2 ^ 64
    WellFormed (.lds 1 63 3 true 0) ∧ s.Serves (.lds 1 63 3 true 0) ∧ (s.die (dieOf s.cur)).jobs = [] ∧ Memory.wf ((s.core s.cur).buf .a) = true ∧
      Buf.a.base ≤ a ∧ a + 2 ^ (3 : BitVec 2).toNat ≤ Buf.a.base + Buf.a.size := by unfold WellFormed State.Serves; decide +kernel

/-- The grouped core with a commons region of two pages at page 0, on a die with two present cores. -/
def regional (b : Word) : State := (grouped.updCore 0 (withS 1 b ∘ withS 2 0x1122334455667788)).updDie 0 (fun d => { d with regions := [⟨0, 0, 0, 0, 2, 0⟩] })

/-- A word across two pages of the commons. -/
theorem witness_ScalarLoads_commons :
    let s := regional 0x7F00000100000FFC
    let a := (((s.core s.cur).sreg 1).toNat + ((0 : BitVec 32).signExtend 64).toNat) % 2 ^ 64
    let at_ := a - 0x7F00000100000000
    WellFormed (.lds 1 63 3 true 0) ∧ s.Serves (.lds 1 63 3 true 0) ∧ (s.die (dieOf s.cur)).jobs = [] ∧ Memory.wf (s.die (dieOf s.cur)).commons = true ∧
      0x7F00000100000000 ≤ a ∧ at_ + 2 ^ (3 : BitVec 2).toNat ≤ 262144 * (s.die (dieOf s.cur)).hallmark.npresent ∧
      (s.regionAt s.cur at_).isSome = true ∧ (s.regionAt s.cur (at_ + 2 ^ (3 : BitVec 2).toNat - 1)).isSome = true := by
  unfold WellFormed State.Serves; decide +kernel

theorem witness_ScalarLoads_aperture :
    (let s := on (withS 1 0x7F0000020000F000)
     (15 < 16 ∧ (((s.core s.cur).sreg 1).toNat + ((0 : BitVec 32).signExtend 64).toNat) % 2 ^ 64 = 0x7F00000200000000 + 0x1000 * 15) ∧
      s.Serves (.lds 1 63 3 true 0) ∧ (s.core s.cur).performs = [] ∧ (63 : BitVec 6) ≠ 0) ∧
    (let s := on (withS 1 0x7F00000200047000)
     (16 ≤ 23 ∧ 23 < 24 ∧ (((s.core s.cur).sreg 1).toNat + ((0 : BitVec 32).signExtend 64).toNat) % 2 ^ 64 = 0x7F00000200040000 + 0x1000 * (23 - 16)) ∧
      s.Serves (.lds 1 63 3 true 0)) := by unfold State.Serves; decide +kernel

/-- Core 0 with mask 1 that enables lane 255 only, s1 = `b` and s2 = `g`. -/
def oneLane (b g : Word) : State := on (withS 1 b ∘ withS 2 g ∘ fun c => { c with regs := { c.regs with kA := vset c.regs.kA 1 (2 ^ 255) } })

theorem witness_VectorLoads :
    (let s := oneLane 0x7F0000000007F800 0; let c := s.core s.cur; let en := c.mask false 1
     let ea : Nat := ((c.sreg 1).toNat + ((0 : BitVec 21).signExtend 64).toNat) % 2 ^ 64
     (∀ l, l < 256 → en.getLsbD l = true → Buf.a.base ≤ ea + 16 * l / 2 ∧ ea + 16 * l / 2 + (4 * (16 * l % 2) + 4 * 16 + 7) / 8 ≤ Buf.a.base + Buf.a.size) ∧
      en ≠ 0 ∧ (s.die (dieOf s.cur)).jobs = [] ∧ WellFormed (.ldv 1 1 0 false ⟨0, 15⟩) ∧ s.Serves (.ldv 1 1 0 false ⟨0, 15⟩)) ∧
    (let s := oneLane 0x7F00000000000000 8; let c := s.core s.cur; let en := c.mask false 1
     let ea : Nat := ((c.sreg 1).toNat + ((0 : BitVec 21).signExtend 64).toNat) % 2 ^ 64
     let strided : Nat → Nat := fun l => (((ea : Int) + (l : Int) * (c.sreg 2).toInt) % ((2 ^ 64 : Nat) : Int)).toNat
     (∀ l, l < 256 → en.getLsbD l = true → Buf.a.base ≤ strided l ∧ strided l + (16 + 1) / 2 ≤ Buf.a.base + Buf.a.size) ∧
      WellFormed (.ldvs 1 2 1 0 false ⟨0, 15⟩) ∧ s.Serves (.ldvs 1 2 1 0 false ⟨0, 15⟩)) ∧
    (let s := oneLane 0x7F000000002FFFF8 0; let c := s.core s.cur
     let ea : Nat := ((c.sreg 1).toNat + ((0 : BitVec 21).signExtend 64).toNat) % 2 ^ 64
     (Buf.w.base ≤ ea ∧ ea + (16 + 1) / 2 ≤ Buf.w.base + Buf.w.size) ∧ WellFormed (.ldvb 1 1 0 false ⟨0, 15⟩) ∧ s.Serves (.ldvb 1 1 0 false ⟨0, 15⟩)) ∧
    (let s := oneLane 0x7F00000000100000 0; let c := s.core s.cur; let en := c.mask false 1
     let index : Nat → Nat := fun l => ((((c.sreg 1).toNat : Int) + toSigned (4 * 1) (laneOf (c.sliceLines false 16 1) l)) % ((2 ^ 64 : Nat) : Int)).toNat
     (∀ l, l < 256 → en.getLsbD l = true → Buf.c.base ≤ index l ∧ index l + (16 + 1) / 2 ≤ Buf.c.base + Buf.c.size) ∧
      WellFormed (.ldvx 1 1 ⟨16, 0⟩ false ⟨0, 15⟩) ∧ s.Serves (.ldvx 1 1 ⟨16, 0⟩ false ⟨0, 15⟩)) ∧
    (let s := oneLane 0x7F0000000007FFE0 0; let c := s.core s.cur
     let ea : Nat := ((c.sreg 1).toNat + ((0 : BitVec 21).signExtend 64).toNat) % 2 ^ 64
     (Buf.a.base ≤ ea ∧ ea + 32 ≤ Buf.a.base + Buf.a.size) ∧ (15 : BitVec 6) ≠ 0 ∧ WellFormed (.ldk 1 1 0 false 15) ∧ s.Serves (.ldk 1 1 0 false 15)) := by
  unfold WellFormed State.Serves; decide +kernel

theorem witness_GlobalLoadsAreLongPending :
    let s := on (withS 1 0xFFFFFFFFFFFF8)
    ∃ p dst, (s.core s.cur).plan (.lds 1 63 3 true 0) = some p ∧ p.dest = some dst ∧ p.pieces ≠ [] ∧ (∀ x ∈ p.pieces, x.addr + x.len ≤ 2 ^ 52) ∧
      WellFormed (.lds 1 63 3 true 0) ∧ s.Serves (.lds 1 63 3 true 0) ∧ (s.die (dieOf s.cur)).jobs = [] := by
  refine ⟨_, _, rfl, rfl, by decide +kernel, by decide +kernel, by unfold WellFormed; decide, by unfold State.Serves; decide +kernel, by decide⟩

theorem witness_BufferAndCommonsStores :
    let s := on (withS 1 0x7F0000000007FFF8 ∘ withS 2 0x1122334455667788)
    let i : Instr := .sts 7 1 2 3 0
    (∃ p, (s.core s.cur).plan i = some p ∧ (∀ x ∈ p.pieces, ∃ b : Buf, b.base ≤ x.addr ∧ x.addr + x.len ≤ b.base + b.size) ∧
      ∃ x, p.pieces = [x] ∧ 7 < x.len ∧ elemAt 8 x.mask 7 = 0xFF) ∧
    WellFormed i ∧ s.Serves i ∧ s.addressFault s.cur i = none ∧
    Buf.a.base ≤ (((s.core s.cur).sreg 1).toNat + ((0 : BitVec 32).signExtend 64).toNat) % 2 ^ 64 ∧
      (((s.core s.cur).sreg 1).toNat + ((0 : BitVec 32).signExtend 64).toNat) % 2 ^ 64 + 2 ^ (3 : BitVec 2).toNat ≤ Buf.a.base + Buf.a.size := by
  refine ⟨⟨_, rfl, ?_, _, rfl, by decide +kernel, by decide +kernel⟩, by unfold WellFormed; decide, by unfold State.Serves; decide +kernel,
    by decide +kernel, by decide +kernel, by decide +kernel⟩
  intro x h
  refine ⟨.a, ?_⟩
  revert x
  decide +kernel

theorem witness_BufferAndCommonsStores_commons :
    let s := regional 0x7F00000100000FFC
    let i : Instr := .sts 7 1 2 3 0
    ∃ p, (s.core s.cur).plan i = some p ∧ WellFormed i ∧ s.Serves i ∧ dieOf s.cur < 4 ∧ p.pieces ≠ [] ∧
      (∃ x ∈ p.pieces, ∃ e ∈ x.cells, e.2.2 ≠ 0) ∧
      (∀ x ∈ p.pieces, 0 < x.len ∧ 0x7F00000100000000 ≤ x.addr ∧
        x.addr + x.len ≤ 0x7F00000100000000 + 262144 * (s.die (dieOf s.cur)).hallmark.npresent ∧
        ∀ k, k < x.len → s.regionAt s.cur (x.addr + k - 0x7F00000100000000) = some ⟨0, 0, 0, 0, 2, 0⟩) ∧
      ∀ y ∈ (s.die (dieOf s.cur)).stores, ¬(y.core = s.cur ∧ y.pos = (s.core s.cur).pos) := by
  refine ⟨_, rfl, by unfold WellFormed; decide, by unfold State.Serves; decide +kernel, by decide, by decide +kernel, ?_, ?_, by decide +kernel⟩
  · exact ⟨_, .head _, _, .head _, by decide +kernel⟩
  · intro x h
    obtain rfl : x = _ := List.mem_singleton.mp h
    decide +kernel

/-- STV, STVS, STVX and STK of lane 255 at the ends of the typed buffers. -/
theorem witness_BufferAndCommonsStores_vector :
    (let s := oneLane 0x7F0000000007F800 0; let c := s.core s.cur; let en := c.mask false 1
     let ea : Nat := ((c.sreg 1).toNat + ((0 : BitVec 21).signExtend 64).toNat) % 2 ^ 64
     (∀ l, l < 256 → en.getLsbD l = true → Buf.a.base ≤ ea + 16 * l / 2 ∧ ea + 16 * l / 2 + (4 * (16 * l % 2) + 4 * 16 + 7) / 8 ≤ Buf.a.base + Buf.a.size) ∧
      Memory.wf (c.buf .a) = true ∧ WellFormed (.stv 0 1 1 0 false ⟨0, 15⟩) ∧ s.Serves (.stv 0 1 1 0 false ⟨0, 15⟩)) ∧
    (let s := oneLane 0x7F00000000000000 8; let c := s.core s.cur; let en := c.mask false 1
     let ea : Nat := ((c.sreg 1).toNat + ((0 : BitVec 21).signExtend 64).toNat) % 2 ^ 64
     let strided : Nat → Nat := fun l => (((ea : Int) + (l : Int) * (c.sreg 2).toInt) % ((2 ^ 64 : Nat) : Int)).toNat
     (∀ l, l < 256 → en.getLsbD l = true → Buf.a.base ≤ strided l ∧ strided l + (16 + 1) / 2 ≤ Buf.a.base + Buf.a.size) ∧
      WellFormed (.stvs 0 1 2 1 0 false ⟨0, 15⟩) ∧ s.Serves (.stvs 0 1 2 1 0 false ⟨0, 15⟩)) ∧
    (let s := oneLane 0x7F00000000100000 0; let c := s.core s.cur; let en := c.mask false 1
     let index : Nat → Nat := fun l => ((((c.sreg 1).toNat : Int) + toSigned (4 * 1) (laneOf (c.sliceLines false 16 1) l)) % ((2 ^ 64 : Nat) : Int)).toNat
     (∀ l, l < 256 → en.getLsbD l = true → Buf.c.base ≤ index l ∧ index l + (16 + 1) / 2 ≤ Buf.c.base + Buf.c.size) ∧
      Memory.wf (c.buf .c) = true ∧ WellFormed (.stvx 0 1 1 ⟨16, 0⟩ false ⟨0, 15⟩) ∧ s.Serves (.stvx 0 1 1 ⟨16, 0⟩ false ⟨0, 15⟩)) ∧
    (let s := oneLane 0x7F000000002FFFE0 0; let c := s.core s.cur
     let ea : Nat := ((c.sreg 1).toNat + ((0 : BitVec 21).signExtend 64).toNat) % 2 ^ 64
     (Buf.w.base ≤ ea ∧ ea + 32 ≤ Buf.w.base + Buf.w.size) ∧ c.mask false 1 ≠ 0 ∧ Memory.wf (c.buf .w) = true ∧ WellFormed (.stk 0 1 1 0 false 15) ∧
      s.Serves (.stk 0 1 1 0 false 15)) := by unfold WellFormed State.Serves; decide +kernel

/-- The queue of colour 7 holds one translated entry, and so many sectors more that it has no room for another. -/
def fullQueue : State := on (withS 1 0xFFFFFFFFFFFF8 ∘ fun c => { c with queue := [⟨1, 7, 0, (List.range 512).map (fun i => (32 * i, 1, 0xFF)),
  { issued := 0, waits := [], pages := [(0, 5), (1, 6), (2, 7), (3, 8)], fails := [] }⟩] })

theorem witness_GlobalStoresWaitAndPerform_full :
    let s := fullQueue
    let c := s.core s.cur
    let i : Instr := .sts 7 1 2 3 0
    (∃ p, c.plan i = some p ∧ p.pieces.flatMap Piece.cells ≠ [] ∧ (∀ x ∈ p.pieces, x.addr + x.len ≤ 2 ^ 52) ∧ WellFormed i ∧ s.Serves i ∧
      512 < c.queueSectors p.col + (sectorsOf (distinct ((p.pieces.flatMap Piece.cells).map (fun e => e.1)))).length) ∧ c.performs = [] ∧
    (c.queue.map (fun e => e.seq)).Pairwise (· < ·) ∧
    (∀ e ∈ c.queue, e.trans.ready = true ∧ s.notifying (s.vfOf s.cur) e.trans = none ∧ s.transReach s.cur e.trans = .active) ∧
    (stepOn c.regs.pc.toNat c.regs.loops).1 < s.imageLen s.cur ∧ (0x80 : BitVec 8) ≠ 0 := by
  refine ⟨⟨_, rfl, by decide +kernel, by decide +kernel, by unfold WellFormed; decide, by unfold State.Serves; decide +kernel, by decide +kernel⟩,
    by decide, by decide +kernel, by decide +kernel, by decide +kernel, by decide⟩

theorem witness_GlobalStoresWaitAndPerform :
    let s := on (withS 1 0xFFFFFFFFFFFF8)
    let i : Instr := .sts 7 1 2 3 0
    ∃ p, (s.core s.cur).plan i = some p ∧ p.pieces.flatMap Piece.cells ≠ [] ∧ (∀ x ∈ p.pieces, x.addr + x.len ≤ 2 ^ 52) ∧ WellFormed i ∧
      s.Serves i ∧ (s.die (dieOf s.cur)).jobs = [] ∧
      (s.core s.cur).queueSectors p.col + (sectorsOf (distinct ((p.pieces.flatMap Piece.cells).map (fun e => e.1)))).length ≤ 512 := by
  refine ⟨_, rfl, by decide +kernel, by decide +kernel, by unfold WellFormed; decide, by unfold State.Serves; decide +kernel, by decide,
    by decide +kernel⟩

theorem witness_ApertureStoreStartsAJob :
    (let s := on (withS 1 0x7F0000020000F000 ∘ withS 2 0xFFFFFFFFFFFFFFFF)
     (15 < 16 ∧ (((s.core s.cur).sreg 1).toNat + ((0 : BitVec 32).signExtend 64).toNat) % 2 ^ 64 = 0x7F00000200000000 + 0x1000 * 15) ∧
      s.Serves (.sts 0 1 2 3 0) ∧ (∀ e ∈ (s.core s.cur).queue, e.col ≠ (0 : BitVec 3).toNat) ∧ (s.core s.cur).performs = [] ∧ dieOf s.cur < 4) ∧
    (let s := on (withS 1 0x7F00000200047000)
     (16 ≤ 23 ∧ 23 < 24 ∧ (((s.core s.cur).sreg 1).toNat + ((0 : BitVec 32).signExtend 64).toNat) % 2 ^ 64 = 0x7F00000200040000 + 0x1000 * (23 - 16)) ∧
      s.Serves (.sts 0 1 2 3 0)) := by unfold State.Serves; decide +kernel

theorem witness_AtomicsAreOneStep :
    let s := on (withS 1 0x1FF8 ∘ fun c => { c with tlb := [⟨0, 0x1000, 4096, 0x5000, true, true, false, 0⟩] })
    let a := (((s.core s.cur).sreg 1).toNat + ((0 : BitVec 32).signExtend 64).toNat) % 2 ^ 64
    let pg : Page := ⟨0, 0x1000, 4096, 0x5000, true, true, false, 0⟩
    s.Serves (.atcas 7 1 2 3 3 0) ∧ 2 ≤ (3 : BitVec 2).toNat ∧ a + 8 ≤ 2 ^ 52 ∧ a % 8 = 0 ∧
      s.mem.readN (4096 * pageFrame pg (a / 4096) + a % 4096) 8 < 2 ^ (8 * 8) ∧
      findPage (s.core s.cur).tlb (s.vfOf s.cur) (4096 * (a / 4096)) = some pg ∧ pg.r = true ∧ pg.w = true ∧
      s.reach s.cur (4096 * pageFrame pg (a / 4096)) = .active ∧ (s.core s.cur).queue = [] ∧
      (s.core s.cur).performs = [] ∧ (s.core s.cur).loads = [] ∧ (s.die (dieOf s.cur)).jobs = [] := by unfold State.Serves; decide +kernel

theorem witness_PrefetchAndBarrierUpdates :
    (let s := on (withS 1 0x10000000000000); s.Serves (.pref 1 0) ∧
      2 ^ 52 ≤ (((s.core s.cur).sreg 1).toNat + ((0 : BitVec 32).signExtend 64).toNat) % 2 ^ 64) ∧
    (let s := on (withS 1 0xFFFFFFFFFFFFF); s.Serves (.pref 1 0) ∧
      (((s.core s.cur).sreg 1).toNat + ((0 : BitVec 32).signExtend 64).toNat) % 2 ^ 64 < 2 ^ 52) ∧
    (let s := on (withS 1 0x7F0000000007FFF0 ∘ withS 2 0xFFFFF ∘ withBuf .a 0x7FFF0 16 0x10)
     let a := (((s.core s.cur).sreg 1).toNat + ((0 : BitVec 32).signExtend 64).toNat) % 2 ^ 64; let v := (s.core s.cur).sreg 2
     aBase ≤ a ∧ a + 16 ≤ aBase + 0x80000 ∧ a % 16 = 0 ∧ (s.die (dieOf s.cur)).jobs = [] ∧ v ≠ 0 ∧ v.toNat < 2 ^ 20 ∧ s.Serves (.txinit 1 2 0) ∧
      -(2 ^ 39 : Nat) ≤ v.toInt ∧ v.toInt < (2 ^ 39 : Nat) ∧ (s.core s.cur).bufRead .a (a - aBase) 16 / 16 % 2 ^ 20 ≠ 0 ∧ s.Serves (.txarv 1 2 0)) := by
  unfold State.Serves; decide +kernel

/-- The end of a cycle for one touched barrier: TXARV and a job's decrement, TXINIT, and a store alone. -/
theorem witness_PrefetchAndBarrierUpdates_txEnd :
    (let c := (on (withBuf .a 0x7FFF0 16 0x0100000000000000000001000010 ∘ fun c => { c with txTouch := [0x7FFF0], txOp := some ⟨0x7FFF0, 1, false, 0, 0⟩ })).core 0
     0x7FFF0 + 16 ≤ 2 ^ 19 ∧ 0x7FFF0 % 16 = 0 ∧ Memory.wf c.bufA = true ∧ (∀ y ∈ c.txTouch, y = 0x7FFF0) ∧ (∀ y ∈ c.txDecs, y.off = 0x7FFF0) ∧
      (∀ o, c.txOp = some o → o.off = 0x7FFF0 ∧ (o.init = true → o.val.toNat < 2 ^ 20)) ∧ c.txTouch ≠ [] ∧ c.txOp.isSome = true) ∧
    (let c := (on (fun c => { c with txTouch := [0], txOp := some ⟨0, 0xFFFFF, true, 0, 0⟩ })).core 0
     Memory.wf c.bufA = true ∧ (∀ y ∈ c.txTouch, y = 0) ∧ (∀ o, c.txOp = some o → o.off = 0 ∧ (o.init = true → o.val.toNat < 2 ^ 20))) ∧
    (let c := (on (withBuf .a 0 16 0x10 ∘ fun c => { c with txTouch := [0] })).core 0
     (∀ y ∈ c.txTouch, y = 0) ∧ c.txOp = none ∧ c.txTouch ≠ []) := by
  refine ⟨⟨by decide, by decide, by decide +kernel, by decide, (by intro y h; cases h), ?_, by decide, by decide⟩,
    ⟨by decide +kernel, by decide, ?_⟩, by decide, by decide, by decide⟩ <;>
  · intro o h; cases h; decide

theorem witness_AddressFaultsAndIssueTraps :
    (let s := on (withS 1 0x10000000000000); let a := (((s.core s.cur).sreg 1).toNat + ((0 : BitVec 32).signExtend 64).toNat) % 2 ^ 64
     2 ^ 52 ≤ a ∧ a < aBase ∧ s.Serves (.lds 1 3 0 false 0) ∧ s.Serves (.sts 0 1 3 0 0)) ∧
    (let s := on (withS 1 0x7F0000000007FFF9); let a := (((s.core s.cur).sreg 1).toNat + ((0 : BitVec 32).signExtend 64).toNat) % 2 ^ 64
     aBase ≤ a ∧ a < aBase + 0x80000 ∧ aBase + 0x80000 < a + 2 ^ (3 : BitVec 2).toNat ∧ s.Serves (.lds 1 3 3 false 0)) ∧
    (let s := on (withS 1 0x7F0000000007FFF8); let a := (((s.core s.cur).sreg 1).toNat + ((0 : BitVec 32).signExtend 64).toNat) % 2 ^ 64
     aBase ≤ a ∧ a + 2 ^ (3 : BitVec 2).toNat ≤ aBase + 0x80000 ∧ 2 ≤ (3 : BitVec 2).toNat ∧ s.Serves (.atadd 0 1 3 3 0)) ∧
    (let s := on (withS 1 0xFFFFFFFFFFFF7); let a := (((s.core s.cur).sreg 1).toNat + ((0 : BitVec 32).signExtend 64).toNat) % 2 ^ 64
     a + 2 ^ (3 : BitVec 2).toNat ≤ 2 ^ 52 ∧ 2 ≤ (3 : BitVec 2).toNat ∧ a % 2 ^ (3 : BitVec 2).toNat ≠ 0 ∧ s.Serves (.atadd 0 1 3 3 0)) ∧
    (let s := on (withS 1 0x7F0000000007FFF0 ∘ withS 3 0x100000); let a := (((s.core s.cur).sreg 1).toNat + ((0 : BitVec 32).signExtend 64).toNat) % 2 ^ 64
     aBase ≤ a ∧ a + 16 ≤ aBase + 0x80000 ∧ a % 16 = 0 ∧ 2 ^ 20 ≤ ((s.core s.cur).sreg 3).toNat ∧ (s.core s.cur).sreg 4 = 0 ∧
      s.Serves (.txinit 1 3 0)) := by unfold State.Serves; decide +kernel

/-- Addresses in an aperture, in the control window, in the commons and at the ends of the windows, and a PARK of a tile that is not free. -/
theorem witness_AddressFaultsAndIssueTraps_windows :
    (let s := on (withS 1 0x7F00000200000008); let a := (((s.core s.cur).sreg 1).toNat + ((0 : BitVec 32).signExtend 64).toNat) % 2 ^ 64
     0x7F00000200000000 ≤ a ∧ a + 2 ^ (3 : BitVec 2).toNat ≤ 0x7F00000200000000 + 0x10000 ∧ a % 0x1000 ≠ 0 ∧ WellFormed (.lds 1 3 3 false 0)) ∧
    (let s := on (withS 1 0x7F00000300000038); let a := (((s.core s.cur).sreg 1).toNat + ((0 : BitVec 32).signExtend 64).toNat) % 2 ^ 64
     0x7F00000300000000 ≤ a ∧ a + 2 ^ (3 : BitVec 2).toNat ≤ 0x7F00000300000000 + 0x8000 ∧ (a - 0x7F00000300000000) / 8 = 7 ∧
      ¬((a - 0x7F00000300000000) / 8 < 7 ∨ (8 ≤ (a - 0x7F00000300000000) / 8 ∧ (a - 0x7F00000300000000) / 8 < 12))) ∧
    (let s := on (withS 1 0x7F00000100000000); let a := (((s.core s.cur).sreg 1).toNat + ((0 : BitVec 32).signExtend 64).toNat) % 2 ^ 64
     0x7F00000100000000 ≤ a ∧ a + 2 ^ (3 : BitVec 2).toNat ≤ 0x7F00000100000000 + 262144 * (s.die (dieOf s.cur)).hallmark.npresent ∧
      s.regionAt s.cur (a - 0x7F00000100000000) = none) ∧
    (let s := on (withS 1 0x7F0000000007FFF1); let a := (((s.core s.cur).sreg 1).toNat + ((0 : BitVec 32).signExtend 64).toNat) % 2 ^ 64
     aBase ≤ a ∧ a < aBase + 0x80000 ∧ ¬ (a + 16 ≤ aBase + 0x80000) ∧ a % 16 ≠ 0) ∧
    (let s := on (withS 1 0x7F00000000000000); let a := (((s.core s.cur).sreg 1).toNat + ((0 : BitVec 32).signExtend 64).toNat) % 2 ^ 64
     aBase ≤ a ∧ a % 16 = 0 ∧ (s.core s.cur).bufRead .a (a - aBase) 16 / 16 % 2 ^ 20 = 0) ∧
    (128 * (4080 : BitVec 12).toNat / 32768 ≤ 15 ∧ 15 ≤ (128 * ((4080 : BitVec 12).toNat + (⟨0, 15⟩ : SliceOp).w) - 1) / 32768 ∧
      (base.core base.cur).parkmap.getLsbD 15 = false ∧ WellFormed (.park 4080 false ⟨0, 15⟩) ∧ base.Serves (.park 4080 false ⟨0, 15⟩)) := by
  unfold WellFormed State.Serves; decide +kernel

/-- Lane 255 alone at an address that no window holds. -/
theorem witness_AddressFaultsAndIssueTraps_lanes :
    let s := oneLane 0x7000000000000000 0x100; let c := s.core s.cur; let en := c.mask false 1
    255 < 256 ∧ en.getLsbD 255 = true ∧ (∀ h, h < 255 → en.getLsbD h = false) ∧ WellFormed (.ldvs 1 2 1 0 false ⟨0, 15⟩) ∧
      s.Serves (.ldvs 1 2 1 0 false ⟨0, 15⟩) ∧ 2 ^ 52 ≤ ((c.sreg 1).toNat + ((0 : BitVec 21).signExtend 64).toNat) % 2 ^ 64 + 0x100 * 255 ∧
      ((c.sreg 1).toNat + ((0 : BitVec 21).signExtend 64).toNat) % 2 ^ 64 + 0x100 * 255 < aBase := by
  unfold WellFormed State.Serves; decide +kernel

/-- Core 0 at a line, with its core changed. -/
def atLine (l : Line) (f : Core → Core) : State := (State.reset.placeLine l).updCore 0 f

/-- A line of the pool, one that no copy gives, a line with an unassigned code, two writers of one register, MARK beside an instruction that
stands alone, and a result that a bundle reads too early. -/
theorem witness_AddressFaultsAndIssueTraps_lines :
    (let s := (atLine 0 id).updVf 0 (fun f => { f with images := [(0, { fetchImage 0 0 with pools := [(0, 1)] })] })
     (s.core 0).atBoundary s.now = true ∧ s.segmentStep 0 = s ∧ (s.core 0).bound = 0 ∧ s.lineAt 0 0 = .line 0 ∧ s.poolLine 0 0 = true) ∧
    (let l : Line := BitVec.ofNat 512 (0x5600000000000000 * 2 ^ 64); (atLine l id).StandsAt 0 l ∧ (decodeLine l).bad ≠ []) ∧
    (let l := encodeBundle [.add .sa 3 1 2, .add .sb 3 1 2] false false; let b := decodeLine l
     (atLine l id).StandsAt 0 l ∧ (∃ e ∈ b.acts, ∃ f ∈ b.acts, e.1 ≠ f.1 ∧ locsMeet (destsOf e.2) (destsOf f.2) = true) ∧ b.bad = []) ∧
    (let l := encodeBundle [.pool 1] true false; let b := decodeLine l
     (atLine l id).StandsAt 0 l ∧ (∃ e ∈ b.acts, standsAlone e.2 = true) ∧ b.mark = true) ∧
    (let l := encodeBundle [.add .sa 3 1 2] false false; let b := decodeLine l
     let s := atLine l (fun c => { c with results := [⟨1, 0, 1, [⟨.scalar, 1, 1⟩], 5, .scalar 1 7⟩] })
     s.StandsAt 0 l ∧ stepTwo b = (0, 0) ∧ (∃ e ∈ b.acts, ∃ x ∈ (s.core 0).results, s.now < x.land ∧ locsMeet (sourcesOf e.2) x.locs = true) ∧
      (s.core 0).imode = false) := by
  unfold State.StandsAt; decide +kernel

/-- A line that the store cannot give, interlocked mode, and an `ls` beside an `sf`, both of which fault. -/
theorem witness_AddressFaultsAndIssueTraps_both :
    (let l := encodeBundle [.add .sa 3 1 2] false false; let b := decodeLine l
     let s := atLine l (fun c => { c with imode := true, results := [⟨1, 0, 1, [⟨.scalar, 1, 1⟩], 5, .scalar 1 7⟩] })
     s.StandsAt 0 l ∧ (s.core 0).imode = true ∧ s.bankHold 0 b = false ∧ (s.core 0).late s.now b.ct = false ∧ (s.core 0).debugNow = false) ∧
    (let l := encodeBundle [.lds 1 3 0 false 0, .park 0 false ⟨0, 0⟩] false false; let b := decodeLine l
     let s := atLine l (withS 1 0x7000000000000000)
     s.StandsAt 0 l ∧ stepTwo b = (0, 0) ∧ s.hazards 0 b = [] ∧ b.mark = false ∧ s.holdOf 0 b false = none ∧ ((s.core 0).stepFour b).1 = 0 ∧
      s.bundleService 0 b = none ∧ (s.core 0).markBad b = false ∧ s.controlFault 0 b.ct = none ∧ (s.core 0).uniformCheck b = none ∧
      (s.addressFault 0 (b.at .ls)).isSome = true ∧ (s.addressFault 0 (b.at .sf)).isSome = true) := by
  unfold State.StandsAt; decide +kernel

/-- A line that no copy gives, two users of one port, two of one tile, five reads of one cluster, and an `ls` that shares port and tile with the
matrix slot. -/
theorem witness_AddressFaultsAndIssueTraps_pools :
    (let s := atLine 0 (fun c => { c with istore := { c.istore with broken := [(0, 1)] } }); s.lineAt 0 0 = .broken 1 ∧ s.segmentStep 0 = s) ∧
    (let l := encodeBundle [.mstc 1 0 0, .fill 1 0 0] false false; let b := decodeLine l
     (atLine l id).StandsAt 0 l ∧ share (fixedPorts (b.at .mx)) (fixedPorts (b.at .sf)) = true) ∧
    (let l := encodeBundle [.mclr 0, .park 0 false ⟨0, 0⟩] false false; let b := decodeLine l
     (atLine l id).StandsAt 0 l ∧ share (mxTiles (b.at .mx)) (sfTiles (b.at .sf)) = true) ∧
    (let l := encodeBundle [.vfma .va 9 0 false ⟨0, 7⟩ ⟨8, 7⟩ ⟨16, 7⟩, .stv 0 1 0 0 false ⟨0, 0⟩, .park 0 false ⟨0, 0⟩] false false; let b := decodeLine l
     (atLine l id).StandsAt 0 l ∧ 4 < ((b.acts.flatMap (fun e => cReads e.2)).filter (· == false)).length) ∧
    (let l := encodeBundle [.mclr 0, .lds 1 3 0 false 0] false false; let b := decodeLine l; let s := atLine l (withS 1 0x7F00000000100000)
     s.StandsAt 0 l ∧ stepTwo b = (0, 0) ∧ s.hazards 0 b = [] ∧ s.holdOf 0 b false = none ∧
      ((s.core 0).plan (b.at .ls)).any (fun q => q.ports.contains .cAccess && share q.tiles (mxTiles (b.at .mx))) = true) ∧
    (let l := encodeBundle [.lds 1 3 0 false 0, .slda 0 0] false false; let b := decodeLine l; let s := atLine l (withS 1 0x7F00000000000000)
     s.StandsAt 0 l ∧ stepTwo b = (0, 0) ∧ s.hazards 0 b = [] ∧ s.holdOf 0 b false = none ∧
      ((s.core 0).plan (b.at .ls)).any (fun q => share q.ports (fixedPorts (b.at .sf))) = true) := by
  unfold State.StandsAt
  decide +kernel

/-- R74: an access from below the A buffer into it takes no port, one that begins in it does. -/
theorem test_ports_by_address : ((on (withS 1 0x7EFFFFFFFFFFFFFC)).core 0 |>.plan (.lds 1 3 3 false 0)).map Plan.ports = some [] ∧
    ((on (withS 1 0x7F0000000007FFFC)).core 0 |>.plan (.lds 1 3 3 false 0)).map Plan.ports = some [.aRead] := by decide +kernel

/-- Core 0 with a global load whose data has come, and one whose sector may be read. -/
def loading : State := on (fun c => { c with loads := [⟨1, .load, 0, 6, [⟨.scalar, 63, 1⟩], .scalar 63 8 true 0x1000, [], [(0x1007, 0x80)], ⟨0, [], [], []⟩, some 0, false, none⟩,
  ⟨2, .load, 0, 6, [⟨.scalar, 2, 1⟩], .scalar 2 1 false 0x1020, [⟨0x81, 1, 0, false⟩], [], ⟨0, [], [(1, 5)], []⟩, none, false, none⟩] })

theorem witness_LongPendingLoadsLand :
    (∃ l, (loading.core 0).loads.find? (fun x => x.id == 1) = some l ∧ l.land = some 0 ∧ 0 ≤ loading.now ∧ l.err = false ∧
      loading.wayState 0 l.trans = .active ∧ l.dest = .scalar 63 8 true 0x1000 ∧ 63 < 64 ∧ 63 ≠ 0 ∧ 0 < 8 ∧ Memory.readN l.got 0x1000 8 < 2 ^ (8 * 8)) ∧
    (∃ l p, (loading.core 0).loads.find? (fun x => x.id == 2) = some l ∧ l.kind = .load ∧ l.parts[0]? = some p ∧ p.due ≤ loading.now ∧
      p.got = false ∧ l.trans.ready = true ∧ readBlocked (loading.core 0).loads l p = false) := by
  refine ⟨⟨_, rfl, rfl, by decide, rfl, by decide, rfl, by decide, by decide, by decide, by decide +kernel⟩,
    ⟨_, _, rfl, rfl, rfl, by decide, rfl, by decide, by decide⟩⟩

/-! Events of a core. -/

/-- Core 0 stopped by a trap of the given cause, with its record. -/
def trappedWith (cause : Nat) : State := on (fun c => { c with
  run := .stopped, stop := some (.trap ⟨cause, 0, 0, 0, 0⟩), trapinfo := if cause = 13 then 0x0400000000000000 else 0x0000000100000000 })

/-- A failed load of core 0: page 1 absent. -/
def failing : State := on (fun c => { c with loads := [⟨1, .load, 0, 6, [⟨.scalar, 2, 1⟩], .scalar 2 1 false 0x1020, [⟨0x81, 1, 0, false⟩], [], ⟨0, [], [], [(0x1020, 1)]⟩, none, false, none⟩] })

theorem witness_CoresStopAndDrain :
    (let s := on (fun c => { c with bound := 1, markDist := 2 }); let c := s.core 0
     c.atBoundary s.now = true ∧ c.pend = [] ∧ c.failed = false ∧ c.stopNext = none ∧ c.bound ≠ 0 ∧ c.bound.toNat + 1 ≤ c.markDist ∧
      ∀ l, s.lineAt 0 c.regs.pc.toNat = .line l → (decodeLine l).mark = false) ∧
    (let c := failing.core 0; c.run = .running ∧ c.expanding failing.now = false ∧ c.failed = true ∧ c.pendNow = none) ∧
    (let s := on (fun c => { c with run := .draining, stop := some (.trap ⟨4, 1, 0xFFFF, 0, 0⟩) })
     (s.core 0).run = .draining ∧ (s.core 0).stop = some (.trap ⟨4, 1, 0xFFFF, 0, 0⟩) ∧ (4 : Nat) ≠ 13 ∧ (s.core 0).drained = true) ∧
    (let s := on (fun c => { c with run := .draining, stop := some .halt })
     (s.core 0).stop = some .halt ∧ (s.core 0).drained = true ∧ (s.core 0).pend = [] ∧ (s.core 0).performs = [] ∧ (s.core 0).queue = []) ∧
    (let s := on (fun c => { c with run := .draining, stop := some .seal })
     (s.core 0).run = .draining ∧ (s.core 0).stop = some .seal ∧ (s.core 0).drained = true ∧ (s.core 0).performs = [] ∧ (s.core 0).queue = []) ∧
    (let s := on (fun c => { c with run := .draining, stop := some (.mark .claim) })
     (s.core 0).stop = some (.mark .claim) ∧ (s.core 0).drained = true) ∧
    ((base.core 0).framed = false ∧ (base.core 0).debugStopped = false) ∧
    (let s := on (fun c => { c with dbg := { c.dbg with req := 32 } }); let c := s.core 0
     c.run = .running ∧ c.expanding s.now = false ∧ c.debugNow = true ∧ c.pendNow = none ∧ c.failed = false ∧ ∀ r, s.verdict 0 ≠ .trap r) ∧
    (let s := on (fun c => { c with wait := some (.step 0), dbg := { c.dbg with req := 64 } }); (s.core 0).debugNow = true ∧ (s.core 0).wait.isSome = true) ∧
    (let s := on (fun c => { c with run := .draining, stop := some (.debug 32) }); (s.core 0).stop = some (.debug 32) ∧ (s.core 0).drained = true) ∧
    (let s := on (fun c => { c with run := .stopped, stop := some (.debug 32) }); (s.core 0).framed = false ∧ (s.core 0).debugStopped = true) := by
  refine ⟨⟨by decide, by decide, by decide, by decide, by decide, by decide, ?_⟩, by decide, by decide, by decide, by decide, by decide, by decide,
    ⟨by decide, by decide, by decide, by decide, by decide, ?_⟩, by decide, by decide, by decide⟩
  · intro l h
    have e : (on (fun c => { c with bound := 1, markDist := 2 })).lineAt 0 (((on (fun c => { c with bound := 1, markDist := 2 })).core 0).regs.pc.toNat) = .line 0 := by
      decide +kernel
    rw [e] at h
    cases h
    decide +kernel
  · intro r h
    have e : (on (fun c => { c with dbg := { c.dbg with req := 32 } })).verdict 0 = .issue (decodeLine 0) := by decide +kernel
    rw [e] at h
    cases h

/-- Die 0 with a stopped job of core 0 that has met a fault. -/
def faulted (run : Run) : State := (on (fun c => { c with run })).updDie 0 (fun d => { d with jobs := [
  { id := 1, core := 0, launch := 0, queue := 0, template := 0, tpl := 0, param := 0, bundle := 0, sch := 0, started := 0, release := 0, pos := 0,
    view := View.initial, state := .stopped, todo := [], done := 0, first := false, src := [], lines := [], key := 0, due := 0, wvpn := none, walked := none,
    fault := some ⟨9, 0, 0, 0, 0⟩ }] })

theorem witness_ErrorsFaultsAndWalks :
    (landing.core 0).carries 1 = true ∧
    (let e : DataErr := ⟨2, 0, 0, 0⟩
     e.source ≠ 6 ∧ (0x80 : BitVec 8) ≠ 0 ∧ (base.core 0).atBoundary base.now = true ∧ (base.core 0).pend = [] ∧ (base.core 0).failed = false ∧
      (base.core 0).stopNext = none ∧ base.verdict 0 = .issue (decodeLine 0)) ∧
    (base.unitRec (base.unitOf 0 1 0)).state = .serving ∧ base.hopSpent (base.unitOf 0 1 0) = false ∧
    (∃ j r, (faulted .running).faultedJob 0 = some j ∧ j.fault = some r ∧ ((faulted .running).core 0).run ≠ .halted ∧ dieOf 0 < 4) ∧
    (∃ j r x, (faulted .halted).faultedJob 0 = some j ∧ j.fault = some r ∧ ((faulted .halted).core 0).run = .halted ∧
      ((faulted .halted).core 0).launch = some 0 ∧ (faulted .halted).launch? 0 = some x ∧ x.aborted = false) ∧
    (let s := (on (fun c => { c with tlb := [] })).updDie 3 (fun d => { d with walks := [⟨1, 0, 1, 480, 0⟩] })
     3 < 4 ∧ (s.die 3).walks.find? (fun x => x.id == 1) = some ⟨1, 0, 1, 480, 0⟩ ∧ 0 ≤ s.now) ∧
    (let s := { trappedWith 4 with time := ⟨11000000000000, 0, none⟩ }
     ∃ r x, (s.core 0).trapped = some r ∧ (s.core 0).launch = some 0 ∧ s.launch? 0 = some x ∧ x.aborted = false ∧ s.schedules = true ∧
      (s.core 0).stopNext ≠ some .rollback ∧ (s.core 0).stopAt + 1000000 ≤ s.ns ∧ r.cause = 4) := by
  refine ⟨by decide, ⟨by decide, by decide, by decide, by decide, by decide, by decide, by decide +kernel⟩, by decide, by decide,
    ⟨_, _, rfl, rfl, by decide, by decide⟩, ⟨_, _, _, rfl, rfl, by decide, by decide, rfl, by decide⟩, by decide,
    ⟨_, _, rfl, by decide, rfl, by decide, by decide, by decide, by decide, rfl⟩⟩

/-- A mark-table entry without items, and an image with it whose one bundle carries MARK. -/
def entry7 : MarkEntry := ⟨7, 0, 0, []⟩
def marked : State := (on (fun c => { c with run := .stopped, stop := some (.mark .preempt) })).updVf 0 (fun f =>
  { f with images := [(0, { fetchImage (encodeBundle [] true false) 0 with marks := [entry7] })] })

/-- Core 0 of a launch with a saved record of that entry. -/
def saved7 : Saved := ⟨7, 0, CoreStat.zero, 9, [], Vector.replicate 7 0, [], [], none⟩
def resuming : State := ((marked.updLaunch 0 (fun x => { x with saves := [(0, saved7)] })).updCore 0 (fun c => { c with run := .starting 1, stop := none }))

/-- A mark-table entry with an item of each kind, inside one loop, and a record that fits it, with a clasp. -/
def entryAll : MarkEntry := ⟨7, 0, 1, [⟨2, 1, 63⟩, ⟨3, 2, 0x3B⟩, ⟨4, 3, 0x1F⟩, ⟨6, 4, 0⟩, ⟨1, 5, BitVec.ofNat 64 (15 + 3056 * 2 ^ 24 + 2 ^ 36)⟩,
  ⟨5, 6, BitVec.ofNat 64 (32 + 524256 * 2 ^ 24)⟩]⟩
def savedAll : Saved := { saved7 with
  depth := 1, levels := [(2, 1)], clasps := [(127, 0x60000000000)], items := entryAll.items.map (fun d => (d.kind, d.vid, itemBits d.kind d.loc.toNat, 5)) }
def resumingAll : State := ((marked.updVf 0 (fun f => { f with images := [(0, { fetchImage (markLine []) 0 with marks := [entryAll] })] })).updLaunch 0 (fun x =>
  { x with saves := [(0, savedAll)] })).updCore 0 (fun c => { c with run := .starting 1, stop := none })

theorem witness_StoppedCoresAreServed_items :
    ∃ x i, (resumingAll.core 0).run = .starting 1 ∧ resumingAll.launchOf 0 = some (0, x) ∧ resumingAll.imageOf 0 = some i ∧
      find? x.saves (32 * (resumingAll.core 0).rrow + (resumingAll.core 0).rcol) = some savedAll ∧ i.entryOf savedAll.rpid = some entryAll ∧
      saveFits entryAll savedAll = true ∧ savedAll.replay = none ∧ find? savedAll.clasps 127 = some 0x60000000000 ∧ find? savedAll.clasps 0 = none ∧
      (∀ d ∈ entryAll.items, (savedAll.items.find? (fun y => y.2.1 == d.vid)).isSome = true) ∧
      (∀ k, k ∈ [1, 2, 3, 4, 5, 6] → (entryAll.items.filter (fun d => d.kind == k)).length = 1) := by
  refine ⟨_, _, by decide, rfl, rfl, by decide, by decide, by decide +kernel, rfl, by decide, by decide, by decide +kernel, by decide⟩

/-- Core 0 alone in group 0 with an open window and a locket, stopped by a data error that a rollback recovers. -/
def erring : State := (grouped.updCore 0 (fun c => { c with
  run := .stopped, stop := some (.trap ⟨14, 0, 0x20000, 0, 0⟩), errs := [(0, ⟨2, 0, 0, 0⟩)]
  regs := { c.regs with stat := { c.regs.stat with window := true } }
  locket := some ⟨{ c.regs with stat := { c.regs.stat with window := true } }, [], 0, false, 0, 1, 0, [], [], [], [], false⟩ }))

theorem witness_StoppedCoresAreServed :
    (∃ r, ((trappedWith 4).core 0).trapped = some r ∧ (trappedWith 4).schedules = true ∧ ((trappedWith 4).core 0).stopNext ≠ some .rollback ∧ r.cause = 4) ∧
    (∃ r, ((trappedWith 5).core 0).trapped = some r ∧ r.cause = 5) ∧
    (∃ r, ((trappedWith 13).core 0).trapped = some r ∧ ((trappedWith 13).core 0).mayResume r = true ∧ r.cause = 13) ∧
    (∃ r, ((trappedWith 12).core 0).trapped = some r ∧ ((trappedWith 12).core 0).mayResume r = true ∧ r.cause = 12 ∧
      ((trappedWith 12).core 0).stopNext = none ∧ ((trappedWith 12).core 0).wait = none) ∧
    (∃ x, base.launch? 0 = some x ∧ x.aborted = false ∧ base.schedules = true) ∧
    (∃ x, (marked.core 0).run = .stopped ∧ (marked.core 0).stop = some (.mark .preempt) ∧ (marked.core 0).launch = some 0 ∧ marked.launch? 0 = some x ∧
      (marked.core 0).performs = [] ∧ (marked.core 0).queue = [] ∧ marked.noJobs 0 = true ∧ marked.markAt 0 (marked.core 0).markPc = some entry7) ∧
    (∃ x i, (resuming.core 0).run = .starting 1 ∧ resuming.launchOf 0 = some (0, x) ∧ resuming.imageOf 0 = some i ∧
      find? x.saves (32 * (resuming.core 0).rrow + (resuming.core 0).rcol) = some saved7 ∧ i.entryOf saved7.rpid = some entry7 ∧ saveFits entry7 saved7 = true) ∧
    (erring.rollbackFor 0 = some (0, [0], [(0, ⟨2, 0, 0, 0⟩)]) ∧ (erring.core 0).launch = some 0 ∧ erring.schedules = true ∧
      (∀ e ∈ [((0 : Nat), (⟨2, 0, 0, 0⟩ : DataErr))], erring.unitFailed e.1 e.2 = false) ∧ (∀ k ∈ [0], (erring.core k).run = .stopped ∧ erring.noJobs k = true) ∧
      ∃ lk, (erring.core 0).locket = some lk) := by
  refine ⟨⟨_, rfl, by decide, by decide, rfl⟩, ⟨_, rfl, rfl⟩, ⟨_, rfl, by decide, rfl⟩, ⟨_, rfl, by decide, rfl, by decide, by decide⟩,
    ⟨_, rfl, by decide, by decide⟩, ⟨_, by decide, by decide, by decide, rfl, by decide, by decide, by decide, by decide⟩,
    ⟨_, _, by decide, rfl, rfl, by decide, by decide, by decide⟩, ⟨by decide +kernel, by decide, by decide, by decide, ?_, _, rfl⟩⟩
  decide

/-- A frame of world 1 on core 0, stopped for its seal at the MARK of that entry. -/
def sealing : State := marked.updCore 0 (fun c => { c with stop := some .seal, frames := ⟨0, 65536, [17], [(0, 0)]⟩, frameOpen := some 0 })

theorem witness_StoppedCoresAreServed_seal :
    (sealing.core 0).run = .stopped ∧ (sealing.core 0).stop = some .seal ∧ (sealing.core 0).launch = some 0 ∧ (sealing.core 0).performs = [] ∧
      (sealing.core 0).queue = [] ∧ sealing.noJobs 0 = true ∧ sealing.markAt 0 (sealing.core 0).markPc = some entry7 := by decide

/-- The seal stores the record under counter 0, and the core is idle and clear (R401). -/
theorem test_seal : let t := after (.saveRecord 0) sealing
    ((t.core 0).run, (t.core 0).launch, t.sealCounter 0 1 0, t.launches.length, t.seals.length) = (.idle, none, 1, 0, 1) := by decide +kernel

/-- A rollback keeps a cause that it does not serve, and the locket remembers the error that it serves (R307, R323). -/
theorem test_rollback_keeps_causes : let t := after (.rollback 0) (erring.updCore 0 (fun c => { c with pend := [.data ⟨14, 0, 0x80005, 0, 0⟩] }))
    ((t.core 0).run, (t.core 0).pend.length, (t.core 0).locket.map (fun k => k.lastErrs)) = (.running, 1, some [⟨2, 0, 0, 0⟩]) := by decide +kernel

/-- Group 0 with its release due and its one member arrived; a translated store of it is queued, and one stands in its commons region. -/
def releasing : State := (((regional 0).updLaunch 0 (fun x => { x with arrived := [(0, 0)], relAt := [(0, 0)] })).updCore 0 (fun c => { c with
  wait := some (.step 0), queue := [⟨1, 0, 0, [(0x1000, 0x77, 0xFF)], { issued := 0, waits := [], pages := [(1, 5)], fails := [] }⟩] })).updDie 0 (fun d =>
    { d with stores := [⟨0, 0, 0, 0, 0, [(0x1FFF, 0x77, 0xFF)]⟩] })

theorem witness_WaitsEndAndGroupsRelease :
    (let s := on (fun c => { c with wait := some (.clasp 127), wakeAt := some 0 }); let c := s.core 0
     c.run = .running ∧ c.wait = some (.clasp 127) ∧ c.wakeAt = some 0 ∧ 0 ≤ s.now ∧ c.waitMark = false) ∧
    (let s := on (fun c => { c with wait := some (.tx 0x7F0000000007FFF0 1) }); let c := s.core 0
     c.run = .running ∧ c.wait = some (.tx 0x7F0000000007FFF0 1) ∧ c.txPhase (0x7F0000000007FFF0 - aBase) ≠ 1 ∧ c.waitMark = false) ∧
    (∃ x, releasing.launch? 0 = some x ∧ (∃ at0, (0, at0) ∈ x.relAt ∧ at0 ≤ releasing.now) ∧
      releasing.allArrived x 0 (releasing.members x 0) = true ∧ releasing.members x 0 = [0] ∧ (releasing.members x 0).Nodup ∧
      (∀ m ∈ releasing.members x 0, (releasing.core m).performs = [] ∧ ((releasing.core m).queue.map (fun e => e.seq)).Nodup ∧
        ∀ e ∈ (releasing.core m).queue, e.trans.ready = true ∧ releasing.notifying (releasing.vfOf m) e.trans = none ∧
          releasing.transReach m e.trans = .active) ∧
      (∀ d, d < 4 → releasing.collision d 0 0 (releasing.members x 0) = none) ∧ (0, 0) ∈ x.arrived ∧
      (releasing.groupRegions 0 0 0).Pairwise (fun r q => r.base + r.count ≤ q.base ∨ q.base + q.count ≤ r.base) ∧
      (releasing.groupRegions 0 0 0).length = 1 ∧ (releasing.storesOf 0 0 0 (releasing.members x 0)).length = 1) := by
  refine ⟨by decide, by decide, ⟨_, rfl, ⟨0, by decide, by decide⟩, by decide, by decide, by decide, by decide, by decide, by decide, by decide, by decide, by decide⟩⟩
/-! Events of a die: jobs. -/

/-- A template from global 0x1000 of one row of 32 raw bytes to the A buffer, key slot `key`, bank 0 allowed. -/
def copyTpl (key : Nat) : BitVec 1024 :=
  BitVec.ofNat 1024 (0x1000 + 0x7F00000000000000 * 2 ^ 64 + 31 * 2 ^ 192 + 0x1F * 2 ^ 448 + 0x1F * 2 ^ 456 + key * 2 ^ 480 + 2 ^ 768)

/-- A bank-product template: x of one BF16 pair in the A buffer, y of one word in C, B at global 0x1000 (R273). -/
def bankTpl : BitVec 1024 :=
  BitVec.ofNat 1024 (0x7F00000000000000 + 0x7F00000000100000 * 2 ^ 64 + 0x1000 * 2 ^ 128 + 1 * 2 ^ 192 + 3 * 2 ^ 448 + 3 * 2 ^ 456 + 2 ^ 465 + 2 ^ 832)

/-- A job of core 0. -/
def aJob (tpl : BitVec 1024) (queue : Nat) (state : JobState) : Job :=
  { id := 1, core := 0, launch := 0, queue, template := 5, tpl, param := 0, bundle := 0, sch := 0, started := 0, release := 0, pos := 0,
    view := View.initial, state, todo := [], done := 0, first := true, src := [], lines := [], key := 0, due := 0, wvpn := none, walked := none, fault := none }

/-- The same with its sectors in order and all source bytes of the first read. -/
def readJob (tpl : BitVec 1024) (queue : Nat) : Job :=
  let j := { aJob tpl queue .running with todo := (aJob tpl queue .running).sectors }
  { j with src := (match j.todo with
    | e :: _ => (j.needs (32 * e.1)).map (fun a => (a, (0x3F80 : BitVec 256)))
    | [] => []) }

/-- Die 0 with one job of core 0, whose key slot 63 is valid; the next draw is 0. -/
def jobOn (j : Job) : State :=
  { (on (fun c => { c with keys := [(63, BitVec.ofNat 512 (2 ^ 504))] })).updDie 0 (fun d => { d with jobs := [j] }) with delays := [0] }

theorem witness_JobsBeginAndMove :
    (let j := aJob (copyTpl 0) 0 .waiting; (jobOn j |>.die 0).jobs.find? (fun x => x.id == 1) = some j ∧ j.state = .waiting ∧ j.due ≤ (jobOn j).now ∧
      (jobOn j).jobFree 0 j = true ∧ tplKey j.tpl = 0) ∧
    (let j := aJob (copyTpl 63) 0 .waiting; (jobOn j).jobFree 0 j = true ∧ tplKey j.tpl ≠ 0 ∧
      ((jobOn j).core 0).keyFor (tplKey j.tpl) = some (BitVec.ofNat 512 (2 ^ 504))) ∧
    (let j := aJob (copyTpl 1) 0 .waiting; tplKey j.tpl ≠ 0 ∧ ((jobOn j).core 0).keyFor (tplKey j.tpl) = none) ∧
    (let j := readJob (copyTpl 0) 0; let s := jobOn j; let c := s.core j.core
     ∃ sct bm, (s.draw.1 = 0 ∨ j.ahead = []) ∧ s.jobReady 0 j = true ∧ j.todo[j.done]? = some (sct, bm) ∧ (∀ x ∈ j.needs (32 * sct), (find? j.src x).isSome = true) ∧
      bufOf 0 (32 * sct) = some (.a, 0) ∧ tplAllows j.tpl .a (Buf.a.bank 0) = true ∧ c.jobAccesses s.now < 4 ∧
      (∀ r ∈ c.rsv, ¬(r.last = s.now ∧ r.user = j.user)) ∧ c.bankHeld s.now j.user [(.a, Buf.a.bank 0)] = false ∧ tplBank j.tpl = false) ∧
    (let j := readJob bankTpl 16; let s := jobOn j; let c := s.core j.core
     ∃ sct bm, (s.draw.1 = 0 ∨ j.ahead = []) ∧ s.jobReady 0 j = true ∧ j.todo[j.done]? = some (sct, bm) ∧ (∀ x ∈ j.needs (32 * sct), (find? j.src x).isSome = true) ∧
      bufOf 0 (32 * sct) = some (.c, 0) ∧ tplAllows j.tpl .c (Buf.c.bank 0) = true ∧ tplBank j.tpl = true ∧
      c.bankHeld s.now j.user [(.c, Buf.c.bank 0)] = false) := by
  refine ⟨by decide +kernel, by decide +kernel, by decide +kernel,
    ⟨0x3F8000000000000, 2 ^ 32 - 1, .inl rfl, by decide +kernel, by decide +kernel, by decide +kernel, by decide +kernel, by decide +kernel, by decide +kernel,
      (by intro r h; cases h), by decide +kernel, by decide +kernel⟩,
    ⟨0x3F8000000008000, 15, .inl rfl, by decide +kernel, by decide +kernel, by decide +kernel, by decide +kernel, by decide +kernel, by decide +kernel,
      by decide +kernel⟩⟩

/-! Command processors. -/

theorem ok_of_toOption {x : Except Nat Bool} {m : Bool} (h : x.toOption = some m) : x = .ok m := by
  cases x with
  | ok a => cases h; rfl
  | error e => cases h

theorem error_of_swap {x : Except Nat Bool} {e : Nat} (h : (match x with
    | .error k => some k
    | .ok _ => none) = some e) : x = .error e := by
  cases x with
  | ok a => cases h
  | error k => cases h; rfl

/-- Virtual function 0 on die 0 with pages that fill its first 2 MiB at physical 2 MiB, booted. -/
def booted : State := { (base.updVf 0 (fun f => { f with exists_ := true, dies := [0], pages := [⟨0, 0, 0x200000, 0x200000, true, true, false, 0⟩] })) with
  boot := ⟨false, false, 0, 0, [], 0, 0, [], []⟩ }

/-- Queue 0 of die 0 with the given packet in hand. -/
def aQueue : Queue :=
  { vf := 0, prio := 0, base := 0, log2n := 4, vec := 0, en := true, prod := 1, cons := 0, err := 0, state := .run, hand := .none,
    packet := none, ready := false, idx := 0, since := 0, polled := 0, due := false, fwd := [] }
def queued (x : Queue) : State := { booted with queues := [(0, x)] }
def holding (p : Nat) : State := queued { aQueue with packet := some (BitVec.ofNat 512 p) }

/-- The same with the host link in a state of R408, and launch 0 in hand, behind which CONS may move. -/
def linked (st : BitVec 2) : State := { queued { aQueue with state := QState.error, err := 4, hand := .launch 0, packet := some 1 } with ports := [(0, ⟨st, 16, 16, 2048⟩)] }

theorem witness_QueueRegistersChange :
    (((linked 2).port ((linked 2).hostPort 0)).up = true ∧ (linked 2).portIn = [] ∧ ((linked 1).port ((linked 1).hostPort 0)).state = 1) ∧
    (let s := (linked 2).updLaunch 0 (fun x => { x with state := .ready }); let x := s.queue 0 0
     x.state = .error ∧ x.hand = .launch 0 ∧ (∃ y, s.launch? 0 = some y ∧ y.state = .ready) ∧ (x.idx - x.cons).toNat < ((1 : BitVec 32) - x.cons).toNat) ∧
    (∃ y, (linked 2).launch? 0 = some y ∧ y.state ≠ .ready) ∧
    (let s := { queued aQueue with ports := [(2, ⟨2, 4, 4, 800⟩)] }
     s.vfWay 0 0 0 64 = .active ∧ (s.portLink rackLink).up = true ∧ (∀ e ∈ s.portIn, e.1 ≠ rackLink) ∧ (∀ e ∈ s.portOut, e.1 ≠ rackLink) ∧
      (find? s.queues (qKey 0 0)).isSome = true) ∧
    (let s := { queued aQueue with ports := [(19, ⟨1, 0, 8, 0⟩)] }; (s.portLink rackLink).state = 1) ∧
    (queued aQueue).ownsQueue 0 0 0 = true ∧ ((16 : BitVec 32) - aQueue.cons).toNat ≤ 2 ^ aQueue.log2n.toNat ∧
    2 ^ aQueue.log2n.toNat < ((17 : BitVec 32) - aQueue.cons).toNat ∧ aQueue.state ≠ .error ∧
    (let x := { aQueue with state := QState.error, err := 4 }; (queued x).queue 0 0 = x ∧ x.state = .error ∧
      ((1 : BitVec 32) - x.cons).toNat ≤ (x.prod - x.cons).toNat) ∧
    ((3 : Nat) < 4 ∧ (31 : Nat) < 32 ∧ (booted.vf 0).dies.contains 0 = true) ∧
    ((find? (queued aQueue).queues (qKey 0 0)).isSome = true ∧ (aQueue.prod - aQueue.cons).toNat < 2 ^ aQueue.log2n.toNat) := by
  refine ⟨by decide, ⟨by decide, by decide, ⟨_, rfl, by decide⟩, by decide⟩, ⟨_, rfl, by decide⟩, by decide +kernel, by decide, by decide, by decide, by decide, by decide, by decide, by decide, by decide⟩

theorem witness_PacketsAreProcessed :
    -- a packet that waits for the word at 0x100
    (let s := holding (0x100 * 2 ^ 320); let p : Line := BitVec.ofNat 512 (0x100 * 2 ^ 320)
     (s.queue 0 0).packet = some p ∧ (s.queue 0 0).state = .run ∧ (s.queue 0 0).hand = .none ∧ s.serves 0 = true ∧ packetErr p = 0 ∧
      pkWaitAddr p ≠ 0 ∧ (s.queue 0 0).ready = false ∧ s.cpRead 0 0 (pkWaitAddr p) 8 = some 0 ∧ pkWaitVal p ≤ 0) ∧
    -- an unassigned type, and NOP with a reserved bit
    packetErr 4 ≠ 0 ∧ packetErr 0x100 ≠ 0 ∧
    -- NOP
    (packetErr 0 = 0 ∧ pkWaitAddr 0 = 0 ∧ pkType 0 = 0 ∧ (holding 0).sigWaits 0 0 0 = false) ∧
    -- a launch of image 0 on one core, accepted, and one of an unknown image
    (let s := holding 1; let p : Line := 1
     packetErr p = 0 ∧ pkType p = 1 ∧ s.cool = true ∧ pkIndirect p = false ∧ s.imageHeld 0 p = false ∧ s.linkWaits 0 0 p = false ∧ (s.queue 0 0).idx = (s.queue 0 0).cons ∧ s.checkFrom 0 0 s.nextId p (pkHm1 p) none = .ok false) ∧
    (let s := holding 0x10001; let p : Line := 0x10001
     packetErr p = 0 ∧ pkType p = 1 ∧ pkIndirect p = false ∧ s.imageHeld 0 p = false ∧ s.linkWaits 0 0 p = false ∧ s.checkFrom 0 0 s.nextId p (pkHm1 p) none = .error 1) ∧
    -- a launch at WARN
    (let s := { holding 1 with pkg := ⟨0, 0, 95, 1⟩ }; s.cool = false ∧ s.serves 0 = true) ∧
    -- a graph that is registered, and one that is not
    (let s := { holding 0x100010002 with graphs := [⟨1, 1, 0, []⟩] }; let p : Line := 0x100010002
     packetErr p = 0 ∧ pkType p = 2 ∧ s.graphOf 0 (pk p 31 16) (pk p 63 32) = some ⟨1, 1, 0, []⟩ ∧ s.graphBusy 0 (pk p 31 16) = false) ∧
    (let p : Line := 0x100010002; (holding 0x100010002).graphOf 0 (pk p 31 16) (pk p 63 32) = none ∧ (holding 0x100010002).sigWaits 0 0 p = false) ∧
    -- a copy
    (packetErr 3 = 0 ∧ pkType 3 = 3) := by
  refine ⟨by decide +kernel, by decide +kernel, by decide +kernel, by decide +kernel,
    ⟨by decide +kernel, by decide +kernel, by decide +kernel, by decide +kernel, by decide +kernel, by decide +kernel, by decide +kernel, ok_of_toOption (by decide +kernel)⟩,
    ⟨by decide +kernel, by decide +kernel, by decide +kernel, by decide +kernel, by decide +kernel, error_of_swap (by decide +kernel)⟩, by decide +kernel, by decide +kernel,
    by decide +kernel, by decide +kernel⟩

/-- A copy of 16 bytes from 0x100 to 0x200 that ends now. -/
def copying : State := { queued { aQueue with hand := .copy 7, packet := some 3 } with
  copies := [(7, ⟨0, 0, none, 0, BitVec.ofNat 512 (3 + 0x100 * 2 ^ 128 + 0x200 * 2 ^ 192 + 16 * 2 ^ 256), 0⟩)] }

theorem witness_PacketsAreProcessed_copy :
    let c : CopySub := ⟨0, 0, none, 0, BitVec.ofNat 512 (3 + 0x100 * 2 ^ 128 + 0x200 * 2 ^ 192 + 16 * 2 ^ 256), 0⟩
    let a : Page := ⟨0, 0, 0x200000, 0x200000, true, true, false, 0⟩
    find? copying.copies 7 = some c ∧ c.due ≤ copying.now ∧ (find? copying.queues (qKey 0 0)).isSome = true ∧
      Memory.wf copying.mem = true ∧ pkSig c.packet = 0 ∧ 0 < pkLength c.packet ∧ pkSrc c.packet % 4096 + pkLength c.packet ≤ 4096 ∧
      pkDst c.packet % 4096 + pkLength c.packet ≤ 4096 ∧ pkSrc c.packet + pkLength c.packet ≤ pkDst c.packet ∧
      copying.pageOf 0 (pkSrc c.packet) = some a ∧ a.r = true ∧ a.w = true ∧ a.dev = 0 ∧ c.node = none ∧ a.vbase ≤ pkSrc c.packet ∧ pkSrc c.packet + pkLength c.packet ≤ a.vbase + a.size ∧
      (∀ k, k < pkLength c.packet → copying.pageOf 0 (pkDst c.packet + k) = some a) ∧ a.vbase ≤ pkDst c.packet ∧ 15 < pkLength c.packet ∧ copying.copyWaits c = false ∧
      copying.vfWay 0 0 (pkSrc c.packet) (pkLength c.packet) = .active ∧ copying.vfWay 0 0 (pkDst c.packet) (pkLength c.packet) = .active := by decide +kernel

/-- Launch 5, ready to start on core 0, which is idle. -/
def ready5 : State := ({ booted with launches := [] }.updCore 0 (fun c => { c with run := .idle, launch := none })).setLaunch 5
  { vf := 0, origin := .queue 0 0, prio := 0, packet := 1, image := 0, col0 := 0, row0 := 0, wm1 := 0, hm1 := 0, cores := [(0, 0, 0)],
    imode := false, state := .ready, start := none, began := 0, since := 0, binds := [], clasps := [], arrived := [], relAt := [], code := 0,
    aborted := false, saves := [], evac := false, args := (0, 0) }

/-- A graph of a conditional node with two successors, under way. -/
def branching (thn els : Nat) : State := { queued { aQueue with hand := .graph 9, packet := some 2 } with
  graphs := [⟨1, 1, 0, [⟨BitVec.ofNat 512 (4 + thn * 2 ^ 16 + els * 2 ^ 32 + 0x400 * 2 ^ 128), []⟩, ⟨3, [0]⟩, ⟨3, [0]⟩]⟩]
  runs := [(9, ⟨0, 0, 1, 1, 2, [.active, .inactive, .inactive], 0, false, 0⟩)] }

/-- The same with 248 bytes of arguments at 0x1000. -/
def ready6 : State := ready5.updLaunch 5 (fun x => { x with packet := BitVec.ofNat 512 (1 + 248 * 2 ^ 32 + 0x1000 * 2 ^ 128) })

theorem witness_LaunchesRunAndGraphsBranch :
    (∃ x i, ready5.launch? 5 = some x ∧ x.state = .ready ∧ ready5.contends 5 x = true ∧
      ready5.coresFree 5 x = true ∧ ready5.image? x.vf x.image = some i ∧ ready5.codeShot x.vf i = false ∧ pkArgLen x.packet = 0 ∧
      ready5.linkWaits (ready5.sourceQueue x).1 x.vf x.packet = false ∧ ready5.checkFrom (ready5.sourceQueue x).1 x.vf 5 x.packet x.hm1 (if pkIndirect x.packet then some (x.hm1 + 1) else none) = .ok false) ∧
    (let s := (queued { aQueue with hand := .launch 0, packet := some 1 }).updCore 0 (fun c => { c with run := .halted })
     ∃ x, s.launch? 0 = some x ∧ x.origin = .queue 0 0 ∧ s.mayRetire 0 x = true ∧ s.sigWaits 0 x.vf x.packet = false ∧ (find? s.queues (qKey 0 0)).isSome = true ∧
      (s.queue 0 0).idx = (s.queue 0 0).cons) ∧
    (([0, 1, 2, 3].find? (fun v => (booted.vf v).dies.contains 0)) = some 0 ∧ graphOk 1 1 [⟨3, []⟩] = true ∧ booted.graphOf 0 1 1 = none) := by
  refine ⟨⟨_, _, rfl, by decide, by decide +kernel, by decide +kernel, rfl, by decide +kernel, by decide +kernel, by decide +kernel, ok_of_toOption (by decide +kernel)⟩,
    ⟨_, rfl, by decide, by decide +kernel, by decide +kernel, by decide, by decide⟩, by decide, by decide +kernel, by decide⟩

theorem witness_LaunchesRunAndGraphsBranch_args :
    ∃ x, ready6.launch? 5 = some x ∧ ready6.contends 5 x = true ∧ pkArgLen x.packet = 248 ∧
      ready6.vfRead x.vf (pkArgAddr x.packet) (pkArgLen x.packet) = some 0 ∧ ready6.coresFree 5 x = true ∧
      ready6.linkWaits (ready6.sourceQueue x).1 x.vf x.packet = false ∧ ready6.checkFrom (ready6.sourceQueue x).1 x.vf 5 x.packet x.hm1 (if pkIndirect x.packet then some (x.hm1 + 1) else none) = .ok false := by
  refine ⟨_, rfl, by decide +kernel, by decide +kernel, by decide +kernel, by decide +kernel, by decide +kernel, ok_of_toOption (by decide +kernel)⟩

theorem witness_LaunchesRunAndGraphsBranch_node :
    (let s := branching 1 2
     ∃ r g, find? s.runs 9 = some r ∧ s.graphOf (s.queue r.die r.q).vf r.id r.version = some g ∧ (let p := (nth ⟨0, []⟩ g.nodes 0).packet
      pkType p = 4 ∧ nth .retired r.nodes 0 = .active ∧ predsDone g.nodes r.nodes 0 = true ∧ s.serves r.die = true ∧
      s.cpRead r.die (s.queue r.die r.q).vf (pk p 191 128) 4 = some 0 ∧ pk p 47 32 < 0xFFFE)) ∧
    (let s := branching 1 0xFFFE
     ∃ r g, find? s.runs 9 = some r ∧ s.graphOf (s.queue r.die r.q).vf r.id r.version = some g ∧ pk (nth ⟨0, []⟩ g.nodes 0).packet 47 32 = 0xFFFE) ∧
    (let s := branching 1 0xFFFF
     ∃ r g, find? s.runs 9 = some r ∧ s.graphOf (s.queue r.die r.q).vf r.id r.version = some g ∧ pk (nth ⟨0, []⟩ g.nodes 0).packet 47 32 = 0xFFFF) := by
  refine ⟨⟨_, _, rfl, rfl, by decide +kernel⟩, ⟨_, _, rfl, rfl, by decide +kernel⟩, ⟨_, _, rfl, rfl, by decide +kernel⟩⟩

/-! Events of the package. -/

/-- A slot with EN and FINISH, OFFSET 0 and LENGTH 1000 ns, whose packet launches image 0 on core 1. -/
def aSlot (fin : Nat) : BitVec 576 := BitVec.ofNat 576 (1 + 2 * fin + 1000 * 2 ^ 34 + (1 + 2 ^ 64) * 2 ^ 64)

theorem test_slot_fields : let y : TSlot := ⟨aSlot 1, 0, none, none⟩
    y.en = true ∧ y.finish = true ∧ y.offset = 0 ∧ y.length = 1000 ∧ y.packet = BitVec.ofNat 512 (1 + 2 ^ 64) := by decide +kernel

/-- The submission of a packet is ready with some launch. -/
theorem ready_of_check {x : Submitted} (h : (match x with
    | .ready .. => true
    | _ => false) = true) : ∃ id s, x = .ready id s := by
  cases x with
  | ready id s => exact ⟨id, s, rfl⟩
  | _ => cases h

/-- An image of one segment of two lines at global 0x1000, its copy under way, and bundle 1 invalidated; the page executes, and the die's
TLB holds it. -/
def codePage : Page := ⟨0, 0, 0x200000, 0x200000, true, false, true, 0⟩
def fetching (arrived : Nat) : State :=
  ((booted.updVf 0 (fun f => { f with
    pages := [codePage], images := [(0, { fetchImage 0 0 with segments := [⟨0x1000, 0xFFFF, 2, 0⟩] })] })).updCore 0
    (fun c => { c with istore := { c.istore with copying := [⟨0, 0, arrived⟩] } })).updDie 0 (fun d => { d with tlb := [codePage] })

theorem witness_SlotsFetchAndShootdowns :
    (booted.slotOk 0 31 1000 ⟨aSlot 1, 0, none, none⟩ = true ∧ booted.slotOk 0 32 1000 ⟨aSlot 1, 0, none, none⟩ = false) ∧
    (let y : TSlot := ⟨aSlot 1, 0, none, none⟩
     let s := booted.updDie 0 (fun d => { d with table := ⟨0, 1000, [(31, y)], none⟩ })
     find? (s.die 0).table.slots 31 = some y ∧ y.en = true ∧ y.opened = none ∧ y.saved = none ∧ (s.die 0).table.shift = none ∧
      ([0, 1, 2, 3].find? (fun v => (s.vf v).dies.contains 0)) = some 0 ∧ (s.die 0).table.own y ≤ s.ns ∧ s.ns < (s.die 0).table.periodEnd y ∧
      (s.die 0).table.heldBy s.ns 31 y = false ∧ s.imageChanging 0 (pkImage y.packet) = false ∧
      ∃ id s', s.submit 0 0 (.slot 0 31) 3 (1 : Line) 0 = .ready id s') ∧
    (let y : TSlot := ⟨aSlot 0, 1, some (0, 0), none⟩
     let s := { booted.updDie 0 (fun d => { d with table := ⟨0, 1000, [(31, y)], none⟩ }) with time := ⟨11000000000, 0, none⟩ }
     find? (s.die 0).table.slots 31 = some y ∧ y.opened = some (0, 0) ∧ 0 + y.length ≤ s.ns ∧ y.finish = false ∧ ∃ x, s.launch? 0 = some x) ∧
    (∃ i, (fetching 1).imageOf 0 = some i ∧ ((fetching 1).core 0).istore.copying = [⟨0, 0, 1⟩] ∧ i.segments[0]? = some ⟨0x1000, 0xFFFF, 2, 0⟩ ∧
      ((fetching 1).core 0).istore.copyFree i ⟨0, 0, 1⟩ = true ∧
      findPage ((fetching 1).die (dieOf 0)).tlb ((fetching 1).vfOf 0) (0x1000 + 64 * 1) = some codePage ∧ codePage.x = true ∧ codePage.dev = 0 ∧
      (fetching 1).reach 0 (codePage.pbase + (0x1000 + 64 * 1 - codePage.vbase)) = .active) ∧
    (let s := ((base.updVf 0 (fun f => { f with pages := [codePage] })).updCore 0 (fun c =>
      { c with istore := { c.istore with invalid := [1] } })).updDie 0 (fun d => { d with tlb := [codePage] })
     (s.core 0).istore.invalid.contains 1 = true ∧ s.lineWanted 0 1 = true ∧ s.shotDown (s.vfOf 0) (vpn (s.lineAddr 0 1)) = false ∧
      findPage (s.die (dieOf 0)).tlb (s.vfOf 0) (s.lineAddr 0 1) = some codePage) ∧
    ([(⟨0, 0x1000, 4096, 0x5000, true, true, false, 0⟩ : Page)].all (fun p => pageLegal p && pageOnDies (booted.vf 0).dies p &&
      decide (0x1000 ≤ p.vbase) && decide (p.vbase + p.size ≤ 0x1000 + 4096)) = true) ∧
    (let s := base.updVf 3 (fun f => { f with shoot := some ⟨0, 4096, []⟩ }); (s.vf 3).shoot = some ⟨0, 4096, []⟩ ∧
      ∀ e ∈ ([] : List (Nat × Nat)), ∀ y ∈ (s.core e.1).loads, y.id ≠ e.2) := by
  refine ⟨by decide +kernel, ⟨by decide +kernel, by decide +kernel, by decide, by decide, by decide, by decide, by decide +kernel, by decide +kernel, by decide +kernel,
    by decide +kernel, ready_of_check (by decide +kernel)⟩, ⟨by decide +kernel, by decide, by decide +kernel, by decide +kernel, _, rfl⟩,
    ⟨_, rfl, by decide, by decide, by decide, by decide +kernel⟩, by decide +kernel, by decide +kernel, by decide⟩

/-- A container of one NOP bundle with its LATENCY section, by the layout of R367; `chesol` adds the empty CHESOL section. -/
def aContainer (chesol : Nat) : Nat :=
  0x4C445154 + 2 ^ 32 + (2 + chesol) * 2 ^ 320 + 2 ^ 336 + 2 ^ 344 + 2 ^ 360 + 2 ^ 416 + 2 ^ 448 +
    (1 + 64 * 2 ^ 32 + 192 * 2 ^ 64) * 2 ^ 512 + (10 + 1 * 2 ^ 32 + 256 * 2 ^ 64) * 2 ^ 640 + chesol * (14 + 0 * 2 ^ 32 + 257 * 2 ^ 64) * 2 ^ 768

/-- A unit of core 5 in the given state. -/
def unit5 : UnitId := ⟨0, 5, 7, 0⟩
def withUnit (st : UnitState) : State := { base with units := [(unit5, { UnitRec.zero with state := st })] }

theorem witness_ImagesLoadAndUnitsAreTested :
    ((booted.acceptImage 0 0x1000 257 (aContainer 0)).any (fun i => booted.handleTakes 0 65535 i) = true) ∧
    (let old : Image := { fetchImage 0 0 with valid := false, chesol := true }
     let s := ({ booted with launches := [] }).updVf 0 (fun f => { f with images := [(9, old)] })
     s.recompiles 0 9 = some old ∧ (s.acceptImage 0 0x1000 257 (aContainer 1)).any (fun i => i.rectw == old.rectw && i.recth == old.recth && s.framesFit 0 9 i) = true ∧ old.chesol = true ∧
      s.under 0 9 = []) ∧
    (let u : UnitId := ⟨0, 0, 7, 0⟩
     let s := { base with units := [(u, { UnitRec.zero with state := .scheduled })], time := ⟨330000000000000000, 0, none⟩ }
     (s.unitRec u).state = .scheduled ∧ onCore u = true ∧ (s.unitRec u).claimed = false ∧ s.unitFree u (s.unitRec u) = false ∧
      (s.unitRec u).since + 30000000000 ≤ s.ns) ∧
    (((withUnit .scheduled).unitRec unit5).state = .scheduled ∧ (withUnit .scheduled).unitFree unit5 ((withUnit .scheduled).unitRec unit5) = true) ∧
    (((withUnit .testing).unitRec unit5).state = .testing ∧ (withUnit .testing).hopSpent unit5 = false) ∧
    (let s := { base.updDie 3 (fun d => { d with change := ⟨3, none, [], [(0, 0)], [], false, 0⟩ }) with time := ⟨1100000000000000, 0, none⟩ }
     ∃ x, s.launch? 0 = some x ∧ x.live = true ∧ x.aborted = false ∧ x.ofWorld = false ∧ s.evacLate x = true) := by
  refine ⟨by decide +kernel, by decide +kernel, by decide +kernel, by decide, by decide, ⟨_, rfl, by decide, by decide, by decide, by decide +kernel⟩⟩

/-- Die 0 at a step of a map change, with the body of version 2. -/
def nextHallmark : Hallmark := { Hallmark.first 0 with version := 2, prevVer := 1, prevHash := Config.sha256 2752 (Hallmark.first 0).body }
def changingAt (step : Nat) : State := base.updDie 0 (fun d => { d with change := ⟨step, some nextHallmark, [], [(0, 0)], [], false, 0⟩ })

/-- Channel 0 of stack 0 failing, at step 3, with one page on the stack. -/
def channel0 : UnitId := ⟨0, 0, 11, 0⟩
def failingChannel : State := { (booted.updDie 0 (fun d => { d with change := ⟨3, some nextHallmark, [channel0], [], [], false, 0⟩ })) with
  launches := [], units := [(channel0, { UnitRec.zero with state := .failed })] }

theorem images_nodup (s : State) (h : s.vfs.toList.all (fun f => decide ((f.images.map (fun e => e.1)).Nodup)) = true) (v : Nat) :
    ((s.vf v).images.map (fun e => e.1)).Nodup := by
  unfold State.vf vget
  split
  · rename_i hv
    exact of_decide_eq_true (List.all_eq_true.mp h _ (by simp))
  · exact List.nodup_nil

theorem witness_MapChangeSteps :
    ((withUnit .failed).schedules = true ∧ ((withUnit .failed).die 0).change.step = 0 ∧ (withUnit .failed).changing 0 ≠ []) ∧
    (((changingAt 1).die 0).change.body = some nextHallmark ∧ ((changingAt 1).die 0).change.step = 1) ∧
    ((changingAt 2).die 0).change.step = 2 ∧ ((changingAt 2).toEvacuate ((changingAt 2).die 0).change).map (fun e => e.1) = [0] ∧
    (let s := { changingAt 3 with launches := [] }; (s.die 0).change.step = 3 ∧ s.evacuated (s.die 0).change = true ∧ ∀ e ∈ s.changing 0, e.1.source ≠ 11) ∧
    (let s := { changingAt 4 with launches := [] }; s.noShoot = true ∧ s.evacuated (s.die 0).change = true ∧ (s.die 0).change.step = 4 ∧
      ∀ v, ((s.vf v).images.map (fun e => e.1)).Nodup) ∧
    (nextHallmark.serial = ((changingAt 4).die 0).hallmark.serial ∧
      nextHallmark.prevVer = ((changingAt 4).die 0).hallmark.version ∧ nextHallmark.version = ((changingAt 4).die 0).hallmark.version + 1 ∧
      nextHallmark.prevHash = Config.sha256 2752 ((changingAt 4).die 0).hallmark.body) ∧
    ((changingAt 6).die 0).change.step = 6 ∧ (withUnit .failed).failureOpen 0 = false ∧
    (let s := { changingAt 6 with ports := [(18, ⟨3, 4, 8, 400⟩)] }; (s.portLink rackLink).up = true ∧ ∀ e ∈ s.portOut, e.1 ≠ rackLink) ∧
    (let s := { changingAt 6 with ports := [(2, ⟨1, 0, 4, 0⟩)] }; (s.portLink rackLink).state = 1) ∧
    (let s := { erring with units := [(⟨0, 0, 2, 0⟩, { UnitRec.zero with state := .failed })] }
     erring.unitOf 0 2 0 = ⟨0, 0, 2, 0⟩ ∧ (s.die 0).change.step = 0 ∧ s.failureOpen 0 = true) := by
  refine ⟨by decide +kernel, ⟨rfl, rfl⟩, rfl, by decide +kernel, by decide +kernel, ⟨by decide +kernel, by decide +kernel, rfl, images_nodup _ (by decide)⟩, ⟨rfl, rfl, rfl, rfl⟩, rfl,
    by decide +kernel, by decide, by decide, by decide +kernel⟩

theorem witness_MapChangeSteps_page :
    let s := failingChannel; let c := (s.die 0).change; let p : Page := ⟨0, 0, 0x200000, 0x200000, true, true, false, 0⟩
    c.body = some nextHallmark ∧ c.step = 3 ∧ s.evacuated c = true ∧ s.changing 0 = [(channel0, { UnitRec.zero with state := .failed })] ∧
      channel0.source = 11 ∧ channel0 ∈ c.units ∧ s.allPages.filter (fun q => q.dev == 0 && q.pbase / 2 ^ 36 == channel0.unit / 32) = [p] ∧
      p.vf < 4 ∧ p ∈ (s.vf p.vf).pages ∧ pageLegal p = true ∧ Memory.wf s.mem = true ∧ s.schedules = true := by
  refine ⟨rfl, rfl, by decide +kernel, by decide +kernel, by decide, by decide, by decide +kernel, by decide, by decide, by decide, by decide, by decide⟩

theorem witness_RegistersAreWritten :
    (let s := on (fun c => { c with run := .stopped })
     (s.core 0).stopped = true ∧ (s.core 0).waiting = false ∧ (s.core 0).framed = false) ∧
    (11 : Nat) < 12 ∧ (0 : Nat) < 63 ∧ (63 : Nat) < 64 ∧ (255 : Nat) < 256 ∧ (524287 : Nat) < 524288 ∧ (3 : Nat) < 4 ∧
    ((6 : Word).getLsbD 0 = false ∧ (base.core 0).debugStopped = false) ∧
    (let s := { queued { aQueue with en := false } with ports := [(0, ⟨2, 16, 16, 2048⟩)] }; s.ownsQueue 0 0 0 = true ∧ (s.queue 0 0).en = false ∧
      (s.port (s.hostPort 0)).up = true ∧ s.portIn = [] ∧ s.portOut = [] ∧ (s.vf 0).fault.en = false ∧ (s.vf 0).event.en = false) ∧ (base.port (base.hostPort 0)).state = 0 ∧
    (let s := { base with ports := [(0, ⟨1, 0, 16, 0⟩)] }; (s.port (s.hostPort 0)).state = 1) ∧ (16 ≤ (60 : Word).toNat % 32 ∧ (60 : Word).toNat % 32 ≤ 28 ∧ (61 : Word).toNat % 4 = 1) ∧ (15 : Nat) < 16 ∧
    (let s := (looped 1 [⟨2, 0, 1, 0⟩]).updCore 0 (fun c => { c with run := .stopped })
     (s.core 0).stopped = true ∧ (s.core 0).framed = false ∧ (s.core 0).regs.loops.reverse[0]? = some ⟨2, 0, 1, 0⟩) ∧
    (let isDue := fun (f : Vec) => f.mask = false ∧ 0 < f.pend ∧ (f.count.toNat ≤ f.pend ∨ f.oldest + f.time.toNat ≤ base.ns)
     isDue ⟨0, false, 1, 1, 0⟩ ∧ ¬ isDue ⟨0, true, 1, 1, 0⟩ ∧ ¬ isDue ⟨1, false, 2, 1, 0⟩) := by decide

/-- A layer that its stage accepts: a version above every fused minimum. -/
def aLayer : FwImage := ⟨5, Config.minVersion 1 + Config.minVersion 2 + Config.minVersion 3, true, true, 0⟩

/-- Controller 4 at a state with an image staged, and a record whose TYPEs are as given. -/
def staging (st : FwState) (types : List Nat) : State := { booted with firmware := [(4, { Firmware.first with
  state := st, staged := some ⟨1, 2, true, true, 10⟩, deadline := 5, record := some { booted.handoverOf with heads := types.map (fun t => sectionHead t 0) } })] }

theorem witness_FirmwareOfThePackage :
    (State.reset.boot.recovery = true ∧ State.reset.pkg.now ≠ 2) ∧ layersOk [aLayer, aLayer] = true ∧ layersOk [aLayer] = false ∧ booted.boot.recovery = false ∧
    (94 < 95 ∧ 40 ≤ 40 ∧ base.pkg.therm ≠ 2) ∧ (109 < 110 ∧ 95 ≤ 109) ∧ 110 ≤ 110 ∧
    (isCtrl 11 = true ∧ booted.boot.recovery = false ∧ (booted.fw 11).state = .committed ∧ (booted.fw 11).version < 1 ∧ 1 ∉ (booted.fw 11).refused) ∧
    (((staging .quiesce []).fw 4).state = .quiesce ∧ ((staging .quiesce []).fw 4).staged = some ⟨1, 2, true, true, 10⟩) ∧
    (let s := staging .probation [1, 2, 3, 4, 5, 6, 7, 8]
     (s.fw 4).state = .probation ∧ s.ns < (s.fw 4).deadline ∧ ∀ r, (s.fw 4).record = some r → (∀ y ∈ r.heads.map (fun h => h.toNat % 2 ^ 8), 1 ≤ y ∧ y ≤ 8) ∧ (r.heads.map (fun h => h.toNat % 2 ^ 8)).Nodup) ∧
    (let s := staging .probation [1, 9]; ∃ r, (s.fw 4).record = some r ∧ 9 ∈ r.heads.map (fun h => h.toNat % 2 ^ 8) ∧ 8 < 9) ∧
    (let s := { staging .probation [] with time := ⟨55000000, 0, none⟩ }; (s.fw 4).deadline ≤ s.ns) ∧
    (let s := { booted with launches := [] }; (3 : Nat) < 4 ∧ legalDies [2, 3] = true ∧ (∀ w, w < 4 → w ≠ 3 → ∀ d ∈ (s.vf w).dies, d ∉ [2, 3]) ∧
      (∀ d ∈ (s.vf 3).dies ++ [2, 3], s.dieQuiet d = true) ∧ (∀ d ∈ (s.vf 3).dies, d ∈ [2, 3]) ∧ (s.vf 3).exists_ = false) ∧
    (legalDies [1, 2] = false ∧ ∃ w, w < 4 ∧ w ≠ 3 ∧ ∃ d ∈ (booted.vf w).dies, d ∈ [0]) ∧
    (let p : Page := ⟨0, 0x400000, 4096, 0x7000, true, true, false, 0⟩
     (booted.vf 0).exists_ = true ∧ booted.schedules = true ∧ [p].all pageLegal = true ∧ [p].all (pageOnDies (booted.vf 0).dies) = true ∧
      (∀ q ∈ [p], q.pbase / 2 ^ 36 = 0) ∧ pagesApart ([p].map (fun q => { q with vf := 0 })) = true ∧
      (∀ q ∈ [p], ∀ w, w < 4 → ∀ r ∈ (booted.vf w).pages, pagesMeet { q with vf := 0 } r = false) ∧
      ∀ i, i < 8 → booted.stackUsed i + stackSum [p] i ≤ booted.stackBytes i) ∧
    (∀ d ∈ (booted.vf 0).dies, d < 4) ∧ State.reset.boot.recovery = true ∧
    (let s := { booted with ports := [(0, ⟨2, 16, 16, 2048⟩)] }; (s.portLink (s.evidenceLink 0)).up = true ∧ ∀ e ∈ s.portIn, e.1 ≠ s.evidenceLink 0) := by
  refine ⟨by decide, ?_, by decide, by decide, by decide, by decide, by decide, by decide, by decide,
    ⟨by decide, by decide, (by intro r h; cases h; decide)⟩, ⟨_, rfl, by decide, by decide⟩, by decide, by decide, ⟨by decide, 0, by decide, by decide, 0, by decide, by decide⟩,
    by decide +kernel, by decide, by decide, by decide⟩
  simp only [layersOk, layerOk, List.length, List.range, List.range.loop, List.zip, List.zipWith, List.all]
  simp [aLayer]
  omega

/-- A frame-table entry for image 1 in world 1: OFFSET 0, LENGTH 65,536, SEALRPID 7. -/
def anEntry : BitVec 128 := BitVec.ofNat 128 (1 + 1 * 2 ^ 4 + 2 ^ 16 + 7 * 2 ^ 32 + 65536 * 2 ^ 64)

/-- Core 0 idle with that entry in its table, the frame open or not. -/
def worldly (opened : Option Nat) (run : Run) : State :=
  ((booted.updVf 0 (fun f => { f with images := [(1, { fetchImage 0 0 with flen := 1000, marks := [entry7] })] })).updCore 0 (fun c => { c with
    run, launch := if run = .idle then none else some 0, frames := ⟨0, 65536, [anEntry], [(0, 0)]⟩, frameOpen := opened }))

theorem witness_WorldsAndFrames :
    (let s := worldly none .idle
     s.owner (dieOf 0) < 4 ∧ 2 ^ 16 ≤ 65536 ∧ 65536 < 2 ^ 32 ∧ [anEntry].length ≤ 8 ∧ [anEntry].all (s.frameOk 0 65536) = true ∧
      framesApart 65536 [anEntry] = true ∧ (∀ a ∈ [((240 : Nat), (0 : Nat))], a.1 ≤ 240) ∧ (s.core 0).frameOpen = none ∧ s.coreHeld 0 = false) ∧
    (let s := worldly none .idle
     ∃ i, (s.core 0).frames.entries[0]? = some anEntry ∧ frEn anEntry = true ∧ (s.core 0).frames.edge s.now (frOffset anEntry) = true ∧ (s.core 0).run = .idle ∧ (s.core 0).frameOpen = none ∧
      s.present 0 = true ∧ s.boot.recovery = false ∧ s.coreClaimed 0 = false ∧ s.sealCounter 0 (frWorld anEntry) 0 < 2 ^ 82 ∧
      s.image? 0 (frImage anEntry) = some i ∧ i.unitsOk (s.recOf 0) 0 (0, 0) = true ∧ s.modeOf i (colOf 0, rowOf 0, 1, 1) [(0, 0, 0)] 1 = .ok false ∧ s.sealedFor 0 0 (frWorld anEntry) = none) ∧
    (let s := { worldly (some 0) .running with now := 65536 }
     (s.core 0).frames.entries[0]? = some anEntry ∧ (s.core 0).frames.edge s.now (frOffset anEntry + frLength anEntry) = true ∧
      (s.core 0).frameOpen = some 0 ∧ (s.core 0).run = .running) ∧
    (∃ r, ((trappedWith 15).core 0).trapped = some r ∧ r.cause = 15 ∧ (trappedWith 15).schedules = true ∧ (trappedWith 15).noJobs 0 = true) ∧
    (1 ≤ 63 ∧ 63 ≤ 63) := by
  refine ⟨by decide +kernel, ⟨_, by decide, by decide, by decide +kernel, by decide, by decide, by decide, by decide, by decide, by decide, rfl, by decide +kernel,
    ok_of_toOption (by decide +kernel), by decide⟩, by decide +kernel, ⟨_, rfl, rfl, by decide, by decide⟩, by decide⟩

/-- Stream 31 as given, and its port up. -/
def streamed (x : Stream) : State := { booted with streams := [(31, x)], ports := [(23, ⟨2, 128, 128, 4096⟩)] }

theorem witness_LinksAndTimeBase :
    (streamEnd 31 = some (3, 23) ∧ ((streamed Stream.zero).port 23).up = true ∧ (∀ e ∈ (streamed Stream.zero).portIn, e.1 ≠ 23) ∧
      (let s := { booted with ports := [(23, ⟨1, 0, 128, 0⟩)] }; (s.port 23).state = 1) ∧ (booted.port 23).up = false) ∧
    (let x := { Stream.zero with pn := 2 ^ 47 - 2 }; (streamed x).stream 31 = x ∧ x.state = .active ∧ x.pn + 1 < 2 ^ 47 ∧ x.pn < 2 ^ 48) ∧
    (let x := { Stream.zero with pn := 2 ^ 48 - 2 }; x.pend = false ∧ x.pn ≠ 2 ^ 48 - 1) ∧
    (let x := { Stream.zero with pn := 2 ^ 47 - 1, pend := true, epoch := 254 }; 2 ^ 47 ≤ x.pn + 1 ∧ x.pend = true ∧ x.epoch < 255) ∧
    (let x := { Stream.zero with pn := 2 ^ 48 - 1 }; x.pn = 2 ^ 48 - 1 ∧ x.pend = false) ∧
    (let x := { Stream.zero with state := StreamState.exhausted, epoch := 254 }; x.state = .exhausted ∧ x.epoch < 255 ∧ (streamed x).ns < x.since + 10000000) ∧
    (let x := { Stream.zero with state := StreamState.exhausted }
     let s := { booted with streams := [(31, x)], time := ⟨110000000000000, 0, none⟩, cores := [] }
     (s.stream 31).state = .exhausted ∧ (s.stream 31).since + 10000000 ≤ s.ns ∧ s.cores = []) ∧
    Stream.zero.secret < 1 ∧ (2 ^ 48 - 1 < 2 ^ 48 ∧ ∀ e ∈ Stream.zero.recv, e.1 ≠ (1, 2, 3)) ∧
    (let x := { Stream.zero with recv := [((1, 2, 3), 2000, [1500])] }
     x.recv.find? (fun e => e.1 == (1, 2, 3)) = some ((1, 2, 3), 2000, [1500]) ∧ 2000 < 2001 ∧ (2000 ≤ 976 + 1024 ∧ 976 ≠ 2000 ∧ 976 ∉ [1500]) ∧
      975 + 1024 < 2000 ∧ (1500 ≤ 2000 ∧ 1500 ∈ [1500])) ∧
    (23 < 24 ∧ booted.boot.recovery = false) ∧ ((1 : Nat) < 24 ∧ booted.portOff 1 = true) := by decide

theorem witness_LinksAndTimeBase_epochs :
    (let x := { Stream.zero with pn := 2 ^ 47 - 1, pend := true, pendSecret := some 1, epoch := 255 }
     2 ^ 47 ≤ x.pn + 1 ∧ x.pn < 2 ^ 48 ∧ x.epoch = 255 ∧ x.pendSecret = some 1 ∧ x.state = .active) ∧
    (let x := { Stream.zero with state := StreamState.exhausted, epoch := 255 }; x.secret < 1 ∧ x.epoch = 255 ∧ x.state = .exhausted ∧ (streamed x).ns < x.since + 10000000) := by decide

/-- At EPOCH 255 the switch takes the new secret at EPOCH 0 (R407). -/
theorem test_switch_at_255 : (let x := { Stream.zero with pn := 2 ^ 47 - 1, pend := true, pendSecret := some 1, epoch := 255 }
    (after (.flitGroupSeal 31) (streamed x)).stream 31) = { Stream.zero with secret := 1 } := by decide

/-- Cores without waiting traffic: those of a package whose list of cores is empty. -/
theorem witness_LinksAndTimeBase_quiet (n : Nat) : let s := { booted with cores := [] }
    (s.core n).performs = [] ∧ (s.core n).loads = [] ∧ (s.core n).lost = [] := ⟨rfl, rfl, rfl⟩

/-- R346: cluster A is needed where its code runs. The cores of column 0 branch past the VADD; the record of each core lacks cluster A. -/
theorem test_units_by_offset :
    let code := [encodeBundle [.prep 0 5, .rdxy .sa 1] false false, encodeBundle [.andi .sa 2 1 0xFF] false false,
      encodeBundle [.ceqi .sa 0 2 0] false false, encodeBundle [.br 0] false false, encodeBundle [.halt, .vadd .va 9 0 false ⟨0, 7⟩ ⟨8, 7⟩ ⟨16, 7⟩] false false,
      encodeBundle [.halt] false false]
    let i : Image := { fetchImage 0 0 with code, nlines := 6, rectw := 2 }
    let r := { CoreRec.full with cla := false }
    i.unitsOk r 0 (0, 0) = true ∧ i.unitsOk r 1 (1, 0) = false ∧ i.unitsOk CoreRec.full 1 (1, 0) = true := by decide +kernel
end Sys2Proof.Tests
end

section
/-! PROOFS. The step of the package: an event from outside that is due, or one cycle (R6, log 2). -/

open Sys2Proof Sys2Proof.Machine

namespace Sys2Proof.Machine

/-- The first event from outside is taken when it is due. -/
theorem step_of_due (s : State) (e : Input) (rest : List Input) (h : s.inputs = e :: rest) (hd : e.cycle ≤ s.now) :
    step s = exec e.event { s with inputs := rest } := by
  simp only [step, State.advanceOnce, h, takeInput, if_pos hd]

/-- Without an event from outside, or with a first one for a later cycle, the package runs a cycle. -/
theorem step_of_none_due (s : State) (h : s.inputs = [] ∨ ∃ (e : Input) (rest : List Input), s.inputs = e :: rest ∧ s.now < e.cycle) :
    step s = .next s.cycle := by
  obtain h | ⟨e, rest, h, hd⟩ := h
  · simp only [step, State.advanceOnce, h, takeInput]
  · simp only [step, State.advanceOnce, h, takeInput, if_neg (Nat.not_le.mpr hd)]

/-- Settles O4: the queue of events decides between an event and a cycle, and the statement writes out the parts of `State.cycle` and of
`State.openCycle` in their order. -/
theorem stepTakesEventOrCycle : Obligations.StepTakesEventOrCycle := by
  unfold Obligations.StepTakesEventOrCycle
  refine fun s => ⟨step_of_due s, fun h => ?_⟩
  calc step s = .next s.cycle := step_of_none_due s h
    _ = .next _ := rfl

end Sys2Proof.Machine
end

section
/-! PROOFS. The bits and bytes of a memory after a masked write, and after the pieces of a store one after another (R219, R220). -/

open Sys2Proof Sys2Proof.Machine

namespace Sys2Proof.Machine

/-! ## One masked write -/

/-- Bit q of a memory, bit 0 of byte 0 first (R5). -/
def Memory.bitAt (m : Memory) (q : Nat) : Bool := (Memory.read m (q / 8)).getLsbD (q % 8)

/-- Bits inside the mask come from the new value, all others stay. -/
theorem mergeBits_testBit (old v msk i : Nat) :
    (mergeBits old v msk).testBit i = if msk.testBit i then v.testBit i else old.testBit i := by
  unfold mergeBits
  rw [Nat.testBit_xor, Nat.testBit_and, Nat.testBit_xor]
  cases msk.testBit i <;> simp

/-- Bit j of byte i of a number is its bit 8·i + j. -/
theorem getLsbD_byte (v i j : Nat) (h : j < 8) : (BitVec.ofNat 8 (v / 256 ^ i)).getLsbD j = v.testBit (8 * i + j) := by
  rw [BitVec.getLsbD_ofNat, decide_eq_true h, Bool.true_and, show (256 : Nat) ^ i = 2 ^ (8 * i) from (pow_mul 2 8 i).symm, Nat.testBit_div_two_pow,
    Nat.add_comm j]

theorem Memory.read_writeBits_of_not_mem (m : Memory) (a n v k b : Nat) (h : b < a ∨ a + n ≤ b) :
    Memory.read (m.writeBits a n v k) b = Memory.read m b :=
  Memory.read_writeN_of_not_mem _ _ _ _ _ h

/-- A byte all of whose bits are in the mask takes the value's byte. -/
theorem Memory.read_writeBits_allBits (m : Memory) (a n v i : Nat) (h : i < n) :
    Memory.read (m.writeBits a n v (allBits n)) (a + i) = BitVec.ofNat 8 (v / 256 ^ i) := by
  unfold Memory.writeBits
  rw [Memory.read_writeN _ _ _ _ _ h]
  refine BitVec.eq_of_getLsbD_eq fun j hj => ?_
  rw [getLsbD_byte _ _ _ hj, getLsbD_byte _ _ _ hj, mergeBits_testBit, allBits, Nat.testBit_two_pow_sub_one,
    if_pos (by simp only [decide_eq_true_eq]; omega)]

/-- Bit q after a masked write. -/
theorem Memory.bitAt_writeBits (m : Memory) (a n v k q : Nat) (h : Memory.wf m = true) :
    Memory.bitAt (m.writeBits a n v k) q =
      if 8 * a ≤ q ∧ q < 8 * (a + n) ∧ k.testBit (q - 8 * a) = true then v.testBit (q - 8 * a) else Memory.bitAt m q := by
  unfold Memory.bitAt
  by_cases hq : 8 * a ≤ q ∧ q < 8 * (a + n)
  · obtain ⟨h1, h2⟩ := hq
    obtain ⟨i, hi⟩ : ∃ i, q / 8 = a + i := ⟨q / 8 - a, by omega⟩
    have hin : i < n := by omega
    have hbit : 8 * i + q % 8 = q - 8 * a := by omega
    have hj : q % 8 < 8 := Nat.mod_lt _ (by omega)
    rw [hi, Memory.writeBits, Memory.read_writeN _ _ _ _ _ hin, getLsbD_byte _ _ _ hj, mergeBits_testBit, hbit]
    simp only [h1, h2, true_and]
    rw [← Memory.readN_byte m a n i h hin, getLsbD_byte _ _ _ hj, hbit]
  · rw [Memory.read_writeBits_of_not_mem _ _ _ _ _ _ (by omega), if_neg (fun e => hq ⟨e.1, e.2.1⟩)]

/-! ## The enabled lanes -/

theorem mem_enabled (en : LaneMask) (l : Nat) : l ∈ enabled en ↔ l < 256 ∧ en.getLsbD l = true := by
  simp [enabled, allLanes]

/-- The enabled lanes ascend. -/
theorem enabled_pairwise (en : LaneMask) : (enabled en).Pairwise (· < ·) := List.pairwise_lt_range.filter _

/-- The enabled lanes before and after one of them. -/
theorem enabled_split (en : LaneMask) (l : Nat) (h : l < 256) (hl : en.getLsbD l = true) :
    ∃ xs ys, enabled en = xs ++ l :: ys ∧ ∀ y ∈ ys, l < y ∧ y < 256 ∧ en.getLsbD y = true := by
  obtain ⟨xs, ys, e⟩ := List.append_of_mem ((mem_enabled en l).mpr ⟨h, hl⟩)
  refine ⟨xs, ys, e, fun y hy => ?_⟩
  have hp := enabled_pairwise en
  rw [e, List.pairwise_append, List.pairwise_cons] at hp
  exact ⟨hp.2.1.1 y hy, (mem_enabled en y).mp (by rw [e]; simp [hy])⟩

/-! ## The pieces of a store, one after another -/

/-- A memory after the pieces of a store, whose addresses count from `base` (R212, R219, R223). -/
def Memory.storePieces (base : Nat) (m : Memory) (ps : List Piece) : Memory :=
  ps.foldl (fun m x => m.writeBits (x.addr - base) x.len x.val x.mask) m

/-- The piece writes bit q of its address space. -/
def Piece.Sets (x : Piece) (q : Nat) : Prop := 8 * x.addr ≤ q ∧ q < 8 * (x.addr + x.len) ∧ x.mask.testBit (q - 8 * x.addr) = true

/-- Bit q after one piece, with q and the piece counted in the same address space. -/
theorem Memory.bitAt_storePiece (base : Nat) (m : Memory) (x : Piece) (q : Nat) (hw : Memory.wf m = true) (hx : base ≤ x.addr)
    (hq : 8 * base ≤ q) :
    (x.Sets q → Memory.bitAt (m.writeBits (x.addr - base) x.len x.val x.mask) (q - 8 * base) = x.val.testBit (q - 8 * x.addr)) ∧
      (¬ x.Sets q → Memory.bitAt (m.writeBits (x.addr - base) x.len x.val x.mask) (q - 8 * base) = Memory.bitAt m (q - 8 * base)) := by
  rw [Memory.bitAt_writeBits _ _ _ _ _ _ hw, show q - 8 * base - 8 * (x.addr - base) = q - 8 * x.addr by omega]
  refine ⟨fun ⟨h1, h2, h3⟩ => if_pos ⟨by omega, by omega, h3⟩, fun h => if_neg fun ⟨h1, h2, h3⟩ => h ⟨by omega, by omega, h3⟩⟩

/-- A bit that no piece writes stays. -/
theorem Memory.bitAt_storePieces_of_not_sets (base : Nat) (m : Memory) (ps : List Piece) (q : Nat) (hw : Memory.wf m = true)
    (hx : ∀ x ∈ ps, base ≤ x.addr) (hq : 8 * base ≤ q) (h : ∀ x ∈ ps, ¬ x.Sets q) :
    Memory.bitAt (m.storePieces base ps) (q - 8 * base) = Memory.bitAt m (q - 8 * base) := by
  induction ps generalizing m with
  | nil => rfl
  | cons x r ih =>
    rw [List.forall_mem_cons] at hx h
    exact (ih _ (Memory.wf_writeBits _ _ _ _ _ hw) hx.2 h.2).trans ((Memory.bitAt_storePiece base m x q hw hx.1 hq).2 h.1)

/-- The last piece that writes a bit gives its value. -/
theorem Memory.bitAt_storePieces_of_last (base : Nat) (m : Memory) (xs ys : List Piece) (x : Piece) (q : Nat) (hw : Memory.wf m = true)
    (hx : ∀ y ∈ xs ++ x :: ys, base ≤ y.addr) (hq : 8 * base ≤ q) (h : x.Sets q) (hy : ∀ y ∈ ys, ¬ y.Sets q) :
    Memory.bitAt (m.storePieces base (xs ++ x :: ys)) (q - 8 * base) = x.val.testBit (q - 8 * x.addr) := by
  induction xs generalizing m with
  | nil =>
    rw [List.nil_append, List.forall_mem_cons] at hx
    exact (Memory.bitAt_storePieces_of_not_sets base _ ys q (Memory.wf_writeBits _ _ _ _ _ hw) hx.2 hq hy).trans
      ((Memory.bitAt_storePiece base m x q hw hx.1 hq).1 h)
  | cons z r ih =>
    rw [List.cons_append, List.forall_mem_cons] at hx
    exact ih _ (Memory.wf_writeBits _ _ _ _ _ hw) hx.2

/-- The pieces of the enabled lanes: the highest lane that writes a bit gives its value (R223). -/
theorem Memory.bitAt_storeLanes (base : Nat) (m : Memory) (en : LaneMask) (f : Nat → Piece) (q l : Nat) (hw : Memory.wf m = true)
    (hx : ∀ l, l < 256 → en.getLsbD l = true → base ≤ (f l).addr) (hq : 8 * base ≤ q) (hl : l < 256) (hen : en.getLsbD l = true)
    (h : (f l).Sets q) (hlast : ∀ k, l < k → k < 256 → en.getLsbD k = true → ¬ (f k).Sets q) :
    Memory.bitAt (m.storePieces base ((enabled en).map f)) (q - 8 * base) = (f l).val.testBit (q - 8 * (f l).addr) := by
  obtain ⟨xs, ys, e, hys⟩ := enabled_split en l hl hen
  have hall : ∀ y ∈ (enabled en).map f, base ≤ y.addr := by
    simp only [List.forall_mem_map, mem_enabled]
    exact fun k hk => hx k hk.1 hk.2
  rw [e, List.map_append, List.map_cons] at hall ⊢
  refine Memory.bitAt_storePieces_of_last base m _ _ _ q hw hall hq h ?_
  simp only [List.forall_mem_map]
  exact fun k hk => hlast k (hys k hk).1 (hys k hk).2.1 (hys k hk).2.2

/-- The pieces of the enabled lanes: a bit that none writes stays. -/
theorem Memory.bitAt_storeLanes_of_not_sets (base : Nat) (m : Memory) (en : LaneMask) (f : Nat → Piece) (q : Nat) (hw : Memory.wf m = true)
    (hx : ∀ l, l < 256 → en.getLsbD l = true → base ≤ (f l).addr) (hq : 8 * base ≤ q)
    (h : ∀ l, l < 256 → en.getLsbD l = true → ¬ (f l).Sets q) :
    Memory.bitAt (m.storePieces base ((enabled en).map f)) (q - 8 * base) = Memory.bitAt m (q - 8 * base) := by
  refine Memory.bitAt_storePieces_of_not_sets base m _ q hw ?_ hq ?_
  · simp only [List.forall_mem_map, mem_enabled]
    exact fun k hk => hx k hk.1 hk.2
  · simp only [List.forall_mem_map, mem_enabled]
    exact fun k hk => h k hk.1 hk.2

end Sys2Proof.Machine
end

section
/-! PROOFS. A store of the load/store slot: the windows of its pieces, its checks, and its effect on typed buffers and on the store list of the
commons, each said once (R206 to R212, R249, R250). -/

open Sys2Proof Sys2Proof.Machine

namespace Sys2Proof.Machine

/-! ## What a store leaves alone -/

theorem Core.SameRegisters.refl (c : Core) : c.SameRegisters c := by simp [Core.SameRegisters]

theorem Core.SameRegisters.trans {c d e : Core} (h : c.SameRegisters d) (k : d.SameRegisters e) : c.SameRegisters e := by
  unfold Core.SameRegisters at *
  simp_all only [and_self]

/-- What a store leaves alone on its own core beside the buffers, and in the memories of the package. -/
structure State.StoreKeeps (s t : State) (n : Nat) : Prop where
  regs : (s.core n).SameRegisters (t.core n)
  memory : s.SameMemory t
  results : (t.core n).results = (s.core n).results
  queue : (t.core n).queue = (s.core n).queue
  pos : (t.core n).pos = (s.core n).pos

theorem State.StoreKeeps.refl (s : State) (n : Nat) : s.StoreKeeps s n :=
  ⟨.refl _, ⟨fun _ => rfl, rfl, rfl⟩, rfl, rfl, rfl⟩

theorem State.StoreKeeps.trans {s t u : State} {n : Nat} (h : s.StoreKeeps t n) (k : t.StoreKeeps u n) : s.StoreKeeps u n := by
  obtain ⟨hd, hm, hh⟩ := h.memory
  obtain ⟨kd, km, kh⟩ := k.memory
  exact ⟨h.regs.trans k.regs, ⟨fun d => (kd d).trans (hd d), km.trans hm, kh.trans hh⟩, k.results.trans h.results, k.queue.trans h.queue,
    k.pos.trans h.pos⟩

/-- A journal entry and the records are none of these. -/
theorem State.Journaled.storeKeeps {s t : State} {n : Nat} (h : s.Journaled t n) : s.StoreKeeps t n := by
  obtain ⟨k, st, q, e⟩ := h.2.2.1
  refine ⟨?_, h.sameMemory, ?_, ?_, ?_⟩ <;> rw [e]
  simp [Core.SameRegisters]

/-- An update of the core that keeps the registers, the results, the queue and the place in the program. -/
theorem State.updCore_storeKeeps (s : State) (n : Nat) (f : Core → Core) (hr : (s.core n).SameRegisters (f (s.core n)))
    (h1 : (f (s.core n)).results = (s.core n).results) (h2 : (f (s.core n)).queue = (s.core n).queue)
    (h3 : (f (s.core n)).pos = (s.core n).pos) : s.StoreKeeps (s.updCore n f) n := by
  refine ⟨?_, ⟨fun _ => rfl, rfl, rfl⟩, ?_, ?_, ?_⟩ <;> rwa [State.core_updCore_self]

theorem State.Journaled.buf {s t : State} {n : Nat} (h : s.Journaled t n) (b : Buf) : (t.core n).buf b = (s.core n).buf b := by
  obtain ⟨k, st, q, e⟩ := h.2.2.1
  rw [e]; cases b <;> rfl

theorem State.Journaled.stores {s t : State} {n : Nat} (h : s.Journaled t n) (d : Nat) : (t.die d).stores = (s.die d).stores := by
  obtain ⟨x, e⟩ := h.2.2.2 d
  rw [e]

/-- The regions of a core are a matter of its launch, of the image and of the die's descriptors (R260). -/
theorem State.regionAt_congr {s t : State} {n : Nat} (hl : (t.core n).launch = (s.core n).launch) (hs : t.launches = s.launches)
    (hv : t.vfs = s.vfs) (hd : (t.die (dieOf n)).regions = (s.die (dieOf n)).regions) (off : Nat) : t.regionAt n off = s.regionAt n off := by
  have h1 : t.launchOf n = s.launchOf n := by simp only [State.launchOf, State.launch?, hl, hs]
  have h2 : ∀ v i, t.image? v i = s.image? v i := fun v i => by simp only [State.image?, State.vf, hv]
  have h3 : ∀ g, t.memberOf n g = s.memberOf n g := fun g => by simp only [State.memberOf, State.members, h1, h2]
  simp only [State.regionAt, h1, h3, hd]

theorem State.Journaled.regionAt {s t : State} {n : Nat} (h : s.Journaled t n) (off : Nat) : t.regionAt n off = s.regionAt n off := by
  obtain ⟨k, st, q, e⟩ := h.2.2.1
  obtain ⟨x, f⟩ := h.2.2.2 (dieOf n)
  refine State.regionAt_congr ?_ ?_ ?_ ?_ off
  · rw [e]
  · rw [h.1]
  · rw [h.1]
  · rw [f]

/-! ## The beginning of an access -/

/-- A race sets CORESTAT.RACE and writes records (R249). -/
theorem State.race_journaled (s : State) (n : Nat) (p : Plan) : s.Journaled (s.race n p) n := by
  unfold State.race
  split
  · exact (State.Traced.refl s).journaled n
  · refine State.Journaled.foldl _ (fun t j => ?_) _ s
    split
    · split
      · exact (t.setCore_journaled n _ ⟨_, _, rfl⟩).trans ((State.emit_traced ..).journaled n)
      · exact (State.Traced.refl t).journaled n
    · exact (State.Traced.refl t).journaled n

/-- The beginning of an access: its races, and then its reservation alone (R216, R249). -/
theorem State.lsBegin_eq (s : State) (n : Nat) (p : Plan) : ∃ z, s.Journaled z n ∧
    s.lsBegin n p = z.updCore n (fun c => c.reserve s.now .issue (p.banks.map (fun b => (b.1, b.2, 0)))) := by
  refine ⟨_, s.race_journaled n p, rfl⟩

theorem State.lsBegin_storeKeeps (s : State) (n : Nat) (p : Plan) : s.StoreKeeps (s.lsBegin n p) n := by
  obtain ⟨z, hz, e⟩ := s.lsBegin_eq n p
  rw [e]
  exact hz.storeKeeps.trans (z.updCore_storeKeeps n _ (by simp [Core.SameRegisters, Core.reserve]) rfl rfl rfl)

theorem State.lsBegin_buf (s : State) (n : Nat) (p : Plan) (b : Buf) : ((s.lsBegin n p).core n).buf b = (s.core n).buf b := by
  obtain ⟨z, hz, e⟩ := s.lsBegin_eq n p
  rw [e, State.core_updCore_self, ← hz.buf b]
  cases b <;> rfl

theorem State.lsBegin_stores (s : State) (n : Nat) (p : Plan) (d : Nat) : ((s.lsBegin n p).die d).stores = (s.die d).stores := by
  obtain ⟨z, hz, e⟩ := s.lsBegin_eq n p
  rw [e, State.die_updCore, hz.stores]

theorem State.lsBegin_regionAt (s : State) (n : Nat) (p : Plan) (off : Nat) : (s.lsBegin n p).regionAt n off = s.regionAt n off := by
  obtain ⟨z, hz, e⟩ := s.lsBegin_eq n p
  rw [e, ← hz.regionAt off]
  refine State.regionAt_congr ?_ ?_ ?_ ?_ off
  · rw [State.core_updCore_self, Core.reserve]
  all_goals rfl

theorem State.lsBegin_win (s : State) (n : Nat) (p : Plan) (a : Nat) : (s.lsBegin n p).win n a = s.win n a := by
  obtain ⟨z, hz, e⟩ := s.lsBegin_eq n p
  obtain ⟨x, f⟩ := hz.2.2.2 (dieOf n)
  rw [State.win, State.win, e, State.die_updCore, f]

theorem State.lsBegin_pos (s : State) (n : Nat) (p : Plan) : ((s.lsBegin n p).core n).pos = (s.core n).pos :=
  (s.lsBegin_storeKeeps n p).pos

/-! ## Windows -/

/-- The window of a typed buffer. -/
def Buf.win : Buf → Win
  | .a => .a
  | .c => .c
  | .w => .w

theorem Buf.win_ne (b : Buf) : b.win ≠ .commons ∧ b.win ≠ .global := by cases b <;> decide

/-- The piece has a byte, and lies in the typed buffer. -/
def Buf.Holds (b : Buf) (x : Piece) : Prop := 0 < x.len ∧ b.base ≤ x.addr ∧ x.addr + x.len ≤ b.base + b.size

/-- The first bytes of the windows, for arithmetic (R206). -/
theorem window_bases : aBase = 0x7F00000000000000 ∧ cBase = 0x7F00000000100000 ∧ wBase = 0x7F00000000200000 ∧
    commonsBase = 0x7F00000100000000 ∧ copyBase = 0x7F00000200000000 ∧ bankBase = 0x7F00000200040000 ∧ csrBase = 0x7F00000300000000 :=
  ⟨rfl, rfl, rfl, rfl, rfl, rfl, rfl⟩

theorem winOf_buf (present : Nat) (b : Buf) (a : Nat) (h1 : b.base ≤ a) (h2 : a < b.base + b.size) : winOf present a = some b.win := by
  obtain ⟨ha, hc, hw, -⟩ := window_bases
  cases b <;> simp only [Buf.base, Buf.size] at h1 h2 <;> rw [winOf, if_neg (show ¬ a < 2 ^ 52 by omega)]
  case a => rw [if_pos (show aBase ≤ a ∧ a < aBase + 0x80000 from ⟨h1, h2⟩)]; rfl
  all_goals rw [if_neg (show ¬ (aBase ≤ a ∧ a < aBase + 0x80000) by omega)]
  case c => rw [if_pos (show cBase ≤ a ∧ a < cBase + 0x80000 from ⟨h1, h2⟩)]; rfl
  case w =>
    rw [if_neg (show ¬ (cBase ≤ a ∧ a < cBase + 0x80000) by omega), if_pos (show wBase ≤ a ∧ a < wBase + 0x100000 from ⟨h1, h2⟩)]
    rfl

/-- From the commons on, an address is in no typed buffer and not in global memory. -/
theorem winOf_from_commons (present a : Nat) (h : commonsBase ≤ a) : winOf present a =
    if commonsBase ≤ a ∧ a < commonsBase + 262144 * present then some .commons
    else if copyBase ≤ a ∧ a < copyBase + 0x10000 then some .copyAp
    else if bankBase ≤ a ∧ a < bankBase + 0x8000 then some .bankAp
    else if csrBase ≤ a ∧ a < csrBase + 0x8000 then some .csr
    else none := by
  obtain ⟨ha, hc, hw, hb, -⟩ := window_bases
  rw [winOf, if_neg (show ¬ a < 2 ^ 52 by omega), if_neg (show ¬ (aBase ≤ a ∧ a < aBase + 0x80000) by omega),
    if_neg (show ¬ (cBase ≤ a ∧ a < cBase + 0x80000) by omega), if_neg (show ¬ (wBase ≤ a ∧ a < wBase + 0x100000) by omega)]

theorem winOf_commons (present a : Nat) (h1 : commonsBase ≤ a) (h2 : a < commonsBase + 262144 * present) :
    winOf present a = some .commons := by
  rw [winOf_from_commons _ _ h1, if_pos ⟨h1, h2⟩]

theorem bufOf_from_commons (present a : Nat) (h : commonsBase ≤ a) : bufOf present a = none := by
  rw [bufOf, winOf_from_commons _ _ h]
  split_ifs <;> rfl

theorem Hallmark.npresent_le (h : Hallmark) : h.npresent ≤ 160 := by
  unfold Hallmark.npresent Hallmark.presentList
  split
  · exact Nat.le_refl _
  · exact (List.length_filter_le _ _).trans (by simp)

theorem Buf.Holds.win_addr {b : Buf} {x : Piece} (h : b.Holds x) (s : State) (n : Nat) : s.win n x.addr = some b.win := by
  obtain ⟨h0, h1, h2⟩ := h
  exact winOf_buf _ b _ h1 (by omega)

theorem Buf.base_add_size_le (b : Buf) : b.base + b.size ≤ 2 ^ 63 := by cases b <;> decide

theorem Buf.Holds.win_last {b : Buf} {x : Piece} (h : b.Holds x) (s : State) (n : Nat) : s.win n x.last = some b.win := by
  obtain ⟨h0, h1, h2⟩ := h
  have := b.base_add_size_le
  have e : x.last = x.addr + x.len - 1 := Nat.mod_eq_of_lt (by omega)
  rw [e]
  exact winOf_buf _ b _ (by omega) (by omega)

theorem Buf.Holds.bufOf {b : Buf} {x : Piece} (h : b.Holds x) : bufOf 0 x.addr = some (b, x.addr - b.base) := by
  obtain ⟨h0, h1, h2⟩ := h
  unfold Machine.bufOf
  rw [winOf_buf 0 b _ h1 (by omega)]
  cases b <;> rfl

end Sys2Proof.Machine
end

section
/-! PROOFS. What the pieces of a store do: to typed buffers at once, and to the store list of the commons (R207, R212, R250, R261). -/

open Sys2Proof Sys2Proof.Machine

namespace Sys2Proof.Machine

/-! ## Typed buffers -/

theorem State.bufWrite_storeKeeps (s : State) (n : Nat) (pre : Bool) (b : Buf) (off len val msk bundle sch : Nat) (h : len ≠ 0) :
    s.StoreKeeps (s.bufWrite n pre b off len val msk bundle sch) n := by
  obtain ⟨z, hz, e⟩ := s.bufWrite_eq n pre b off len val msk bundle sch h
  rw [e]
  refine hz.storeKeeps.trans (z.updCore_storeKeeps n _ (Core.setBuf_sameRegisters ..) ?_ ?_ ?_) <;> cases b <;> rfl

/-- A piece in a typed buffer writes its bits there, and nothing else that a program sees. -/
theorem State.bufferStore_spec (s : State) (n : Nat) (b : Buf) (x : Piece) (h : b.Holds x) :
    s.StoreKeeps (s.bufferStore n x) n ∧
      ((s.bufferStore n x).core n).buf b = ((s.core n).buf b).writeBits (x.addr - b.base) x.len x.val x.mask ∧
      ∀ e, e ≠ b → ((s.bufferStore n x).core n).buf e = (s.core n).buf e := by
  have hlen : x.len ≠ 0 := Nat.pos_iff_ne_zero.mp h.1
  have hk := s.bufWrite_storeKeeps n false b (x.addr - b.base) x.len x.val x.mask (s.core n).regs.pc.toNat (s.core n).schedule hlen
  obtain ⟨hself, hne, -⟩ :=
    s.bufWrite_spec n false b (x.addr - b.base) x.len x.val x.mask (s.core n).regs.pc.toNat (s.core n).schedule hlen
  unfold State.bufferStore
  rw [h.bufOf]
  dsimp only
  split
  · refine ⟨hk.trans (State.updCore_storeKeeps _ n _ ?_ rfl rfl rfl), Eq.trans ?_ hself, fun y hy => Eq.trans ?_ (hne y hy)⟩
    · simp [Core.SameRegisters, Core.txTouchRange]
    · rw [State.core_updCore_self]; cases b <;> rfl
    · rw [State.core_updCore_self]; cases y <;> rfl
  · exact ⟨hk, hself, hne⟩

/-- Pieces in typed buffers, whichever, keep what is no buffer. -/
theorem State.bufferStores_storeKeeps (s : State) (n : Nat) (ps : List Piece) (h : ∀ x ∈ ps, ∃ b : Buf, b.Holds x) :
    s.StoreKeeps (ps.foldl (fun t x => t.bufferStore n x) s) n := by
  induction ps generalizing s with
  | nil => exact .refl s n
  | cons x r ih =>
    obtain ⟨b, hb⟩ := h x List.mem_cons_self
    exact (s.bufferStore_spec n b x hb).1.trans (ih _ fun y hy => h y (List.mem_cons_of_mem _ hy))

/-- Pieces in typed buffers, whichever, leave a byte in none of them as it is. -/
theorem State.bufferStores_read (s : State) (n : Nat) (ps : List Piece) (b : Buf) (a : Nat) (h : ∀ x ∈ ps, ∃ b : Buf, b.Holds x)
    (ho : ∀ x ∈ ps, b.base + a < x.addr ∨ x.addr + x.len ≤ b.base + a) :
    Memory.read (((ps.foldl (fun t x => t.bufferStore n x) s).core n).buf b) a = Memory.read ((s.core n).buf b) a := by
  induction ps generalizing s with
  | nil => rfl
  | cons x r ih =>
    rw [List.forall_mem_cons] at h ho
    obtain ⟨⟨d, hd⟩, hr⟩ := h
    obtain ⟨-, hself, hne⟩ := s.bufferStore_spec n d x hd
    refine (ih _ hr ho.2).trans ?_
    by_cases e : b = d
    · subst e
      obtain ⟨h0, h1, h2⟩ := hd
      rw [hself]
      exact Memory.read_writeBits_of_not_mem _ _ _ _ _ _ (by omega)
    · rw [hne b e]

/-- Pieces that all lie in one typed buffer act on it one after another, and on no other. -/
theorem State.bufferStores_buf (s : State) (n : Nat) (ps : List Piece) (b : Buf) (h : ∀ x ∈ ps, b.Holds x) :
    ((ps.foldl (fun t x => t.bufferStore n x) s).core n).buf b = ((s.core n).buf b).storePieces b.base ps ∧
      ∀ e, e ≠ b → ((ps.foldl (fun t x => t.bufferStore n x) s).core n).buf e = (s.core n).buf e := by
  induction ps generalizing s with
  | nil => exact ⟨rfl, fun _ _ => rfl⟩
  | cons x r ih =>
    rw [List.forall_mem_cons] at h
    obtain ⟨-, hself, hne⟩ := s.bufferStore_spec n b x h.1
    obtain ⟨h1, h2⟩ := ih (s.bufferStore n x) h.2
    refine ⟨?_, fun e he => (h2 e he).trans (hne e he)⟩
    rw [List.foldl_cons, h1, hself]
    rfl

/-! ## The store list of the commons -/

/-- s after core n has added a store of the given bytes to the list of its superstep, at its place in the program (R250). -/
def State.joinStore (s : State) (n : Nat) (r : Region) (l : List (Nat × Byte × Byte)) : State :=
  s.updDie (dieOf n) (fun d => { d with stores := d.stores ++ [⟨r.launch, r.group, n, (s.core n).pos, 0, l⟩] })

/-- The entry is that of the store of core n at place `pos` to a region's group. -/
def CStore.isOf (n pos : Nat) (r : Region) (x : CStore) : Bool :=
  x.core == n && x.pos == pos && x.launch == r.launch && x.group == r.group && x.sub == 0

theorem CStore.core_pos_of_isOf {n pos : Nat} {r : Region} {x : CStore} (h : x.isOf n pos r = true) : x.core = n ∧ x.pos = pos := by
  simp only [CStore.isOf, Bool.and_eq_true, beq_iff_eq] at h
  obtain ⟨⟨⟨h, -⟩, -⟩, -⟩ := h
  exact h

/-- One byte of a commons store of core n at place `pos`. -/
def State.commonsByte (n pos : Nat) (s : State) (e : Nat × Byte × Byte) : State :=
  match s.regionAt n e.1 with
  | none => s
  | some r => s.updDie (dieOf n) (fun d =>
    if d.stores.any (CStore.isOf n pos r) then
      { d with stores := d.stores.map (fun x => if x.isOf n pos r then { x with bytes := x.bytes ++ [e] } else x) }
    else { d with stores := d.stores ++ [⟨r.launch, r.group, n, pos, 0, [e]⟩] })

theorem State.commonsStore_eq_foldl (s : State) (n : Nat) (cells : List (Nat × Byte × Byte)) :
    s.commonsStore n cells = cells.foldl (State.commonsByte n (s.core n).pos) s := rfl

theorem State.setDie_setDie (s : State) (d : Nat) (x y : Die) : (s.setDie d x).setDie d y = s.setDie d y := by
  simp [State.setDie, vset]

theorem State.die_joinStore (s : State) (n : Nat) (r : Region) (l : List (Nat × Byte × Byte)) (h : dieOf n < 4) :
    (s.joinStore n r l).die (dieOf n) = { s.die (dieOf n) with
      stores := (s.die (dieOf n)).stores ++ [⟨r.launch, r.group, n, (s.core n).pos, 0, l⟩] } :=
  State.die_setDie_self _ _ _ h

theorem State.joinStore_commons (s : State) (n : Nat) (r : Region) (l : List (Nat × Byte × Byte)) (h : dieOf n < 4) (d : Nat) :
    ((s.joinStore n r l).die d).commons = (s.die d).commons := by
  by_cases e : d = dieOf n
  · rw [e, s.die_joinStore n r l h]
  · rw [State.joinStore, State.updDie, State.die_setDie_of_ne _ _ _ _ e]

theorem State.joinStore_regionAt (s : State) (n : Nat) (r : Region) (l : List (Nat × Byte × Byte)) (h : dieOf n < 4) (off : Nat) :
    (s.joinStore n r l).regionAt n off = s.regionAt n off := by
  refine State.regionAt_congr ?_ ?_ ?_ ?_ off
  case refine_4 => rw [s.die_joinStore n r l h]
  all_goals rfl

/-- The first byte of a store begins an entry of the list. -/
theorem State.commonsByte_first (s : State) (n : Nat) (r : Region) (e : Nat × Byte × Byte) (hr : s.regionAt n e.1 = some r)
    (hno : ∀ y ∈ (s.die (dieOf n)).stores, ¬(y.core = n ∧ y.pos = (s.core n).pos)) :
    s.commonsByte n (s.core n).pos e = s.joinStore n r [e] := by
  unfold State.commonsByte State.joinStore State.updDie
  rw [hr]
  dsimp only
  rw [if_neg]
  simp only [List.any_eq_true, not_exists]
  exact fun y ⟨hy, h⟩ => hno y hy (CStore.core_pos_of_isOf h)

/-- Each further byte of the store goes into that entry. -/
theorem State.commonsByte_next (s : State) (n : Nat) (r : Region) (l : List (Nat × Byte × Byte)) (e : Nat × Byte × Byte) (hd : dieOf n < 4)
    (hr : s.regionAt n e.1 = some r) (hno : ∀ y ∈ (s.die (dieOf n)).stores, ¬(y.core = n ∧ y.pos = (s.core n).pos)) :
    (s.joinStore n r l).commonsByte n (s.core n).pos e = s.joinStore n r (l ++ [e]) := by
  unfold State.commonsByte
  rw [s.joinStore_regionAt n r l hd, hr]
  dsimp only
  have hold : (s.die (dieOf n)).stores.map (fun x => if x.isOf n (s.core n).pos r then { x with bytes := x.bytes ++ [e] } else x) =
      (s.die (dieOf n)).stores :=
    (List.map_congr_left fun y hy => if_neg fun h => hno y hy (CStore.core_pos_of_isOf h)).trans (List.map_id _)
  rw [State.updDie, s.die_joinStore n r l hd, if_pos (by simp [CStore.isOf]), List.map_append, hold]
  simp [State.joinStore, State.updDie, State.setDie_setDie, CStore.isOf]

/-- A store to one region, the first at its place in the program, adds one entry with all its bytes. -/
theorem State.commonsStore_eq_joinStore (s : State) (n : Nat) (r : Region) (cells : List (Nat × Byte × Byte)) (hd : dieOf n < 4)
    (hne : cells ≠ []) (hr : ∀ e ∈ cells, s.regionAt n e.1 = some r)
    (hno : ∀ y ∈ (s.die (dieOf n)).stores, ¬(y.core = n ∧ y.pos = (s.core n).pos)) :
    s.commonsStore n cells = s.joinStore n r cells := by
  have hrest : ∀ (rest l : List (Nat × Byte × Byte)), (∀ e ∈ rest, s.regionAt n e.1 = some r) →
      rest.foldl (State.commonsByte n (s.core n).pos) (s.joinStore n r l) = s.joinStore n r (l ++ rest) := by
    intro rest
    induction rest with
    | nil => simp
    | cons e t ih =>
      intro l h
      rw [List.forall_mem_cons] at h
      rw [List.foldl_cons, s.commonsByte_next n r l e hd h.1 hno, ih _ h.2, List.append_assoc, List.singleton_append]
  cases cells with
  | nil => exact absurd rfl hne
  | cons e t =>
    rw [List.forall_mem_cons] at hr
    rw [State.commonsStore_eq_foldl, List.foldl_cons, s.commonsByte_first n r e hr.1 hno, hrest t [e] hr.2, List.singleton_append]

end Sys2Proof.Machine
end

section
/-! PROOFS. The store instructions: their plans, their checks, and what they come to when every piece lies in typed buffers, or every piece in
one region of the commons (R208 to R212, R250). -/

open Sys2Proof Sys2Proof.Machine

namespace Sys2Proof.Machine

/-! ## The instructions -/

/-- The stores of the load/store slot (R212, R218 to R223). -/
def StoreInstr (i : Instr) : Prop :=
  (∃ col b d sz off, i = .sts col b d sz off) ∨ (∃ col b k off cl o, i = .stv col b k off cl o) ∨
    (∃ col b g k off cl o, i = .stvs col b g k off cl o) ∨ (∃ col b k x cl o, i = .stvx col b k x cl o) ∨
    (∃ col b k off cl m, i = .stk col b k off cl m)

/-- What all stores share: their slot, their meaning, and that they raise no condition of their own. -/
theorem StoreInstr.exec_eq {i : Instr} (h : StoreInstr i) (s : State) :
    slotOf i = some .ls ∧ exec i s = slotExec i s (fun s => s.lsStore s.cur i) ∧ ∀ c : Core, c.nonUniform i = none := by
  rcases h with ⟨col, b, d, sz, off, rfl⟩ | ⟨col, b, k, off, cl, o, rfl⟩ | ⟨col, b, g, k, off, cl, o, rfl⟩ | ⟨col, b, k, x, cl, o, rfl⟩ |
    ⟨col, b, k, off, cl, m, rfl⟩ <;> exact ⟨rfl, rfl, fun _ => rfl⟩

/-- A plan of a store. -/
structure Plan.IsStore (p : Plan) : Prop where
  cls : p.cls = .sstore ∨ p.cls = .vstore
  len : ∀ x ∈ p.pieces, 0 < x.len

/-- Every plan of a store instruction is of a store class, with a byte in each piece. -/
theorem StoreInstr.isStore {i : Instr} (h : StoreInstr i) (c : Core) (p : Plan) (hp : c.plan i = some p) : p.IsStore := by
  rcases h with ⟨col, b, d, sz, off, rfl⟩ | ⟨col, b, k, off, cl, o, rfl⟩ | ⟨col, b, g, k, off, cl, o, rfl⟩ | ⟨col, b, k, x, cl, o, rfl⟩ |
    ⟨col, b, k, off, cl, m, rfl⟩ <;> obtain rfl := Option.some.inj hp
  · exact ⟨.inl rfl, by simp⟩
  · exact ⟨.inr rfl, by simp [contiguousPiece]; omega⟩
  · exact ⟨.inr rfl, by simp [lanePieces, lanePiece]⟩
  · exact ⟨.inr rfl, by simp [lanePieces, lanePiece]⟩
  · refine ⟨.inr rfl, ?_⟩
    simp only [List.forall_mem_map]
    exact fun _ _ => by decide

/-! ## The checks of the address -/

/-- Pieces judged together are pieces of the access, and at least one. -/
theorem Plan.mem_groups {p : Plan} {g : List Piece} (h : g ∈ p.groups) : g ≠ [] ∧ ∀ x ∈ g, x ∈ p.pieces := by
  unfold Plan.groups at h
  split at h
  · obtain ⟨x, hx, rfl⟩ := List.mem_map.mp h
    exact ⟨by simp, by simpa using hx⟩
  · split at h
    · simp at h
    · obtain rfl := List.mem_singleton.mp h
      exact ⟨by assumption, fun _ hx => hx⟩

/-- A group of store pieces in one window passes the checks of R210, when the window is a typed buffer, or is the commons and regions of the core
cover the ends of each piece. -/
theorem State.groupSub_of_window (s : State) (n : Nat) (p : Plan) (g : List Piece) (win : Win) (hp : p.IsStore) (hg : g ≠ [])
    (hw : ∀ x ∈ g, s.win n x.addr = some win ∧ s.win n x.last = some win)
    (hs : (∃ b : Buf, win = b.win) ∨ win = .commons ∧ ∀ x ∈ g,
      s.regionAt n (x.addr - commonsBase) ≠ none ∧ s.regionAt n (x.last - commonsBase) ≠ none) :
    s.groupSub n p g = 0 := by
  obtain ⟨x, r, rfl⟩ := List.exists_cons_of_ne_nil hg
  have hsame : ¬ (x :: r).any (fun y => s.win n y.addr != some win || s.win n y.last != some win) = true := by
    simp only [List.any_eq_true, not_exists, not_and]
    exact fun y hy => by simp [hw y hy]
  unfold State.groupSub
  simp only [List.head?_cons, Option.map_some, Option.getD_some, (hw x List.mem_cons_self).1]
  rw [if_neg hsame]
  obtain ⟨b, rfl⟩ | ⟨rfl, hr⟩ := hs
  · rcases hp.cls with h | h <;> cases b <;> simp [h, Buf.win]
  · have hreg : ¬ (x :: r).any (fun y => (s.regionAt n (y.addr - commonsBase)).isNone || (s.regionAt n (y.last - commonsBase)).isNone) = true := by
      simp only [List.any_eq_true, not_exists, not_and]
      exact fun y hy => by simp [hr y hy]
    rcases hp.cls with h | h <;> simp [h, hreg]

/-- A store none of whose groups fails a check raises no address fault. -/
theorem State.addressFault_of_groups (s : State) (n : Nat) (i : Instr) (p : Plan) (hp : (s.core n).plan i = some p)
    (h : ∀ g ∈ p.groups, s.groupSub n p g = 0) : s.addressFault n i = none := by
  have hf : s.planFault n p = none := by
    unfold State.planFault
    split
    · rfl
    · refine List.findSome?_eq_none_iff.mpr fun g hg => ?_
      simp only [h g hg, if_pos]
  simp [State.addressFault, hp, hf]

theorem State.addressFault_of_buf (s : State) (n : Nat) (i : Instr) (p : Plan) (b : Buf) (hp : (s.core n).plan i = some p) (hs : p.IsStore)
    (h : ∀ x ∈ p.pieces, b.Holds x) : s.addressFault n i = none := by
  refine s.addressFault_of_groups n i p hp fun g hg => ?_
  obtain ⟨hne, hmem⟩ := Plan.mem_groups hg
  exact s.groupSub_of_window n p g b.win hs hne (fun x hx => ⟨(h x (hmem x hx)).win_addr s n, (h x (hmem x hx)).win_last s n⟩)
    (.inl ⟨b, rfl⟩)

/-! ## The effect -/

/-- A well-formed store whose units serve and whose address is good takes its effect. -/
theorem StoreInstr.exec_of_clear {i : Instr} (h : StoreInstr i) (s : State) (hw : WellFormed i) (hs : s.Serves i)
    (ha : s.addressFault s.cur i = none) : exec i s = .next (s.lsStore s.cur i) := by
  obtain ⟨hsl, he, hu⟩ := h.exec_eq s
  rw [he]
  exact slotExec_of_clear s i _ (faultOf_of_checks s s.cur i .ls hsl (by decide) hw hs (hu _) ha)

/-- An access without a piece in global memory has no global byte. -/
theorem State.globalCells_eq_nil (s : State) (n : Nat) (p : Plan) (h : ∀ x ∈ p.pieces, s.win n x.addr ≠ some .global) :
    s.globalCells n p = [] := by
  have : p.pieces.filter (fun x => s.win n x.addr == some .global) = [] := by
    simpa only [List.filter_eq_nil_iff, beq_iff_eq] using h
  rw [State.globalCells, this]
  rfl

/-- A fold whose steps each keep the state keeps it. -/
theorem foldl_of_fixed {α β : Type} (f : β → α → β) (b : β) (l : List α) (h : ∀ a ∈ l, f b a = b) : l.foldl f b = b := by
  induction l with
  | nil => rfl
  | cons a r ih =>
    rw [List.forall_mem_cons] at h
    rw [List.foldl_cons, h.1, ih h.2]

/-- s after core n has gone on by one store in its program. -/
def State.nextPos (s : State) (n : Nat) : State := s.updCore n (fun c => { c with pos := c.pos + 1 })

/-- A store to typed buffers: its pieces, one after another, and the place in the program. -/
theorem State.lsStore_of_buffers (s : State) (n : Nat) (i : Instr) (p : Plan) (hp : (s.core n).plan i = some p)
    (h : ∀ x ∈ p.pieces, ∃ b : Buf, b.Holds x) :
    s.lsStore n i = (p.pieces.foldl (fun t x => t.bufferStore n x) (s.lsBegin n p)).nextPos n := by
  have hwin : ∀ (t : State), ∀ x ∈ p.pieces, ∃ b : Buf, t.win n x.addr = some b.win := fun t x hx => by
    obtain ⟨b, hb⟩ := h x hx
    exact ⟨b, hb.win_addr t n⟩
  have hcom : p.pieces.filter (fun x => (s.lsBegin n p).win n x.addr == some .commons) = [] := by
    simp only [List.filter_eq_nil_iff, beq_iff_eq]
    intro x hx e
    obtain ⟨b, hb⟩ := hwin (s.lsBegin n p) x hx
    exact b.win_ne.1 (Option.some.inj (hb.symm.trans e))
  have hglob : ∀ t : State, t.globalCells n p = [] := fun t => t.globalCells_eq_nil n p fun x hx e => by
    obtain ⟨b, hb⟩ := hwin t x hx
    exact b.win_ne.2 (Option.some.inj (hb.symm.trans e))
  unfold State.lsStore
  simp only [hp, hcom, List.flatMap_nil, State.commonsStore_eq_foldl, List.foldl_nil, hglob, if_pos]
  rw [foldl_of_fixed (l := p.pieces)]
  · rfl
  · intro x hx
    obtain ⟨b, hb⟩ := hwin (s.lsBegin n p) x hx
    rw [hb]
    cases b <;> rfl

/-- The bytes of a store that change a bit, as offsets in the commons (R250). -/
def Plan.commonsCells (p : Plan) : List (Nat × Byte × Byte) :=
  p.pieces.flatMap (fun x => (x.cells.filter (fun e => e.2.2 != 0)).map (fun e => (e.1 - commonsBase, e.2)))

/-- A store to the commons: its bytes join the store list, and the place in the program. -/
theorem State.lsStore_of_commons (s : State) (n : Nat) (i : Instr) (p : Plan) (hp : (s.core n).plan i = some p)
    (h : ∀ x ∈ p.pieces, commonsBase ≤ x.addr ∧ (s.lsBegin n p).win n x.addr = some .commons) :
    s.lsStore n i = ((s.lsBegin n p).commonsStore n p.commonsCells).nextPos n := by
  have hbuf : p.pieces.foldl (fun t x => t.bufferStore n x) (s.lsBegin n p) = s.lsBegin n p := foldl_of_fixed _ _ _ fun x hx => by
    rw [State.bufferStore, bufOf_from_commons _ _ (h x hx).1]
  have hcom : p.pieces.filter (fun x => (s.lsBegin n p).win n x.addr == some .commons) = p.pieces := by
    simp only [List.filter_eq_self, beq_iff_eq]
    exact fun x hx => (h x hx).2
  have hglob : ∀ t : State, t.globalCells n p = [] := fun t => t.globalCells_eq_nil n p fun x hx => by
    rw [State.win, winOf_from_commons _ _ (h x hx).1]
    split_ifs <;> simp
  unfold State.lsStore
  simp only [hp, hbuf, hcom, hglob, if_pos]
  rw [foldl_of_fixed (l := p.pieces)]
  · rfl
  · intro x hx
    rw [(h x hx).2]

end Sys2Proof.Machine
end

section
/-! PROOFS. The bits and bytes that each form of a vector store leaves in a typed buffer (R219, R220, R223). -/

open Sys2Proof Sys2Proof.Machine

namespace Sys2Proof.Machine

/-! ## Contiguous stores -/

/-- Without a wrap at 2^64, the piece of lane l begins in byte ea + w·l/2 (R219). -/
theorem contiguousPiece_addr (ea w l v : Nat) (h : ea + w * l / 2 < 2 ^ 64) : (contiguousPiece ea w l v).addr = ea + w * l / 2 := by
  simp only [contiguousPiece, Nat.mul_assoc]
  omega

/-- The bits of the piece of a lane in a contiguous store: 4·w of them, from bit 8·ea + 4·w·l on (R219). -/
theorem contiguousPiece_sets (ea w l v q : Nat) (h : ea + w * l / 2 < 2 ^ 64) :
    (contiguousPiece ea w l v).Sets q ↔ 8 * ea + 4 * w * l ≤ q ∧ q < 8 * ea + 4 * w * l + 4 * w := by
  unfold Piece.Sets
  rw [contiguousPiece_addr _ _ _ _ h]
  simp only [contiguousPiece, Nat.mul_assoc, Nat.testBit_mul_two_pow, Nat.testBit_two_pow_sub_one, Bool.and_eq_true, decide_eq_true_eq]
  omega

/-- A bit of that piece is the lane's. -/
theorem contiguousPiece_testBit (ea w l v i : Nat) (h : ea + w * l / 2 < 2 ^ 64) (hi : i < 4 * w) :
    (contiguousPiece ea w l v).val.testBit (8 * ea + 4 * w * l + i - 8 * (contiguousPiece ea w l v).addr) = v.testBit i := by
  rw [contiguousPiece_addr _ _ _ _ h]
  simp only [contiguousPiece, Nat.mul_assoc]
  rw [show 8 * ea + 4 * (w * l) + i - 8 * (ea + w * l / 2) = 4 * (w * l) % 8 + i by omega, Nat.testBit_mul_two_pow,
    Nat.testBit_mod_two_pow]
  simp [hi]

/-- The bytes of a contiguous access that hold lane l lie in a typed buffer (R219). -/
def Buf.HoldsLane (b : Buf) (ea w l : Nat) : Prop :=
  b.base ≤ ea + w * l / 2 ∧ ea + w * l / 2 + (4 * (w * l % 2) + 4 * w + 7) / 8 ≤ b.base + b.size

theorem Buf.HoldsLane.lt {b : Buf} {ea w l : Nat} (h : b.HoldsLane ea w l) : ea + w * l / 2 < 2 ^ 64 := by
  have := b.base_add_size_le
  obtain ⟨h1, h2⟩ := h
  omega

theorem Buf.HoldsLane.holds {b : Buf} {ea w l : Nat} (h : b.HoldsLane ea w l) (hw : 0 < w) (v : Nat) :
    b.Holds (contiguousPiece ea w l v) := by
  unfold Buf.Holds
  rw [contiguousPiece_addr _ _ _ _ h.lt]
  obtain ⟨h1, h2⟩ := h
  simp only [contiguousPiece, Nat.mul_assoc]
  omega

/-- A contiguous store writes exactly the 4·w bits of each enabled lane. -/
theorem Memory.bitAt_store_contiguous (b : Buf) (m : Memory) (en : LaneMask) (ea w : Nat) (val : Nat → Nat) (hw : Memory.wf m = true)
    (hin : ∀ l, l < 256 → en.getLsbD l = true → b.HoldsLane ea w l) :
    (∀ l i, l < 256 → en.getLsbD l = true → i < 4 * w →
      Memory.bitAt (m.storePieces b.base ((enabled en).map fun l => contiguousPiece ea w l (val l))) (8 * ea + 4 * w * l + i - 8 * b.base) =
        (val l).testBit i) ∧
    ∀ q, 8 * b.base ≤ q → (∀ l i, l < 256 → en.getLsbD l = true → i < 4 * w → q ≠ 8 * ea + 4 * w * l + i) →
      Memory.bitAt (m.storePieces b.base ((enabled en).map fun l => contiguousPiece ea w l (val l))) (q - 8 * b.base) =
        Memory.bitAt m (q - 8 * b.base) := by
  have hbase : ∀ l, l < 256 → en.getLsbD l = true → b.base ≤ (contiguousPiece ea w l (val l)).addr := fun l hl he => by
    rw [contiguousPiece_addr _ _ _ _ (hin l hl he).lt]
    exact (hin l hl he).1
  refine ⟨fun l i hl he hi => ?_, fun q hq hout => ?_⟩
  · have hlt := (hin l hl he).lt
    have hq : 8 * b.base ≤ 8 * ea + 4 * w * l + i := by
      have := (hin l hl he).1
      rw [Nat.mul_assoc]
      omega
    rw [Memory.bitAt_storeLanes b.base m en _ _ l hw hbase hq hl he, contiguousPiece_testBit _ _ _ _ _ hlt hi]
    · rw [contiguousPiece_sets _ _ _ _ _ hlt]
      omega
    · intro k hk hk2 hke
      rw [contiguousPiece_sets _ _ _ _ _ (hin k hk2 hke).lt]
      have : 4 * w * (l + 1) ≤ 4 * w * k := Nat.mul_le_mul_left _ hk
      rw [Nat.mul_succ] at this
      omega
  · refine Memory.bitAt_storeLanes_of_not_sets b.base m en _ q hw hbase hq fun l hl he hs => ?_
    rw [contiguousPiece_sets _ _ _ _ _ (hin l hl he).lt] at hs
    exact hout l (q - (8 * ea + 4 * w * l)) hl he (by omega) (by omega)

/-! ## Strided and indexed stores -/

theorem lanePiece_addr (a w l v : Nat) (h : a < 2 ^ 64) : (lanePiece a w l v).addr = a := Nat.mod_eq_of_lt h

/-- The piece of a lane with an address of its own writes all bits of its ceil(w/2) bytes (R219). -/
theorem lanePiece_sets (a w l v q : Nat) (h : a < 2 ^ 64) : (lanePiece a w l v).Sets q ↔ 8 * a ≤ q ∧ q < 8 * (a + (w + 1) / 2) := by
  unfold Piece.Sets
  rw [lanePiece_addr _ _ _ _ h]
  simp only [lanePiece, Nat.testBit_two_pow_sub_one, decide_eq_true_eq]
  omega

/-- The n bytes from an address on lie in a typed buffer. -/
def Buf.HoldsAt (b : Buf) (a n : Nat) : Prop := b.base ≤ a ∧ a + n ≤ b.base + b.size

theorem Buf.HoldsAt.lt {b : Buf} {a n : Nat} (h : b.HoldsAt a n) : a < 2 ^ 64 := by
  have := b.base_add_size_le
  obtain ⟨h1, h2⟩ := h
  omega

theorem Buf.HoldsAt.holds {b : Buf} {a w : Nat} (h : b.HoldsAt a ((w + 1) / 2)) (hw : 0 < w) (l v : Nat) :
    b.Holds (lanePiece a w l v) := by
  unfold Buf.Holds
  rw [lanePiece_addr _ _ _ _ h.lt]
  exact ⟨by simp only [lanePiece]; omega, h⟩

/-- Bit i of byte a is bit 8·a + i. -/
theorem Memory.getLsbD_read (m : Memory) (a i : Nat) (hi : i < 8) : (Memory.read m a).getLsbD i = Memory.bitAt m (8 * a + i) := by
  rw [Memory.bitAt, show (8 * a + i) / 8 = a by omega, show (8 * a + i) % 8 = i by omega]

/-- A store whose lanes have addresses of their own: each byte is that of the highest enabled lane that covers it, and a byte that none covers
stays (R223). -/
theorem Memory.read_store_lanes (b : Buf) (m : Memory) (en : LaneMask) (w : Nat) (addr val : Nat → Nat) (hw : Memory.wf m = true)
    (hin : ∀ l, l < 256 → en.getLsbD l = true → b.HoldsAt (addr l) ((w + 1) / 2)) :
    (∀ l j, l < 256 → en.getLsbD l = true → j < (w + 1) / 2 →
      (∀ h, l < h → h < 256 → en.getLsbD h = true → addr l + j < addr h ∨ addr h + (w + 1) / 2 ≤ addr l + j) →
      Memory.read (m.storePieces b.base ((enabled en).map fun l => lanePiece (addr l) w l (val l))) (addr l + j - b.base) =
        BitVec.ofNat 8 (val l % 2 ^ (4 * w) / 2 ^ (8 * j))) ∧
    ∀ a, b.base ≤ a → (∀ l, l < 256 → en.getLsbD l = true → a < addr l ∨ addr l + (w + 1) / 2 ≤ a) →
      Memory.read (m.storePieces b.base ((enabled en).map fun l => lanePiece (addr l) w l (val l))) (a - b.base) =
        Memory.read m (a - b.base) := by
  have hbase : ∀ l, l < 256 → en.getLsbD l = true → b.base ≤ (lanePiece (addr l) w l (val l)).addr := fun l hl he => by
    rw [lanePiece_addr _ _ _ _ (hin l hl he).lt]
    exact (hin l hl he).1
  refine ⟨fun l j hl he hj hlast => BitVec.eq_of_getLsbD_eq fun i hi => ?_, fun a ha hout => BitVec.eq_of_getLsbD_eq fun i hi => ?_⟩
  · have hlt := (hin l hl he).lt
    have hge := (hin l hl he).1
    rw [Memory.getLsbD_read _ _ _ hi, show 8 * (addr l + j - b.base) + i = 8 * (addr l + j) + i - 8 * b.base by omega,
      Memory.bitAt_storeLanes b.base m en _ _ l hw hbase (by omega) hl he, lanePiece_addr _ _ _ _ hlt,
      show (2 : Nat) ^ (8 * j) = 256 ^ j from pow_mul 2 8 j, getLsbD_byte _ _ _ hi]
    · rw [show 8 * (addr l + j) + i - 8 * addr l = 8 * j + i by omega]
      rfl
    · rw [lanePiece_sets _ _ _ _ _ hlt]
      omega
    · intro k hk hk2 hke
      rw [lanePiece_sets _ _ _ _ _ (hin k hk2 hke).lt]
      have := hlast k hk hk2 hke
      omega
  · rw [Memory.getLsbD_read _ _ _ hi, Memory.getLsbD_read _ _ _ hi,
      show 8 * (a - b.base) + i = 8 * a + i - 8 * b.base by omega]
    refine Memory.bitAt_storeLanes_of_not_sets b.base m en _ _ hw hbase (by omega) fun l hl he hs => ?_
    rw [lanePiece_sets _ _ _ _ _ (hin l hl he).lt] at hs
    have := hout l hl he
    omega

/-- A lane of w slices fits 4·w bits. -/
theorem laneOf_lt (lines : List SliceLine) (l : Nat) : laneOf lines l < 2 ^ (4 * lines.length) := by
  have h := packBits_lt 4 (lines.map (fun x => x.toNat / 2 ^ (4 * l) % 16))
  rwa [List.length_map] at h

/-! ## Mask stores -/

theorem enabled_ne_nil (en : LaneMask) (h : en ≠ 0) : enabled en ≠ [] := by
  intro e
  refine h (BitVec.eq_of_getLsbD_eq fun i hi => ?_)
  rw [show (0 : LaneMask).getLsbD i = false from BitVec.getLsbD_zero, Bool.eq_false_iff]
  intro hb
  have := (mem_enabled en i).mpr ⟨hi, hb⟩
  simp [e] at this

/-- The piece of a mask store: 32 bytes, of which the bits of the enabled lanes are written (R222). -/
def maskPiece (l ea : Nat) (v en : LaneMask) : Piece := ⟨l, ea, 32, v.toNat, en.toNat⟩

theorem maskPiece_sets (l ea : Nat) (v en : LaneMask) (q : Nat) :
    (maskPiece l ea v en).Sets q ↔ 8 * ea ≤ q ∧ q < 8 * ea + 256 ∧ en.getLsbD (q - 8 * ea) = true := by
  simp only [Piece.Sets, maskPiece, BitVec.testBit_toNat, Nat.mul_add]

/-- A mask store writes exactly the bits of the enabled lanes. -/
theorem Memory.bitAt_store_mask (b : Buf) (m : Memory) (l0 ea : Nat) (v en : LaneMask) (hw : Memory.wf m = true) (hb : b.base ≤ ea) :
    (∀ l, l < 256 → en.getLsbD l = true →
      Memory.bitAt (m.storePieces b.base [maskPiece l0 ea v en]) (8 * ea + l - 8 * b.base) = v.getLsbD l) ∧
    ∀ q, 8 * b.base ≤ q → (∀ l, l < 256 → en.getLsbD l = true → q ≠ 8 * ea + l) →
      Memory.bitAt (m.storePieces b.base [maskPiece l0 ea v en]) (q - 8 * b.base) = Memory.bitAt m (q - 8 * b.base) := by
  refine ⟨fun l hl he => ?_, fun q hq hout => ?_⟩
  · have h := (Memory.bitAt_storePiece b.base m (maskPiece l0 ea v en) (8 * ea + l) hw hb (by omega)).1
      ((maskPiece_sets ..).mpr ⟨by omega, by omega, by rwa [Nat.add_sub_cancel_left]⟩)
    refine Eq.trans h ?_
    simp only [maskPiece, Nat.add_sub_cancel_left, BitVec.testBit_toNat]
  · refine (Memory.bitAt_storePiece b.base m (maskPiece l0 ea v en) q hw hb hq).2 fun hs => ?_
    obtain ⟨h1, h2, h3⟩ := (maskPiece_sets ..).mp hs
    exact hout (q - 8 * ea) (by omega) h3 (by omega)

end Sys2Proof.Machine
end

section
/-! PROOFS. Stores to typed buffers and to the commons (R207, R212, R218 to R223, R250, R261). -/

open Sys2Proof Sys2Proof.Machine

namespace Sys2Proof.Machine

/-! ## Any store, by the windows of its pieces -/

theorem State.nextPos_buf (s : State) (n : Nat) (b : Buf) : ((s.nextPos n).core n).buf b = (s.core n).buf b := by
  rw [State.nextPos, State.core_updCore_self]
  cases b <;> rfl

theorem State.nextPos_sameRegisters (s : State) (n : Nat) : (s.core n).SameRegisters ((s.nextPos n).core n) := by
  rw [State.nextPos, State.core_updCore_self]
  simp [Core.SameRegisters]

/-- What a store to typed buffers, whichever, leaves as it is. -/
theorem State.lsStore_of_buffers_frame (s : State) (n : Nat) (i : Instr) (p : Plan) (hp : (s.core n).plan i = some p)
    (h : ∀ x ∈ p.pieces, ∃ b : Buf, b.Holds x) :
    (s.core n).SameRegisters ((s.lsStore n i).core n) ∧ s.SameMemory (s.lsStore n i) ∧
      ((s.lsStore n i).core n).results = (s.core n).results ∧ ((s.lsStore n i).core n).queue = (s.core n).queue ∧
      ((s.lsStore n i).core n).pos = (s.core n).pos + 1 := by
  have hk := (s.lsBegin_storeKeeps n p).trans ((s.lsBegin n p).bufferStores_storeKeeps n p.pieces h)
  rw [s.lsStore_of_buffers n i p hp h]
  refine ⟨hk.regs.trans (State.nextPos_sameRegisters ..), hk.memory, ?_, ?_, ?_⟩ <;> rw [State.nextPos, State.core_updCore_self]
  · exact hk.results
  · exact hk.queue
  · exact congrArg (· + 1) hk.pos

/-- A store whose pieces all lie in one typed buffer. -/
theorem StoreInstr.exec_of_buf {i : Instr} (hi : StoreInstr i) (s : State) (p : Plan) (b : Buf) (hp : (s.core s.cur).plan i = some p)
    (h : ∀ x ∈ p.pieces, b.Holds x) (hw : WellFormed i) (hs : s.Serves i) :
    ∃ z, exec i s = .next z ∧ (s.core s.cur).SameRegisters (z.core s.cur) ∧ s.SameMemory z ∧
      (z.core s.cur).buf b = ((s.core s.cur).buf b).storePieces b.base p.pieces ∧
      ∀ e, e ≠ b → (z.core s.cur).buf e = (s.core s.cur).buf e := by
  have hex : ∀ x ∈ p.pieces, ∃ b : Buf, b.Holds x := fun x hx => ⟨b, h x hx⟩
  obtain ⟨hr, hm, -⟩ := s.lsStore_of_buffers_frame s.cur i p hp hex
  obtain ⟨hself, hne⟩ := (s.lsBegin s.cur p).bufferStores_buf s.cur p.pieces b h
  refine ⟨_, hi.exec_of_clear s hw hs (s.addressFault_of_buf s.cur i p b hp (hi.isStore _ p hp) h), hr, hm, ?_, fun e he => ?_⟩ <;>
    rw [s.lsStore_of_buffers s.cur i p hp hex, State.nextPos_buf]
  · rw [hself, State.lsBegin_buf]
  · rw [hne e he, State.lsBegin_buf]

/-- The bytes of a piece that change a bit, as offsets in the commons. -/
theorem commonsCells_eq_filterMap (p : Plan) : p.commonsCells =
    (p.pieces.flatMap Piece.cells).filterMap (fun e => if e.2.2 = 0 then none else some (e.1 - commonsBase, e.2)) := by
  have h : (fun e : Nat × Byte × Byte => if e.2.2 = 0 then none else some (e.1 - commonsBase, e.2)) =
      fun e => (Option.guard (fun e => e.2.2 != 0) e).map (fun e => (e.1 - commonsBase, e.2)) := by
    funext e
    by_cases he : e.2.2 = 0
    · simp only [Option.guard, he, bne_self_eq_false, if_true, Bool.false_eq_true, if_false, Option.map_none]
    · simp only [Option.guard, bne_iff_ne, ne_eq, he, not_false_eq_true, if_true, if_false, Option.map_some]
  rw [h, ← List.map_filterMap, List.filterMap_eq_filter, List.filter_flatMap, List.map_flatMap]
  rfl

/-- The piece has a byte, and lies in the commons, of which region r covers all its bytes for core n. -/
structure State.CommonsHolds (s : State) (n : Nat) (r : Region) (x : Piece) : Prop where
  len : 0 < x.len
  base : commonsBase ≤ x.addr
  top : x.addr + x.len ≤ commonsBase + 262144 * (s.die (dieOf n)).hallmark.npresent
  region : ∀ k, k < x.len → s.regionAt n (x.addr + k - commonsBase) = some r

theorem State.CommonsHolds.lt {s : State} {n : Nat} {r : Region} {x : Piece} (h : s.CommonsHolds n r x) : x.addr + x.len < 2 ^ 64 := by
  have := h.top
  have := (s.die (dieOf n)).hallmark.npresent_le
  obtain ⟨-, -, -, hb, -⟩ := window_bases
  omega

theorem State.CommonsHolds.last {s : State} {n : Nat} {r : Region} {x : Piece} (h : s.CommonsHolds n r x) :
    x.last = x.addr + (x.len - 1) := by
  have := h.lt
  have := h.len
  unfold Piece.last
  omega

theorem State.CommonsHolds.win {s : State} {n : Nat} {r : Region} {x : Piece} (h : s.CommonsHolds n r x) :
    s.win n x.addr = some .commons ∧ s.win n x.last = some .commons := by
  have hl := h.len
  have hb := h.base
  have ht := h.top
  rw [h.last]
  exact ⟨winOf_commons _ _ hb (by omega), winOf_commons _ _ (by omega) (by omega)⟩

/-- A store to a region of the commons raises no address fault. -/
theorem State.addressFault_of_commons (s : State) (n : Nat) (i : Instr) (p : Plan) (r : Region) (hp : (s.core n).plan i = some p)
    (hs : p.IsStore) (h : ∀ x ∈ p.pieces, s.CommonsHolds n r x) : s.addressFault n i = none := by
  refine s.addressFault_of_groups n i p hp fun g hg => ?_
  obtain ⟨hne, hmem⟩ := Plan.mem_groups hg
  refine s.groupSub_of_window n p g .commons hs hne (fun x hx => (h x (hmem x hx)).win) (.inr ⟨rfl, fun x hx => ?_⟩)
  have hx := h x (hmem x hx)
  have hfirst := hx.region 0 hx.len
  rw [hx.last, hx.region _ (Nat.sub_lt hx.len Nat.one_pos)]
  rw [Nat.add_zero] at hfirst
  simp [hfirst]

/-- The bytes of such a store lie in the region. -/
theorem State.regionAt_commonsCells (s : State) (n : Nat) (p : Plan) (r : Region) (h : ∀ x ∈ p.pieces, s.CommonsHolds n r x) :
    ∀ e ∈ p.commonsCells, s.regionAt n e.1 = some r := by
  intro e he
  obtain ⟨x, hx, he⟩ := List.mem_flatMap.mp he
  obtain ⟨c, hc, rfl⟩ := List.mem_map.mp he
  obtain ⟨k, hk, rfl⟩ := List.mem_map.mp (List.mem_filter.mp hc).1
  rw [List.mem_range] at hk
  have hlt := (h x hx).lt
  have hr := (h x hx).region k hk
  rwa [← Nat.mod_eq_of_lt (show x.addr + k < 2 ^ 64 by omega)] at hr

/-- A store to a region of the commons, the first at its place in the program, joins the store list and leaves the present plane. -/
theorem StoreInstr.exec_of_commons {i : Instr} (hi : StoreInstr i) (s : State) (p : Plan) (r : Region) (hp : (s.core s.cur).plan i = some p)
    (hw : WellFormed i) (hs : s.Serves i) (hd : dieOf s.cur < 4) (hne : p.commonsCells ≠ []) (h : ∀ x ∈ p.pieces, s.CommonsHolds s.cur r x)
    (hno : ∀ y ∈ (s.die (dieOf s.cur)).stores, ¬(y.core = s.cur ∧ y.pos = (s.core s.cur).pos)) :
    ∃ z, exec i s = .next z ∧ (s.core s.cur).SameRegisters (z.core s.cur) ∧ (s.core s.cur).SameBuffers (z.core s.cur) ∧ s.SameMemory z ∧
      (z.core s.cur).pos = (s.core s.cur).pos + 1 ∧ (z.die (dieOf s.cur)).stores = (s.die (dieOf s.cur)).stores ++
        [⟨r.launch, r.group, s.cur, (s.core s.cur).pos, 0, p.commonsCells⟩] := by
  have hbegin := s.lsBegin_storeKeeps s.cur p
  have hstore := s.lsStore_of_commons s.cur i p hp fun x hx => ⟨(h x hx).base, by rw [State.lsBegin_win]; exact (h x hx).win.1⟩
  rw [(s.lsBegin s.cur p).commonsStore_eq_joinStore s.cur r p.commonsCells hd hne
    (fun e he => by rw [State.lsBegin_regionAt]; exact s.regionAt_commonsCells s.cur p r h e he)
    (by rwa [State.lsBegin_stores, State.lsBegin_pos])] at hstore
  refine ⟨_, hi.exec_of_clear s hw hs (s.addressFault_of_commons s.cur i p r hp (hi.isStore _ p hp) h), ?_⟩
  rw [hstore]
  refine ⟨hbegin.regs.trans (State.nextPos_sameRegisters ..), ⟨?_, ?_, ?_⟩, ⟨fun d => ?_, hbegin.memory.2⟩, ?_, ?_⟩
  · exact (State.nextPos_buf _ _ .a).trans (s.lsBegin_buf s.cur p .a)
  · exact (State.nextPos_buf _ _ .c).trans (s.lsBegin_buf s.cur p .c)
  · exact (State.nextPos_buf _ _ .w).trans (s.lsBegin_buf s.cur p .w)
  · exact ((s.lsBegin s.cur p).joinStore_commons s.cur r p.commonsCells hd d).trans (hbegin.memory.1 d)
  · rw [State.nextPos, State.core_updCore_self]
    exact congrArg (· + 1) hbegin.pos
  · rw [State.nextPos, State.die_updCore, State.die_joinStore _ _ _ _ hd, State.lsBegin_stores, State.lsBegin_pos]

end Sys2Proof.Machine
end

section
/-! PROOFS. A store to typed buffers writes its pieces and no other byte; a store to the commons joins the store list (R5, R207, R212, R218 to
R223, R250, R261): the forms of R219 to R222 one by one, and the statement. -/

open Sys2Proof Sys2Proof.Machine

namespace Sys2Proof.Machine

/-! ## The pieces of each form -/

/-- The raw bits of lane l of a slice operand (R9, R19). -/
def Core.laneBits (c : Core) (cl : Bool) (o : SliceOp) (l : Nat) : Nat := laneOf (c.sliceLines cl o.start.toNat o.w) l

theorem Core.laneBits_mod (c : Core) (cl : Bool) (o : SliceOp) (l : Nat) : c.laneBits cl o l % 2 ^ (4 * o.w) = c.laneBits cl o l := by
  have h := laneOf_lt (c.sliceLines cl o.start.toNat o.w) l
  rw [show (c.sliceLines cl o.start.toNat o.w).length = o.w by simp [Core.sliceLines]] at h
  exact Nat.mod_eq_of_lt h

/-- The address of lane l of a strided access (R207). -/
def strideAddr (ea : Nat) (g : Word) (l : Nat) : Nat := (((ea : Int) + (l : Int) * g.toInt) % ((2 ^ 64 : Nat) : Int)).toNat

/-- The address of lane l of an indexed access (R207). -/
def Core.indexAddr (c : Core) (b : Word) (cl : Bool) (x : SliceOp) (l : Nat) : Nat :=
  (((b.toNat : Int) + toSigned (4 * x.w) (c.laneBits cl x l)) % ((2 ^ 64 : Nat) : Int)).toNat

theorem nth_strideAddrs (ea : Nat) (g : Word) (l : Nat) (h : l < 256) : nth 0 (strideAddrs ea g) l = strideAddr ea g l := by
  rw [strideAddrs, nth_map 0 0 _ _ _ (by simpa using h), nth_allLanes l h]
  rfl

theorem Core.nth_indexAddrs (c : Core) (b : Word) (cl : Bool) (x : SliceOp) (l : Nat) (h : l < 256) :
    nth 0 (indexAddrs b (x.wm1.toNat + 1) (c.lanes cl x)) l = c.indexAddr b cl x l := by
  rw [indexAddrs, nth_map 0 0 _ _ _ (by simpa using h), nth_lanes _ _ _ _ h]
  rfl

/-- The pieces of the enabled lanes depend on what stands in lanes alone. -/
theorem map_enabled_congr {α : Type} (en : LaneMask) (f g : Nat → α) (h : ∀ l, l < 256 → f l = g l) :
    (enabled en).map f = (enabled en).map g :=
  List.map_congr_left fun l hl => h l ((mem_enabled en l).mp hl).1

theorem Core.plan_stv (c : Core) (col : BitVec 3) (b : BitVec 6) (k : BitVec 4) (off : BitVec 21) (cl : Bool) (o : SliceOp) :
    ∃ p, c.plan (.stv col b k off cl o) = some p ∧ p.pieces =
      (enabled (c.mask cl k.toNat)).map fun l => contiguousPiece (effAddr (c.sreg b.toNat) off) o.w l (c.laneBits cl o l) :=
  ⟨_, rfl, map_enabled_congr _ _ _ fun l hl => by rw [nth_lanes _ _ _ _ hl]; rfl⟩

theorem Core.plan_stvs (c : Core) (col : BitVec 3) (b g : BitVec 6) (k : BitVec 4) (off : BitVec 21) (cl : Bool) (o : SliceOp) :
    ∃ p, c.plan (.stvs col b g k off cl o) = some p ∧ p.pieces = (enabled (c.mask cl k.toNat)).map fun l =>
      lanePiece (strideAddr (effAddr (c.sreg b.toNat) off) (c.sreg g.toNat) l) o.w l (c.laneBits cl o l) :=
  ⟨_, rfl, map_enabled_congr _ _ _ fun l hl => by rw [nth_lanes _ _ _ _ hl, nth_strideAddrs _ _ _ hl]; rfl⟩

theorem Core.plan_stvx (c : Core) (col : BitVec 3) (b : BitVec 6) (k : BitVec 4) (x : SliceOp) (cl : Bool) (o : SliceOp) :
    ∃ p, c.plan (.stvx col b k x cl o) = some p ∧ p.pieces = (enabled (c.mask cl k.toNat)).map fun l =>
      lanePiece (c.indexAddr (c.sreg b.toNat) cl x l) o.w l (c.laneBits cl o l) :=
  ⟨_, rfl, map_enabled_congr _ _ _ fun l hl => by rw [nth_lanes _ _ _ _ hl, c.nth_indexAddrs _ _ _ _ hl]; rfl⟩

theorem Core.plan_stk (c : Core) (col : BitVec 3) (b : BitVec 6) (k : BitVec 4) (off : BitVec 21) (cl : Bool) (m : BitVec 6)
    (h : c.mask cl k.toNat ≠ 0) : ∃ p l, c.plan (.stk col b k off cl m) = some p ∧
      p.pieces = [maskPiece l (effAddr (c.sreg b.toNat) off) (c.mask cl m.toNat) (c.mask cl k.toNat)] := by
  obtain ⟨l, r, e⟩ := List.exists_cons_of_ne_nil (enabled_ne_nil _ h)
  refine ⟨_, l, rfl, ?_⟩
  simp only [e, List.take_succ_cons, List.take_zero, List.map_cons, List.map_nil, maskPiece]

/-! ## Each form in a typed buffer -/

/-- STS stores the low bytes of its scalar, little-endian (R218). -/
theorem exec_sts_of_buf (s : State) (col : BitVec 3) (b d : BitVec 6) (sz : BitVec 2) (off : BitVec 32) (buf : Buf)
    (hw : WellFormed (.sts col b d sz off)) (hs : s.Serves (.sts col b d sz off))
    (hin : buf.HoldsAt (effAddr ((s.core s.cur).sreg b.toNat) off) (2 ^ sz.toNat)) :
    ∃ z, exec (.sts col b d sz off) s = .next z ∧ s.SameMemory z ∧ (s.core s.cur).SameRegisters (z.core s.cur) ∧
      (∀ j, j < 2 ^ sz.toNat → Memory.read ((z.core s.cur).buf buf) (effAddr ((s.core s.cur).sreg b.toNat) off - buf.base + j) =
        BitVec.ofNat 8 (((s.core s.cur).sreg d.toNat).toNat / 2 ^ (8 * j))) ∧
      ∀ e x, (e ≠ buf ∨ x < effAddr ((s.core s.cur).sreg b.toNat) off - buf.base ∨
          effAddr ((s.core s.cur).sreg b.toNat) off - buf.base + 2 ^ sz.toNat ≤ x) →
        Memory.read ((z.core s.cur).buf e) x = Memory.read ((s.core s.cur).buf e) x := by
  have hi : StoreInstr (.sts col b d sz off) := .inl ⟨_, _, _, _, _, rfl⟩
  obtain ⟨z, hz, hr, hm, hself, hne⟩ := hi.exec_of_buf s _ buf rfl
    (List.forall_mem_singleton.mpr ⟨Nat.two_pow_pos _, hin⟩) hw hs
  refine ⟨z, hz, hm, hr, fun j hj => ?_, fun e x hx => ?_⟩
  · rw [hself]
    refine (Memory.read_writeBits_allBits _ _ _ _ _ hj).trans (BitVec.eq_of_getLsbD_eq fun i hi => ?_)
    rw [show (2 : Nat) ^ (8 * j) = 256 ^ j from pow_mul 2 8 j, getLsbD_byte _ _ _ hi, getLsbD_byte _ _ _ hi, Nat.testBit_mod_two_pow,
      decide_eq_true (show 8 * j + i < 8 * 2 ^ sz.toNat by omega), Bool.true_and]
  · by_cases he : e = buf
    · rw [he, hself]
      exact Memory.read_writeBits_of_not_mem _ _ _ _ _ _ (hx.resolve_left (not_not_intro he))
    · rw [hne e he]

/-- STV stores exactly the 4·w bits of each enabled lane (R219, R220). -/
theorem exec_stv_of_buf (s : State) (col : BitVec 3) (b : BitVec 6) (k : BitVec 4) (off : BitVec 21) (cl : Bool) (o : SliceOp) (buf : Buf)
    (hwf : Memory.wf ((s.core s.cur).buf buf) = true) (hw : WellFormed (.stv col b k off cl o)) (hs : s.Serves (.stv col b k off cl o))
    (hin : ∀ l, l < 256 → ((s.core s.cur).mask cl k.toNat).getLsbD l = true →
      buf.HoldsLane (effAddr ((s.core s.cur).sreg b.toNat) off) o.w l) :
    ∃ z, exec (.stv col b k off cl o) s = .next z ∧ (s.core s.cur).SameRegisters (z.core s.cur) ∧ s.SameMemory z ∧
      (∀ l i, l < 256 → ((s.core s.cur).mask cl k.toNat).getLsbD l = true → i < 4 * o.w →
        Memory.bitAt ((z.core s.cur).buf buf) (8 * effAddr ((s.core s.cur).sreg b.toNat) off + 4 * o.w * l + i - 8 * buf.base) =
          ((s.core s.cur).laneBits cl o l).testBit i) ∧
      ∀ q, 8 * buf.base ≤ q → (∀ l i, l < 256 → ((s.core s.cur).mask cl k.toNat).getLsbD l = true → i < 4 * o.w →
          q ≠ 8 * effAddr ((s.core s.cur).sreg b.toNat) off + 4 * o.w * l + i) →
        Memory.bitAt ((z.core s.cur).buf buf) (q - 8 * buf.base) = Memory.bitAt ((s.core s.cur).buf buf) (q - 8 * buf.base) := by
  have hi : StoreInstr (.stv col b k off cl o) := .inr (.inl ⟨_, _, _, _, _, _, rfl⟩)
  obtain ⟨p, hp, hpieces⟩ := (s.core s.cur).plan_stv col b k off cl o
  obtain ⟨z, hz, hr, hm, hself, -⟩ := hi.exec_of_buf s p buf hp (by
    simp only [hpieces, List.forall_mem_map, mem_enabled]
    exact fun l hl => (hin l hl.1 hl.2).holds (Nat.succ_pos _) _) hw hs
  rw [hpieces] at hself
  refine ⟨z, hz, hr, hm, ?_⟩
  rw [hself]
  exact Memory.bitAt_store_contiguous buf _ _ _ _ _ hwf hin

/-- A store whose lanes have addresses of their own stores the zero-extended value of each enabled lane at its address, the highest lane
remaining where lanes meet (R219, R221, R223). -/
theorem StoreInstr.exec_lanes {i : Instr} (hi : StoreInstr i) (s : State) (p : Plan) (en : LaneMask) (cl : Bool) (o : SliceOp) (addr : Nat → Nat)
    (buf : Buf) (hp : (s.core s.cur).plan i = some p)
    (hpieces : p.pieces = (enabled en).map fun l => lanePiece (addr l) o.w l ((s.core s.cur).laneBits cl o l))
    (hwf : Memory.wf ((s.core s.cur).buf buf) = true) (hin : ∀ l, l < 256 → en.getLsbD l = true → buf.HoldsAt (addr l) ((o.w + 1) / 2))
    (hw : WellFormed i) (hs : s.Serves i) :
    ∃ z, exec i s = .next z ∧ (s.core s.cur).SameRegisters (z.core s.cur) ∧ s.SameMemory z ∧
      (∀ l j, l < 256 → en.getLsbD l = true → j < (o.w + 1) / 2 →
        (∀ h, l < h → h < 256 → en.getLsbD h = true → addr l + j < addr h ∨ addr h + (o.w + 1) / 2 ≤ addr l + j) →
        Memory.read ((z.core s.cur).buf buf) (addr l + j - buf.base) =
          BitVec.ofNat 8 ((s.core s.cur).laneBits cl o l / 2 ^ (8 * j))) ∧
      ∀ a, buf.base ≤ a → (∀ l, l < 256 → en.getLsbD l = true → a < addr l ∨ addr l + (o.w + 1) / 2 ≤ a) →
        Memory.read ((z.core s.cur).buf buf) (a - buf.base) = Memory.read ((s.core s.cur).buf buf) (a - buf.base) := by
  obtain ⟨z, hz, hr, hm, hself, -⟩ := hi.exec_of_buf s p buf hp (by
    simp only [hpieces, List.forall_mem_map, mem_enabled]
    exact fun l hl => (hin l hl.1 hl.2).holds (Nat.succ_pos _) _ _) hw hs
  obtain ⟨hset, hkeep⟩ := Memory.read_store_lanes buf _ en o.w addr ((s.core s.cur).laneBits cl o) hwf hin
  rw [hpieces] at hself
  refine ⟨z, hz, hr, hm, fun l j hl he hj hlast => ?_, fun a ha hout => ?_⟩ <;> rw [hself]
  · rw [hset l j hl he hj hlast, Core.laneBits_mod]
  · exact hkeep a ha hout

/-- STK stores the mask bits of the enabled lanes (R222). -/
theorem exec_stk_of_buf (s : State) (col : BitVec 3) (b : BitVec 6) (k : BitVec 4) (off : BitVec 21) (cl : Bool) (m : BitVec 6) (buf : Buf)
    (hwf : Memory.wf ((s.core s.cur).buf buf) = true) (hw : WellFormed (.stk col b k off cl m)) (hs : s.Serves (.stk col b k off cl m))
    (hin : buf.HoldsAt (effAddr ((s.core s.cur).sreg b.toNat) off) 32) (hen : (s.core s.cur).mask cl k.toNat ≠ 0) :
    ∃ z, exec (.stk col b k off cl m) s = .next z ∧ (s.core s.cur).SameRegisters (z.core s.cur) ∧ s.SameMemory z ∧
      (∀ l, l < 256 → ((s.core s.cur).mask cl k.toNat).getLsbD l = true →
        Memory.bitAt ((z.core s.cur).buf buf) (8 * effAddr ((s.core s.cur).sreg b.toNat) off + l - 8 * buf.base) =
          ((s.core s.cur).mask cl m.toNat).getLsbD l) ∧
      ∀ q, 8 * buf.base ≤ q → (∀ l, l < 256 → ((s.core s.cur).mask cl k.toNat).getLsbD l = true →
          q ≠ 8 * effAddr ((s.core s.cur).sreg b.toNat) off + l) →
        Memory.bitAt ((z.core s.cur).buf buf) (q - 8 * buf.base) = Memory.bitAt ((s.core s.cur).buf buf) (q - 8 * buf.base) := by
  have hi : StoreInstr (.stk col b k off cl m) := .inr (.inr (.inr (.inr ⟨_, _, _, _, _, _, rfl⟩)))
  obtain ⟨p, l, hp, hpieces⟩ := (s.core s.cur).plan_stk col b k off cl m hen
  obtain ⟨z, hz, hr, hm, hself, -⟩ := hi.exec_of_buf s p buf hp (by
    rw [hpieces, List.forall_mem_singleton]
    exact ⟨Nat.succ_pos _, hin⟩) hw hs
  rw [hpieces] at hself
  refine ⟨z, hz, hr, hm, ?_⟩
  rw [hself]
  exact Memory.bitAt_store_mask buf _ l _ _ _ hwf hin.1

/-! ## The statement -/

/-- Settles O39: a store takes effect piece by piece (`State.lsStore_of_buffers`) or joins the store list byte by byte
(`State.commonsStore_eq_joinStore`), and the last piece that writes a bit gives its value (`Memory.bitAt_storeLanes`). -/
theorem bufferAndCommonsStores : Obligations.BufferAndCommonsStores := by
  unfold Obligations.BufferAndCommonsStores
  refine ⟨?anyForm, ?sts, ?vector⟩
  case anyForm =>
    intro s i p c hi hp hw hs
    have hlen := (StoreInstr.isStore hi c p hp).len
    refine ⟨fun hin ha => ?_, fun r hd _ hcell hreg hno => ?_⟩
    · have hb : ∀ x ∈ p.pieces, ∃ b : Buf, b.Holds x := fun x hx => (hin x hx).imp fun _ h => ⟨hlen x hx, h⟩
      obtain ⟨hr, hm, hres, hq, hpos⟩ := s.lsStore_of_buffers_frame s.cur i p hp hb
      refine ⟨_, StoreInstr.exec_of_clear hi s hw hs ha, hr, hm, hres, hq, hpos, fun b a ho => ?_⟩
      rw [s.lsStore_of_buffers s.cur i p hp hb, State.nextPos_buf, State.bufferStores_read _ _ _ b a hb ho, State.lsBegin_buf]
    · have hne : p.commonsCells ≠ [] := by
        obtain ⟨x, hx, e, he, hmask⟩ := hcell
        have : (e.1 - commonsBase, e.2) ∈ p.commonsCells :=
          List.mem_flatMap.mpr ⟨x, hx, List.mem_map.mpr ⟨e, List.mem_filter.mpr ⟨he, bne_iff_ne.mpr hmask⟩, rfl⟩⟩
        exact List.ne_nil_of_mem this
      obtain ⟨z, hz, hr, hb, hm, hpos, hst⟩ := StoreInstr.exec_of_commons hi s p r hp hw hs hd hne
        (fun x hx => by
          obtain ⟨h1, h2, h3, h4⟩ := hreg x hx
          exact ⟨h1, h2, h3, h4⟩) hno
      rw [commonsCells_eq_filterMap] at hst
      exact ⟨z, hz, hr, hb, hm, hpos, hst⟩
  case sts =>
    intro s col b d sz off buf c i n a hw hs h1 h2
    exact exec_sts_of_buf s col b d sz off buf hw hs ⟨h1, h2⟩
  case vector =>
    intro s col b g k off cl o idx m buf c en w n ea val inside strided indexed bitOf byteOf stores lanes hwf
    refine ⟨fun hin hw hs => exec_stv_of_buf s col b k off cl o buf hwf hw hs hin, fun hin hw hs => ?_, fun hin hw hs => ?_,
      fun hin hen hw hs => exec_stk_of_buf s col b k off cl m buf hwf hw hs hin hen⟩
    · obtain ⟨p, hp, hpieces⟩ := c.plan_stvs col b g k off cl o
      exact StoreInstr.exec_lanes (.inr (.inr (.inl ⟨_, _, _, _, _, _, _, rfl⟩))) s p en cl o strided buf hp hpieces hwf hin hw hs
    · obtain ⟨p, hp, hpieces⟩ := c.plan_stvx col b k idx cl o
      exact StoreInstr.exec_lanes (.inr (.inr (.inr (.inl ⟨_, _, _, _, _, _, rfl⟩)))) s p en cl o indexed buf hp hpieces hwf hin hw hs

end Sys2Proof.Machine
end

section
/-! PROOFS. The core after reset (R50, R51). -/

namespace Sys2Proof.Machine

theorem vget_replicate {α : Type} (n : Nat) (a : α) (i : Nat) : vget (Vector.replicate n a) i a = a := by
  unfold vget
  split <;> simp

@[simp] theorem State.core_reset (n : Nat) : State.reset.core n = Core.fresh := rfl

theorem State.die_reset_commons (d : Nat) : (State.reset.die d).commons = [] := by
  match d with
  | 0 | 1 | 2 | 3 => rfl
  | n + 4 => rfl

@[simp] theorem Core.fresh_sreg (r : Nat) : Core.fresh.sreg r = 0 :=
  ite_eq_left_iff.mpr fun _ => vget_replicate 64 0 r

@[simp] theorem Core.fresh_cond (j : Nat) : Core.fresh.cond j = false := vget_replicate 12 false j

@[simp] theorem Core.fresh_target (j : Nat) : Core.fresh.target j = 0 := vget_replicate 12 0 j

theorem Core.fresh_mask (cl : Bool) (k : Nat) (h : k ≠ 0) : Core.fresh.mask cl k = 0 := by
  unfold Core.mask
  rw [if_neg h]
  cases cl <;> exact vget_replicate 16 0 k

@[simp] theorem Core.fresh_slice (cl : Bool) (i : Nat) : Core.fresh.slice cl i = 0 := by cases cl <;> rfl

@[simp] theorem Core.fresh_buf (b : Buf) : Core.fresh.buf b = [] := by cases b <;> rfl

theorem State.memoriesOk_reset : State.reset.MemoriesOk :=
  ⟨rfl, rfl, fun d => by rw [State.die_reset_commons]; rfl, fun _ => rfl⟩

/-- Settles O9: every core of the reset state is `Core.fresh`. -/
theorem resetHoldsTheStartValues : Obligations.ResetHoldsTheStartValues :=
  ⟨State.memoriesOk_reset, fun _ => ⟨rfl, rfl, rfl, Core.fresh_sreg, Core.fresh_cond, Core.fresh_target, Core.fresh_mask, fun _ => rfl,
    Core.fresh_slice, fun b off => by rw [State.core_reset, Core.fresh_buf]; rfl, rfl, rfl, rfl, rfl, rfl, rfl, rfl, rfl, rfl, rfl⟩⟩

end Sys2Proof.Machine
end

section
/-! PROOFS. TRAP, FENCE and HALT (R130, R132, R133). -/

namespace Sys2Proof.Machine

theorem ctPlain_trap (code : BitVec 16) : CtPlain (.trap code) :=
  ⟨rfl, rfl, fun _ => rfl, fun _ => rfl, fun _ => rfl, rfl, rfl, fun _ => rfl, fun _ => rfl, rfl⟩

/-- TRAP takes the software trap with its code (R111, R132). -/
theorem exec_trap (s : State) (code : BitVec 16) :
    exec (.trap code) s = .next (s.takeTrap s.cur ⟨4, 1, code.toNat, 0, (s.core s.cur).regs.pc.toNat⟩) :=
  have h := ctPlain_trap code
  ctExec_control s (.trap code) id _ h.ct h.formed h.noPlan h.noMx h.noSf h.noBusy h.noSlices rfl h.noWait

/-- Settles O18: `exec_trap`, and what every trap that is taken writes and leaves (`State.takeTrap_spec`). -/
theorem softwareTrapStopsTheCore : Obligations.SoftwareTrapStopsTheCore :=
  fun s code => ⟨_, exec_trap s code, s.takeTrap_spec s.cur _⟩

@[simp] theorem State.setCore_setCore (s : State) (n : Nat) (c d : Core) : (s.setCore n c).setCore n d = s.setCore n d := by
  simp [State.setCore]

@[simp] theorem State.updCore_setCore_core (s : State) (n : Nat) (f : Core → Core) :
    (s.setCore n (s.core n)).updCore n f = s.updCore n f := by
  simp [State.updCore]

/-- A perform with nothing to perform changes nothing but the window that then closes. -/
theorem State.closeWin_perform_none (s : State) (n : Nat) (p : Entry → Bool) (h1 : (s.core n).performs = [])
    (h2 : ∀ e ∈ (s.core n).queue, p e = false) : (s.perform n p []).closeWin n = s.closeWin n := by
  rw [s.perform_none n p h1 h2]
  exact s.updCore_setCore_core n _

/-- The control condition of FENCE is TARGET alone. -/
theorem ctSub_fence_of_lt (s : State) (mask : BitVec 8)
    (h : (stepOn (s.core s.cur).regs.pc.toNat (s.core s.cur).regs.loops).1 < s.imageLen s.cur) : s.ctSub s.cur (.fence mask) = none := by
  rw [ctSub_fence, nextOf_fence]
  exact targetSub_of_lt h

theorem exec_fence_zero (s : State)
    (h : (stepOn (s.core s.cur).regs.pc.toNat (s.core s.cur).regs.loops).1 < s.imageLen s.cur) :
    exec (.fence 0) s = .next (s.movedTo (stepOn (s.core s.cur).regs.pc.toNat (s.core s.cur).regs.loops).1
      (stepOn (s.core s.cur).regs.pc.toNat (s.core s.cur).regs.loops).2) := by
  rw [exec_fence, ctExec_commits s (.fence 0) _ (ctPlain_fence 0) (by intro _ h; cases h) (ctSub_fence_of_lt s 0 h), if_pos rfl]
  exact congrArg _ (advance_eq_movedTo s (.fence 0) _ _ rfl)

theorem exec_fence_of_clear (s : State) (mask : BitVec 8)
    (h : (stepOn (s.core s.cur).regs.pc.toNat (s.core s.cur).regs.loops).1 < s.imageLen s.cur) (hm : mask ≠ 0)
    (h1 : (s.core s.cur).performs = []) (h2 : ∀ e ∈ (s.core s.cur).queue, inColours mask e = false) :
    exec (.fence mask) s = .next ((s.closeWin s.cur).movedTo (stepOn (s.core s.cur).regs.pc.toNat (s.core s.cur).regs.loops).1
      (stepOn (s.core s.cur).regs.pc.toNat (s.core s.cur).regs.loops).2) := by
  rw [exec_fence, ctExec_commits s (.fence mask) _ (ctPlain_fence mask) (by intro _ h; cases h) (ctSub_fence_of_lt s mask h), if_neg hm,
    s.closeWin_perform_none s.cur _ h1 h2]
  refine congrArg _ (advance_eq_movedTo (s.closeWin s.cur) (.fence mask) _ _ ?_)
  rw [nextOf_fence, State.closeWin, State.updCore_cur, State.core_updCore_self]
  rfl

/-- A core whose CYCLE has counted HALT's cycle, with its window closed (R37, R322). -/
def Core.haltCycle (c : Core) : Core :=
  { c with regs := { c.regs with stat := closeWindow c.regs.stat, cycle := c.regs.cycle + 1 } }

/-- HALT without queued stores closes the window, counts its cycle and begins to stop. -/
theorem State.halt_of_clear (s : State) (n : Nat) (h1 : (s.core n).performs = []) (h2 : (s.core n).queue = []) :
    s.halt n = (s.updCore n Core.haltCycle).beginStop n .halt := by
  unfold State.halt
  rw [s.closeWin_perform_none n _ h1 (by simp [h2])]
  simp [State.closeWin, State.updCore, Core.haltCycle]

theorem exec_halt_eq (s : State) : exec .halt s = .next ((s.halt s.cur).advance s.cur .halt) := by
  rw [exec_halt]
  exact ctExec_commits s .halt _ ctPlain_halt (by intro _ h; cases h) (ctSub_halt s s.cur)

/-- What HALT leaves of its core, and what it writes there. -/
theorem exec_halt_spec (s : State) (h1 : (s.core s.cur).performs = []) (h2 : (s.core s.cur).queue = []) :
    ∃ t, exec .halt s = .next t ∧ (t.core s.cur).run = .draining ∧ (t.core s.cur).stop = some .halt ∧
      (t.core s.cur).regs.loops = [] ∧ (t.core s.cur).regs.stat.window = false ∧
      (t.core s.cur).regs.cycle = (s.core s.cur).regs.cycle + 1 ∧ (s.core s.cur).SameRegisters (t.core s.cur) ∧
      (s.core s.cur).SameBuffers (t.core s.cur) ∧ s.SameMemory t := by
  obtain ⟨z, hz, e⟩ := (s.updCore s.cur Core.haltCycle).beginStop_eq s.cur .halt
  obtain ⟨hs, -, ⟨v, b, h, q, hc⟩, hd⟩ := hz
  rw [State.core_updCore_self] at hc
  refine ⟨_, exec_halt_eq s, ?_⟩
  rw [s.halt_of_clear s.cur h1 h2, e, State.advance, State.core_updCore_self, State.core_updCore_self, hc]
  refine ⟨rfl, rfl, rfl, rfl, rfl, ?_, ⟨rfl, rfl, rfl⟩, fun d => ?_, ?_, ?_⟩
  · simp [Core.SameRegisters, Core.haltCycle]
  · obtain ⟨x, hx⟩ := hd d
    rw [State.die_updCore, State.die_updCore, hx, State.die_updCore]
  · rw [State.updCore_mem, State.updCore_mem, hs, State.updCore_mem]
  · rw [State.updCore_host, State.updCore_host, hs, State.updCore_host]

/-- Settles O21: FENCE by its two masks, and HALT, each from its control condition and its effect. -/
theorem fenceAndHalt : Obligations.FenceAndHalt :=
  fun s mask => ⟨exec_fence_zero s, exec_fence_of_clear s mask, exec_halt_spec s⟩

end Sys2Proof.Machine
end

section
/-! PROOFS. The landing of a recorded result (R23, R24, R26, R38). -/

namespace Sys2Proof.Machine

/-! ## One line of slices -/

/-- The four bits of lane l in a lane pattern. -/
theorem laneMask4_lane (en : LaneMask) (l : Nat) (h : l < 256) :
    laneMask4 en / 2 ^ (4 * l) % 2 ^ 4 = if en.getLsbD l then 15 else 0 := by
  unfold laneMask4
  rw [packBits_elem, nth_map_range 0 _ 256 l h]
  split <;> rfl

theorem laneMask4_testBit (en : LaneMask) (l j : Nat) (h : l < 256) (hj : j < 4) :
    (laneMask4 en).testBit (4 * l + j) = en.getLsbD l := by
  have e : (laneMask4 en).testBit (4 * l + j) = (laneMask4 en / 2 ^ (4 * l) % 2 ^ 4).testBit j := by
    rw [Nat.testBit_mod_two_pow, Nat.testBit_div_two_pow, decide_eq_true hj, Bool.true_and, Nat.add_comm]
  rw [e, laneMask4_lane en l h]
  cases en.getLsbD l
  · simp
  · have : j = 0 ∨ j = 1 ∨ j = 2 ∨ j = 3 := by omega
    rcases this with rfl | rfl | rfl | rfl <;> decide

/-- A merged line holds the new bits in the enabled lanes and the old ones in the others (R23). -/
theorem mergeLine_lane (old new : SliceLine) (en : LaneMask) (l : Nat) (h : l < 256) :
    (mergeLine old new en).toNat / 2 ^ (4 * l) % 16 =
      if en.getLsbD l then new.toNat / 2 ^ (4 * l) % 16 else old.toNat / 2 ^ (4 * l) % 16 := by
  refine Nat.eq_of_testBit_eq fun j => ?_
  have h16 : (16 : Nat) = 2 ^ 4 := rfl
  rw [apply_ite (fun x => Nat.testBit x j), h16]
  simp only [Nat.testBit_mod_two_pow, Nat.testBit_div_two_pow]
  by_cases hj : j < 4
  · have hm : (mergeLine old new en).toNat.testBit (j + 4 * l) =
        if (laneMask4 en).testBit (j + 4 * l) then new.toNat.testBit (j + 4 * l) else old.toNat.testBit (j + 4 * l) := by
      unfold mergeLine
      rw [BitVec.testBit_toNat, BitVec.getLsbD_ofNat, decide_eq_true (by omega : j + 4 * l < 1024), Bool.true_and, mergeBits_testBit]
    rw [hm, Nat.add_comm j, laneMask4_testBit en l j h hj]
    simp [hj]
  · simp [hj]

theorem Core.slice_putSlice (c : Core) (cl ecl : Bool) (i j : Nat) (x : SliceLine) (en : LaneMask) :
    (c.putSlice cl i x en).slice ecl j = if ecl = cl ∧ j = i then mergeLine (c.slice cl i) x en else c.slice ecl j := by
  by_cases hj : j = i
  · subst hj
    cases cl <;> cases ecl <;> simp [Core.putSlice, Core.slice]
  · cases cl <;> cases ecl <;> simp [Core.putSlice, Core.slice, hj, getD_put_of_ne]

/-! ## What a landing leaves alone -/

/-- All of a core but its registers, its slices, its locket and the landing cycles of its scalars. -/
structure Core.LandKeeps (c d : Core) : Prop where
  buffers : c.SameBuffers d
  results : d.results = c.results
  pc : d.regs.pc = c.regs.pc
  loops : d.regs.loops = c.regs.loops

theorem Core.journalSlice_eq (c : Core) (pre cl : Bool) (i : Nat) (x : SliceLine) (en : LaneMask) :
    ∃ k, c.journalSlice pre cl i x en = { c with locket := k } := by
  unfold Core.journalSlice
  split
  · exact ⟨c.locket, rfl⟩
  · split <;> exact ⟨_, rfl⟩

/-- Writing slices changes slices and the locket. -/
theorem Core.writeSlices_eq (c : Core) (pre cl : Bool) (start : Nat) (en : LaneMask) (lines : List SliceLine) :
    ∃ k a b, c.writeSlices pre cl start en lines = { c with locket := k, sliceA := a, sliceB := b } := by
  induction lines generalizing c start with
  | nil => exact ⟨_, _, _, rfl⟩
  | cons x xs ih =>
    obtain ⟨k, a, b, e⟩ := ih ((c.journalSlice pre cl start x en).putSlice cl start x en) (start + 1)
    obtain ⟨k', e'⟩ := c.journalSlice_eq pre cl start x en
    unfold Core.writeSlices
    rw [e, e']
    cases cl <;> exact ⟨k, a, b, rfl⟩

theorem Core.slice_journalSlice (c : Core) (pre cl : Bool) (i : Nat) (x : SliceLine) (en : LaneMask) (ecl : Bool) (j : Nat) :
    (c.journalSlice pre cl i x en).slice ecl j = c.slice ecl j := by
  obtain ⟨k, e⟩ := c.journalSlice_eq pre cl i x en
  rw [e]
  rfl

/-- Slices written from `start` on: each takes its line in the enabled lanes, and no other slice changes. -/
theorem Core.slice_writeSlices (c : Core) (pre cl : Bool) (start : Nat) (en : LaneMask) (lines : List SliceLine) (ecl : Bool) (i : Nat) :
    (c.writeSlices pre cl start en lines).slice ecl i =
      if ecl = cl ∧ start ≤ i ∧ i < start + lines.length then mergeLine (c.slice ecl i) (nth 0 lines (i - start)) en
      else c.slice ecl i := by
  induction lines generalizing c start with
  | nil =>
    rw [if_neg (by simp only [List.length_nil]; omega)]
    rfl
  | cons x xs ih =>
    unfold Core.writeSlices
    rw [ih, Core.slice_putSlice, Core.slice_journalSlice, Core.slice_journalSlice, List.length_cons]
    by_cases hcl : ecl = cl
    · subst hcl
      simp only [true_and]
      rcases Nat.lt_trichotomy i start with h | h | h
      · rw [if_neg (by omega), if_neg (by omega), if_neg (by omega)]
      · subst h
        rw [if_neg (by omega), if_pos rfl, if_pos (by omega), Nat.sub_self]
        rfl
      · have e : i - start = (i - (start + 1)) + 1 := by omega
        have hn : nth 0 (x :: xs) (i - start) = nth 0 xs (i - (start + 1)) := by rw [e]; rfl
        rw [hn, if_neg (c := i = start) (by omega)]
        by_cases hi : i < start + 1 + xs.length
        · rw [if_pos (by omega), if_pos (by omega)]
        · rw [if_neg (by omega), if_neg (by omega)]
    · simp [hcl]

/-! ## The landing itself -/

/-- The core as it lands a result, with the locket of a landing from before the release (R320). -/
theorem Core.land_eq (c : Core) (now id : Nat) (v : ResVal) : ∃ k, c.land now id v = match v with
    | .scalar d _ => { c with locket := k, regs := c.regs.land v, sLand := vset c.sLand d (some now) }
    | .slices cl start en lines => ({ c with locket := k } : Core).writeSlices (c.before id) cl start en lines
    | _ => { c with locket := k, regs := c.regs.land v } := by
  unfold Core.land
  cases c.before id <;> cases v <;> exact ⟨_, rfl⟩

theorem Regs.land_pc_loops (r : Regs) (v : ResVal) : (r.land v).pc = r.pc ∧ (r.land v).loops = r.loops := by
  cases v with
  | scalar d x => by_cases h : d = 0 <;> simp [Regs.land, Regs.setS, h]
  | mask cl k x en => by_cases h : k = 0 <;> cases cl <;> simp [Regs.land, Regs.setMask, h]
  | _ => exact ⟨rfl, rfl⟩

/-- A landing changes the register or the slices that its value names, and of the rest the locket and one landing cycle. -/
theorem Core.land_keeps (c : Core) (now id : Nat) (v : ResVal) : c.LandKeeps (c.land now id v) := by
  obtain ⟨k, e⟩ := c.land_eq now id v
  rw [e]
  obtain ⟨hpc, hloops⟩ := c.regs.land_pc_loops v
  cases v with
  | slices cl start en lines =>
    obtain ⟨k', a, b, e'⟩ := ({ c with locket := k } : Core).writeSlices_eq (c.before id) cl start en lines
    dsimp only
    rw [e']
    exact ⟨⟨rfl, rfl, rfl⟩, rfl, rfl, rfl⟩
  | _ => exact ⟨⟨rfl, rfl, rfl⟩, rfl, hpc, hloops⟩

/-- The registers after a landing (R38). -/
theorem Core.land_regs (c : Core) (now id : Nat) (v : ResVal) : (c.land now id v).regs = c.regs.land v := by
  obtain ⟨k, e⟩ := c.land_eq now id v
  rw [e]
  cases v with
  | slices cl start en lines =>
    obtain ⟨k', a, b, e'⟩ := ({ c with locket := k } : Core).writeSlices_eq (c.before id) cl start en lines
    dsimp only
    rw [e']
    rfl
  | _ => rfl

/-- The slices after a landing (R23, R38). -/
theorem Core.land_slice (c : Core) (now id : Nat) (v : ResVal) (cl : Bool) (i : Nat) : (c.land now id v).slice cl i = match v with
    | .slices ecl start en lines =>
      if cl = ecl ∧ start ≤ i ∧ i < start + lines.length then mergeLine (c.slice cl i) (nth 0 lines (i - start)) en else c.slice cl i
    | _ => c.slice cl i := by
  obtain ⟨k, e⟩ := c.land_eq now id v
  rw [e]
  cases v with
  | slices ecl start en lines => exact Core.slice_writeSlices ..
  | _ => rfl

section Registers

variable (c : Core) (now id : Nat) (v : ResVal)

theorem Core.land_sreg (k : Nat) (h : k < 64) : (c.land now id v).sreg k = match v with
    | .scalar d x => if k = d ∧ k ≠ 0 then x else c.sreg k
    | _ => c.sreg k := by
  unfold Core.sreg
  rw [Core.land_regs]
  cases v with
  | scalar d x =>
    by_cases hk : k = 0
    · simp [hk]
    by_cases hd : k = d
    · subst hd
      simp [Regs.land, Regs.setS, hk, vget_vset_self _ _ _ _ h]
    · by_cases h0 : d = 0 <;> simp [Regs.land, Regs.setS, hk, hd, h0, vget_vset_of_ne]
  | mask cl j x en =>
    by_cases h0 : j = 0 <;> cases cl <;> simp [Regs.land, Regs.setMask, h0]
  | _ => rfl

theorem Core.land_cond (j : Nat) (h : j < 12) : (c.land now id v).cond j = match v with
    | .cond i x => if j = i then x else c.cond j
    | _ => c.cond j := by
  unfold Core.cond
  rw [Core.land_regs]
  cases v with
  | cond i x =>
    by_cases hi : j = i
    · subst hi
      simp [Regs.land, vget_vset_self _ _ _ _ h]
    · simp [Regs.land, hi, vget_vset_of_ne]
  | scalar d x => by_cases h0 : d = 0 <;> simp [Regs.land, Regs.setS, h0]
  | mask cl k x en => by_cases h0 : k = 0 <;> cases cl <;> simp [Regs.land, Regs.setMask, h0]
  | _ => rfl

theorem Core.land_target (j : Nat) (h : j < 12) : (c.land now id v).target j = match v with
    | .target i x => if j = i then x else c.target j
    | _ => c.target j := by
  unfold Core.target
  rw [Core.land_regs]
  cases v with
  | target i x =>
    by_cases hi : j = i
    · subst hi
      simp [Regs.land, vget_vset_self _ _ _ _ h]
    · simp [Regs.land, hi, vget_vset_of_ne]
  | scalar d x => by_cases h0 : d = 0 <;> simp [Regs.land, Regs.setS, h0]
  | mask cl k x en => by_cases h0 : k = 0 <;> cases cl <;> simp [Regs.land, Regs.setMask, h0]
  | _ => rfl

/-- A mask half with the lanes of `en` replaced (R26). -/
theorem getLsbD_merge_mask (old v en : LaneMask) (l : Nat) :
    (old &&& ~~~en ||| v &&& en).getLsbD l = if en.getLsbD l = true then v.getLsbD l else old.getLsbD l := by
  by_cases hl : l < 256
  · rw [BitVec.getLsbD_or, BitVec.getLsbD_and, BitVec.getLsbD_and, BitVec.getLsbD_not, decide_eq_true hl]
    cases en.getLsbD l <;> simp
  · simp [BitVec.getLsbD_of_ge _ _ (Nat.le_of_not_lt hl)]

theorem Core.land_mask (cl : Bool) (k l : Nat) (h : k < 16) : ((c.land now id v).mask cl k).getLsbD l = match v with
    | .mask ecl i x en =>
      if cl = ecl ∧ k = i ∧ k ≠ 0 ∧ en.getLsbD l = true then x.getLsbD l else (c.mask cl k).getLsbD l
    | _ => (c.mask cl k).getLsbD l := by
  by_cases hk : k = 0
  · subst hk
    cases v <;> simp [Core.mask]
  unfold Core.mask
  rw [if_neg hk, if_neg hk, Core.land_regs]
  cases v with
  | mask ecl i x en =>
    by_cases hi : k = i
    · subst hi
      cases cl <;> cases ecl <;>
        simp [Regs.land, Regs.setMask, hk, vget_vset_self _ _ _ _ h, getLsbD_merge_mask, -BitVec.getLsbD_or]
    · by_cases h0 : i = 0 <;> cases cl <;> cases ecl <;> simp [Regs.land, Regs.setMask, hi, h0, hk, vget_vset_of_ne]
  | scalar d x => by_cases h0 : d = 0 <;> simp [Regs.land, Regs.setS, h0]
  | _ => rfl

theorem Core.land_slice_lane (cl : Bool) (i l : Nat) (h : l < 256) :
    ((c.land now id v).slice cl i).toNat / 2 ^ (4 * l) % 16 = match v with
    | .slices ecl start en lines =>
      if cl = ecl ∧ start ≤ i ∧ i < start + lines.length ∧ en.getLsbD l = true then
        (nth 0 lines (i - start)).toNat / 2 ^ (4 * l) % 16
      else (c.slice cl i).toNat / 2 ^ (4 * l) % 16
    | _ => (c.slice cl i).toNat / 2 ^ (4 * l) % 16 := by
  rw [Core.land_slice]
  cases v with
  | slices ecl start en lines =>
    by_cases hin : cl = ecl ∧ start ≤ i ∧ i < start + lines.length
    · obtain ⟨h1, h2, h3⟩ := hin
      simp only [h1, h2, h3, and_self, if_true, true_and, mergeLine_lane _ _ en l h]
    · have hout : ¬ (cl = ecl ∧ start ≤ i ∧ i < start + lines.length ∧ en.getLsbD l = true) :=
        fun ⟨h1, h2, h3, _⟩ => hin ⟨h1, h2, h3⟩
      simp only [if_neg hin, if_neg hout]
  | _ => rfl

end Registers

/-! ## The event -/

theorem exec_resultLanding (n id : Nat) (s : State) : exec (.resultLanding n id) s = .next (s.landResult n id) := rfl

/-- A result whose cycle has not come stays recorded (R38). -/
theorem State.landResult_early (s : State) (n id : Nat) (r : Result) (hr : (s.core n).results.find? (fun x => x.id == id) = some r)
    (h : s.now < r.land) : s.landResult n id = s := by
  unfold State.landResult
  rw [hr]
  exact if_pos h

/-- A result whose cycle has come leaves the scoreboard and lands (R38). -/
theorem State.landResult_due (s : State) (n id : Nat) (r : Result) (hr : (s.core n).results.find? (fun x => x.id == id) = some r)
    (h : r.land ≤ s.now) : s.landResult n id =
      s.setCore n (({ s.core n with results := (s.core n).results.filter (fun x => x.id != id) } : Core).land s.now id r.val) := by
  unfold State.landResult
  rw [hr]
  exact if_neg (Nat.not_lt.mpr h)

/-- Writing one core leaves every other core and every shared memory. -/
theorem State.setCore_sameElsewhere (s : State) (n : Nat) (c : Core) : s.SameElsewhere (s.setCore n c) n :=
  ⟨fun m hm => s.core_setCore_of_ne n m c hm, fun _ => rfl, rfl, rfl⟩

/-- Settles O14: the landing of a result is `Core.land`, whose effect on each kind of location the lemmas above state. -/
theorem resultsLandOnTheirLocations : Obligations.ResultsLandOnTheirLocations := by
  intro s n id r hr
  refine ⟨fun h => by rw [exec_resultLanding, s.landResult_early n id r hr h], fun h => ?_⟩
  let c : Core := { s.core n with results := (s.core n).results.filter (fun x => x.id != id) }
  obtain ⟨hbuf, hres, hpc, hloops⟩ := c.land_keeps s.now id r.val
  refine ⟨s.setCore n (c.land s.now id r.val), by rw [exec_resultLanding, s.landResult_due n id r hr h], ?_⟩
  rw [State.core_setCore_self]
  exact ⟨s.setCore_sameElsewhere n _, hbuf, hres, hpc, hloops, fun k hk => c.land_sreg s.now id r.val k hk,
    fun j hj => c.land_cond s.now id r.val j hj, fun j hj => c.land_target s.now id r.val j hj,
    fun cl k l hk => c.land_mask s.now id r.val cl k l hk, fun cl i l hl => c.land_slice_lane s.now id r.val cl i l hl⟩

end Sys2Proof.Machine
end

section
/-! PROOFS. What an event or an access leaves alone on its own core and elsewhere. -/

open Sys2Proof Sys2Proof.Machine

namespace Sys2Proof.Machine

theorem Core.SameBuffers.refl (c : Core) : c.SameBuffers c := ⟨rfl, rfl, rfl⟩

theorem Core.SameBuffers.trans {c d e : Core} (h : c.SameBuffers d) (k : d.SameBuffers e) : c.SameBuffers e :=
  ⟨k.1.trans h.1, k.2.1.trans h.2.1, k.2.2.trans h.2.2⟩

theorem State.SameElsewhere.refl (s : State) (n : Nat) : s.SameElsewhere s n := ⟨fun _ _ => rfl, fun _ => rfl, rfl, rfl⟩

theorem State.SameElsewhere.trans {s t u : State} {n : Nat} (h : s.SameElsewhere t n) (k : t.SameElsewhere u n) : s.SameElsewhere u n := by
  obtain ⟨hc, hd, hm, hh⟩ := h
  obtain ⟨kc, kd, km, kh⟩ := k
  exact ⟨fun m hn => (kc m hn).trans (hc m hn), fun d => (kd d).trans (hd d), km.trans hm, kh.trans hh⟩

/-- t is s but for core n, which keeps its registers and its typed buffers. -/
structure State.CoreKeeps (s t : State) (n : Nat) : Prop where
  regs : (s.core n).SameRegisters (t.core n)
  buffers : (s.core n).SameBuffers (t.core n)
  elsewhere : s.SameElsewhere t n

theorem State.CoreKeeps.frame {s t : State} {n : Nat} (h : s.CoreKeeps t n) :
    (s.core n).SameRegisters (t.core n) ∧ (s.core n).SameBuffers (t.core n) ∧ s.SameElsewhere t n := ⟨h.regs, h.buffers, h.elsewhere⟩

theorem State.CoreKeeps.refl (s : State) (n : Nat) : s.CoreKeeps s n := ⟨.refl _, .refl _, .refl s n⟩

theorem State.CoreKeeps.trans {s t u : State} {n : Nat} (h : s.CoreKeeps t n) (k : t.CoreKeeps u n) : s.CoreKeeps u n :=
  ⟨h.regs.trans k.regs, h.buffers.trans k.buffers, h.elsewhere.trans k.elsewhere⟩

theorem State.setCore_coreKeeps (s : State) (n : Nat) (c : Core) (hr : (s.core n).SameRegisters c) (hb : (s.core n).SameBuffers c) :
    s.CoreKeeps (s.setCore n c) n := by
  refine ⟨?_, ?_, s.setCore_sameElsewhere n c⟩ <;> rwa [State.core_setCore_self]

@[simp] theorem State.draw_core (s : State) (n : Nat) : s.draw.2.core n = s.core n := by
  unfold State.core
  rw [State.draw_cores]

@[simp] theorem State.draw_die (s : State) (d : Nat) : s.draw.2.die d = s.die d := by
  unfold State.die
  rw [State.draw_dies]

theorem State.draw_coreKeeps (s : State) (n : Nat) : s.CoreKeeps s.draw.2 n := by
  refine ⟨?_, ?_, fun m _ => s.draw_core m, fun d => ?_, s.draw_mem, s.draw_host⟩
  · rw [State.draw_core]
    exact .refl _
  · rw [State.draw_core]
    exact .refl _
  · rw [State.draw_die]

end Sys2Proof.Machine
end

section
/-! PROOFS. The windows of the address map (R206), and the address checks of an access by the window of its pieces (R208 to R210, R231). -/

open Sys2Proof Sys2Proof.Machine

namespace Sys2Proof.Machine

/-! ## Windows -/

/-- Bytes of a window (R206). -/
def Win.len (present : Nat) : Win → Nat
  | .global => 2 ^ 52
  | .a | .c => 0x80000
  | .w => 0x100000
  | .commons => 262144 * present
  | .copyAp => 0x10000
  | .bankAp | .csr => 0x8000

/-- Core n sees the bytes from a on in the window. -/
def State.Holds (s : State) (n : Nat) (v : Win) (a len : Nat) : Prop :=
  v.base ≤ a ∧ a + len ≤ v.base + v.len (s.die (dieOf n)).hallmark.npresent

section Cases

variable (s : State) (n a k : Nat)

theorem State.holds_global : s.Holds n .global a k ↔ a + k ≤ 2 ^ 52 := by
  rw [State.Holds, Win.base, Win.len, Nat.zero_add, and_iff_right (Nat.zero_le a)]
theorem State.holds_copyAp : s.Holds n .copyAp a k ↔ copyBase ≤ a ∧ a + k ≤ copyBase + 0x10000 := Iff.rfl
theorem State.holds_bankAp : s.Holds n .bankAp a k ↔ bankBase ≤ a ∧ a + k ≤ bankBase + 0x8000 := Iff.rfl
theorem State.holds_csr : s.Holds n .csr a k ↔ csrBase ≤ a ∧ a + k ≤ csrBase + 0x8000 := Iff.rfl

end Cases

/-- The window of an address holds its byte. -/
theorem State.holds_of_win {s : State} {n a : Nat} {v : Win} (h : s.win n a = some v) : s.Holds n v a 1 := by
  unfold State.win winOf at h
  split_ifs at h with g g g g g g g g <;> obtain rfl := Option.some.inj h
  · exact (s.holds_global n a 1).mpr g
  all_goals exact g

/-- A byte of a window has that window: windows do not overlap (R206). -/
theorem State.win_of_holds {s : State} {n a : Nat} {v : Win} (h : s.Holds n v a 1) : s.win n a = some v := by
  have hp := (s.die (dieOf n)).hallmark.npresent_le
  obtain ⟨hb1, hb2, hb3, hb4, hb5, hb6, hb7⟩ := window_bases
  cases v with
  | global =>
    rw [State.holds_global] at h
    exact if_pos h
  | a => exact winOf_buf _ .a a h.1 h.2
  | c => exact winOf_buf _ .c a h.1 h.2
  | w => exact winOf_buf _ .w a h.1 h.2
  | commons => exact winOf_commons _ a h.1 h.2
  | copyAp =>
    obtain ⟨h1, h2⟩ := (s.holds_copyAp n a 1).mp h
    rw [State.win, winOf_from_commons _ _ (by omega), if_neg (by omega), if_pos ⟨h1, h2⟩]
  | bankAp =>
    obtain ⟨h1, h2⟩ := (s.holds_bankAp n a 1).mp h
    rw [State.win, winOf_from_commons _ _ (by omega), if_neg (by omega), if_neg (by omega), if_pos ⟨h1, h2⟩]
  | csr =>
    obtain ⟨h1, h2⟩ := (s.holds_csr n a 1).mp h
    rw [State.win, winOf_from_commons _ _ (by omega), if_neg (by omega), if_neg (by omega), if_neg (by omega), if_pos ⟨h1, h2⟩]

theorem State.win_eq_some_iff (s : State) (n a : Nat) (v : Win) : s.win n a = some v ↔ s.Holds n v a 1 :=
  ⟨State.holds_of_win, State.win_of_holds⟩

theorem State.win_eq_none_iff (s : State) (n a : Nat) : s.win n a = none ↔ ∀ v, ¬ s.Holds n v a 1 := by
  simp only [← State.win_eq_some_iff, Option.eq_none_iff_forall_ne_some, ne_eq]

theorem State.Holds.mono {s : State} {n : Nat} {v : Win} {a b k l : Nat} (h : s.Holds n v a k) (h1 : a ≤ b) (h2 : b + l ≤ a + k) :
    s.Holds n v b l := by
  obtain ⟨ha, hk⟩ := h
  exact ⟨ha.trans h1, h2.trans hk⟩

/-- Every window ends below 2^63. -/
theorem Win.base_add_len_le (v : Win) (present : Nat) (hp : present ≤ 160) : v.base + v.len present ≤ 2 ^ 63 := by
  obtain ⟨ha, hc, hw, hb, h1, h2, h3⟩ := window_bases
  cases v <;> rw [Win.base, Win.len] <;> omega

theorem State.Holds.lt {s : State} {n : Nat} {v : Win} {a k : Nat} (h : s.Holds n v a k) : a + k ≤ 2 ^ 63 :=
  h.2.trans (v.base_add_len_le _ (Hallmark.npresent_le _))

/-- A piece lies in a window when its first and its last byte do (R209). -/
theorem State.holds_piece_iff (s : State) (n : Nat) (v : Win) (x : Piece) (h0 : 0 < x.len) (h1 : x.len ≤ 2 ^ 62) :
    s.Holds n v x.addr x.len ↔ s.win n x.addr = some v ∧ s.win n x.last = some v := by
  simp only [State.win_eq_some_iff]
  constructor
  · intro h
    have hlt := h.lt
    have e : x.last = x.addr + x.len - 1 := Nat.mod_eq_of_lt (by omega)
    rw [e]
    exact ⟨h.mono (Nat.le_refl _) (by omega), h.mono (by omega) (by omega)⟩
  · rintro ⟨h, hlast⟩
    have hlt := h.lt
    have e : x.last = x.addr + x.len - 1 := Nat.mod_eq_of_lt (by omega)
    rw [e] at hlast
    obtain ⟨ha, -⟩ := h
    obtain ⟨-, hb⟩ := hlast
    exact ⟨ha, by omega⟩

/-! ## The checks of one group of pieces (R209, R210) -/

/-- A piece has at least one byte, and fewer than any window's span. -/
def Piece.Sized (x : Piece) : Prop := 0 < x.len ∧ x.len ≤ 2 ^ 62

section Group

variable {s : State} {n : Nat} {p : Plan} {x : Piece} {r : List Piece} {v : Win}

/-- A first byte that no window holds. -/
theorem State.groupSub_unmapped (h : ∀ u, ¬ s.Holds n u x.addr 1) : s.groupSub n p (x :: r) = 1 := by
  unfold State.groupSub
  simp only [List.head?_cons, Option.map_some, Option.getD_some, (s.win_eq_none_iff n x.addr).mpr h]

/-- Bytes outside the window of the first one. -/
theorem State.groupSub_straddles (h : s.Holds n v x.addr 1) (hs : ∀ y ∈ x :: r, y.Sized)
    (hy : ∃ y ∈ x :: r, ¬ s.Holds n v y.addr y.len) : s.groupSub n p (x :: r) = 2 := by
  have hany : (x :: r).any (fun y => s.win n y.addr != some v || s.win n y.last != some v) = true := by
    obtain ⟨y, hm, hn⟩ := hy
    rw [s.holds_piece_iff n v y (hs y hm).1 (hs y hm).2, not_and_or] at hn
    refine List.any_eq_true.mpr ⟨y, hm, ?_⟩
    rcases hn with hn | hn <;> simp [hn]
  unfold State.groupSub
  simp only [List.head?_cons, Option.map_some, Option.getD_some, (s.win_eq_some_iff n x.addr v).mpr h]
  rw [if_pos hany]

/-- A group that lies whole in one window passes the first two checks. -/
theorem State.group_within (hs : ∀ y ∈ x :: r, y.Sized) (hw : ∀ y ∈ x :: r, s.Holds n v y.addr y.len) :
    s.win n x.addr = some v ∧ ¬ (x :: r).any (fun y => s.win n y.addr != some v || s.win n y.last != some v) = true := by
  have hwin : ∀ y ∈ x :: r, s.win n y.addr = some v ∧ s.win n y.last = some v := fun y hy =>
    (s.holds_piece_iff n v y (hs y hy).1 (hs y hy).2).mp (hw y hy)
  refine ⟨(hwin x List.mem_cons_self).1, ?_⟩
  simp only [List.any_eq_true, not_exists, not_and]
  exact fun y hy => by simp [hwin y hy]

variable (hs : ∀ y ∈ x :: r, y.Sized) (hw : ∀ y ∈ x :: r, s.Holds n v y.addr y.len)
include hs hw

/-- An atomic outside global memory (R225). -/
theorem State.groupSub_atomic_of_ne (hc : p.cls = .atomic) (hg : v ≠ .global) : s.groupSub n p (x :: r) = 6 := by
  obtain ⟨h1, h2⟩ := State.group_within hs hw
  unfold State.groupSub
  rw [show ((x :: r).head?.map (fun x => x.addr)).getD 0 = x.addr from rfl]
  simp only [h1]
  rw [if_neg h2]
  simp [hc, hg]

/-- An atomic in global memory is aligned to its size (R225). -/
theorem State.groupSub_atomic_global (hc : p.cls = .atomic) (hg : v = .global) :
    s.groupSub n p (x :: r) = if x.addr % p.size = 0 then 0 else 4 := by
  obtain ⟨h1, h2⟩ := State.group_within hs hw
  unfold State.groupSub
  rw [show ((x :: r).head?.map (fun x => x.addr)).getD 0 = x.addr from rfl]
  simp only [h1]
  rw [if_neg h2]
  simp [hc, hg]

/-- The sub-cause with which a window refuses accesses that are not made for it: apertures, and the control and status window. -/
def Win.sub : Win → Nat
  | .copyAp | .bankAp => 3
  | .csr => 5
  | _ => 0

/-- TXINIT and TXARV outside the A buffer (R208). -/
theorem State.groupSub_tx_of_ne {init : Bool} (hc : p.cls = .tx init) (ha : v ≠ .a) : s.groupSub n p (x :: r) = max 3 v.sub := by
  obtain ⟨h1, h2⟩ := State.group_within hs hw
  unfold State.groupSub
  rw [show ((x :: r).head?.map (fun x => x.addr)).getD 0 = x.addr from rfl]
  simp only [h1]
  rw [if_neg h2]
  cases v <;> cases init <;> simp [hc, Win.sub] at ha ⊢

/-- TXINIT and TXARV in the A buffer: alignment, then the value (R231). -/
theorem State.groupSub_tx_a {init : Bool} (hc : p.cls = .tx init) (ha : v = .a) : s.groupSub n p (x :: r) =
    if x.addr % 16 ≠ 0 then 4 else if (s.core n).txValueBad init x.addr p.value then 8 else 0 := by
  obtain ⟨h1, h2⟩ := State.group_within hs hw
  unfold State.groupSub
  rw [show ((x :: r).head?.map (fun x => x.addr)).getD 0 = x.addr from rfl]
  simp only [h1]
  rw [if_neg h2]
  simp [hc, ha]

/-- A vector access in a window other than the commons (R208). -/
theorem State.groupSub_vector (hc : p.cls = .vload ∨ p.cls = .vstore) (hn : v ≠ .commons) : s.groupSub n p (x :: r) = v.sub := by
  obtain ⟨h1, h2⟩ := State.group_within hs hw
  unfold State.groupSub
  rw [show ((x :: r).head?.map (fun x => x.addr)).getD 0 = x.addr from rfl]
  simp only [h1]
  rw [if_neg h2]
  rcases hc with hc | hc <;> cases v <;> simp [hc, Win.sub] at hn ⊢

/-- A scalar access in memory or in a typed buffer passes (R208). -/
theorem State.groupSub_scalar_memory (hc : p.cls = .sload ∨ p.cls = .sstore) (hm : v = .global ∨ v = .a ∨ v = .c ∨ v = .w) :
    s.groupSub n p (x :: r) = 0 := by
  obtain ⟨h1, h2⟩ := State.group_within hs hw
  unfold State.groupSub
  rw [show ((x :: r).head?.map (fun x => x.addr)).getD 0 = x.addr from rfl]
  simp only [h1]
  rw [if_neg h2]
  rcases hc with hc | hc <;> rcases hm with rfl | rfl | rfl | rfl <;> simp [hc]

/-- A scalar access of the control and status window (R28, R208). -/
theorem State.groupSub_scalar_csr (hc : p.cls = .sload ∨ p.cls = .sstore) (hw' : v = .csr) :
    s.groupSub n p (x :: r) = if p.size = 8 ∧ x.addr % 8 = 0 ∧ (s.csrRead n ((x.addr - csrBase) / 8)).isSome = true ∧
      (p.cls = .sload ∨ (x.addr - csrBase) / 8 = 1) then 0 else 5 := by
  obtain ⟨h1, h2⟩ := State.group_within hs hw
  unfold State.groupSub
  rw [show ((x :: r).head?.map (fun x => x.addr)).getD 0 = x.addr from rfl]
  simp only [h1]
  rw [if_neg h2]
  rcases hc with hc | hc <;> cases s.csrRead n ((x.addr - csrBase) / 8) <;> simp [hc, hw'] <;> grind

/-- A scalar access of an aperture that is not an aligned one of eight bytes (R208, R226). -/
theorem State.groupSub_scalar_aperture (hc : p.cls = .sload ∨ p.cls = .sstore) (hw' : v = .copyAp ∨ v = .bankAp)
    (hb : p.size ≠ 8 ∨ x.addr % 0x1000 ≠ 0) : s.groupSub n p (x :: r) = 3 := by
  obtain ⟨h1, h2⟩ := State.group_within hs hw
  obtain ⟨ha, -⟩ := hw x List.mem_cons_self
  have hal : ∀ base, base % 0x1000 = 0 → base ≤ x.addr → p.size = 8 →
      decide ((x.addr - base) % 0x1000 = 0) = false := fun base h0 hle h8 => by
    have := hb.resolve_left (not_not_intro h8)
    exact decide_eq_false (by omega)
  unfold State.groupSub
  rw [show ((x :: r).head?.map (fun x => x.addr)).getD 0 = x.addr from rfl]
  simp only [h1]
  rw [if_neg h2]
  rcases hw' with rfl | rfl
  · have := hal copyBase rfl ha
    rcases hc with hc | hc <;> simpa [hc] using this
  · have := hal bankBase rfl ha
    rcases hc with hc | hc <;> simpa [hc] using this

/-- A scalar access of the commons outside the regions of its core (R208, R260). -/
theorem State.groupSub_scalar_commons (hc : p.cls = .sload ∨ p.cls = .sstore) (hw' : v = .commons)
    (hr : s.regionAt n (x.addr - commonsBase) = none) : s.groupSub n p (x :: r) = 3 := by
  obtain ⟨h1, h2⟩ := State.group_within hs hw
  unfold State.groupSub
  rw [show ((x :: r).head?.map (fun x => x.addr)).getD 0 = x.addr from rfl]
  simp only [h1]
  rw [if_neg h2]
  rcases hc with hc | hc <;> simp [hc, hw', hr]

end Group

end Sys2Proof.Machine
end

section
/-! PROOFS. The loads of the load/store slot: their plans, their checks, and what a long-pending one does at issue (R41, R207 to R212, R312). -/

open Sys2Proof Sys2Proof.Machine

namespace Sys2Proof.Machine

/-! ## The first group that fails a check (R210) -/

theorem State.planFault_of_first {s : State} {n : Nat} {p : Plan} {gs hs : List (List Piece)} {x : Piece} {r : List Piece} {sub : Nat}
    (hc : p.cls ≠ .pref) (hg : p.groups = gs ++ (x :: r) :: hs) (h0 : ∀ g ∈ gs, s.groupSub n p g = 0)
    (hsub : s.groupSub n p (x :: r) = sub) (hne : sub ≠ 0) :
    s.planFault n p = some (sub, if p.cls == .vload || p.cls == .vstore then x.lane else 0, x.addr) := by
  have hpre : gs.findSome? (fun g => if s.groupSub n p g = 0 then none
      else some (s.groupSub n p g, if p.cls == .vload || p.cls == .vstore then (g.head?.getD ⟨0, 0, 0, 0, 0⟩).lane else 0,
        (g.head?.getD ⟨0, 0, 0, 0, 0⟩).addr)) = none :=
    List.findSome?_eq_none_iff.mpr fun g hg => if_pos (h0 g hg)
  unfold State.planFault
  rw [if_neg (by simpa using hc), hg, List.findSome?_append]
  simp only
  rw [hpre, Option.none_or, List.findSome?_cons]
  simp [hsub, hne]

/-- An instruction of the load/store slot that meets no condition but its address. -/
structure LsInstr (i : Instr) : Prop where
  slot : slotOf i = some .ls
  uniform : ∀ c : Core, c.nonUniform i = none
  exec : ∀ s : State, ∃ eff, exec i s = slotExec i s eff

/-- The address fault of a well-formed instruction whose units serve (R210). -/
theorem LsInstr.exec_of_planFault {i : Instr} (h : LsInstr i) {s : State} {p : Plan} {sub lane a : Nat} (hw : WellFormed i) (hs : s.Serves i)
    (hp : (s.core s.cur).plan i = some p) (hf : s.planFault s.cur p = some (sub, lane, a)) :
    Machine.exec i s =
      .next (s.takeTrap s.cur ⟨7, 0x40, sub + lane * 2 ^ 8, BitVec.ofNat 64 a, (s.core s.cur).regs.pc.toNat⟩) := by
  obtain ⟨eff, e⟩ := h.exec s
  have hc : s.controlFault s.cur i = none := by
    unfold State.controlFault
    rw [h.slot]
  rw [e]
  refine slotExec_of_fault s i eff _ ?_
  have hserve : s.outOfService s.cur i = none := hs
  have hform : instrReasons i = Reasons.none := hw
  simp only [State.faultOf, State.illegalFault, h.slot, hform, if_pos, State.serviceFault, hserve, hc, State.uniformFault, h.uniform,
    State.addressFault, hp, hf, Option.map_some, Option.map_none]
  rfl

/-! ## The plans of loads -/

theorem contiguousPiece_sized (ea l v : Nat) (o : SliceOp) : (contiguousPiece ea (o.wm1.toNat + 1) l v).Sized := by
  have := o.wm1.isLt
  simp only [Piece.Sized, contiguousPiece]
  omega

theorem lanePiece_sized (a l v : Nat) (o : SliceOp) : (lanePiece a (o.wm1.toNat + 1) l v).Sized := by
  have := o.wm1.isLt
  simp only [Piece.Sized, lanePiece]
  omega

theorem size_le (sz : BitVec 2) : 2 ^ sz.toNat ≤ 8 :=
  Nat.pow_le_pow_right (by decide) (Nat.le_of_lt_succ sz.isLt)

theorem scalarPiece_sized (lane a v m : Nat) (sz : BitVec 2) : (⟨lane, a, 2 ^ sz.toNat, v, m⟩ : Piece).Sized :=
  ⟨Nat.two_pow_pos _, (size_le sz).trans (by decide)⟩

/-- A broadcast reads for its first enabled lane alone (R222). -/
theorem LoadDest.pieces_broadcast (cl : Bool) (start w : Nat) (en : LaneMask) (a : Nat) :
    (LoadDest.broadcast cl start w en a).pieces = ((enabled en).take 1).map (fun l => lanePiece a w l 0) := by
  unfold LoadDest.pieces
  dsimp only
  cases enabled en <;> rfl

/-- A load of a mask half reads 32 bytes for its first enabled lane (R223). -/
theorem LoadDest.pieces_maskHalf (cl : Bool) (k : Nat) (en : LaneMask) (a : Nat) :
    (LoadDest.maskHalf cl k en a).pieces = ((enabled en).take 1).map (fun l => ⟨l, a, 32, 0, 0⟩) := by
  unfold LoadDest.pieces
  dsimp only
  cases enabled en <;> rfl

/-- The loads of the load/store slot (R211, R218 to R223). -/
def LoadInstr (i : Instr) : Prop :=
  (∃ b d sz sgn off, i = .lds b d sz sgn off) ∨ (∃ b k off cl d, i = .ldv b k off cl d ∨ i = .ldvb b k off cl d) ∨
    (∃ b g k off cl d, i = .ldvs b g k off cl d) ∨ (∃ b k x cl d, i = .ldvx b k x cl d) ∨ (∃ b k off cl m, i = .ldk b k off cl m)

/-- What all loads share: their slot, their meaning, and that they raise no condition of their own. -/
theorem LoadInstr.exec_eq {i : Instr} (h : LoadInstr i) (s : State) :
    slotOf i = some .ls ∧ exec i s = slotExec i s (fun s => s.lsLoad s.cur i) ∧ ∀ c : Core, c.nonUniform i = none := by
  rcases h with ⟨b, d, sz, sgn, off, rfl⟩ | ⟨b, k, off, cl, d, rfl | rfl⟩ | ⟨b, g, k, off, cl, d, rfl⟩ | ⟨b, k, x, cl, d, rfl⟩ |
    ⟨b, k, off, cl, m, rfl⟩ <;> exact ⟨rfl, rfl, fun _ => rfl⟩

/-- A plan of a load. -/
structure Plan.IsLoad (p : Plan) : Prop where
  cls : p.cls = .sload ∨ p.cls = .vload
  sized : ∀ x ∈ p.pieces, x.Sized

theorem LoadInstr.isLoad {i : Instr} (h : LoadInstr i) (c : Core) (p : Plan) (hp : c.plan i = some p) : p.IsLoad := by
  rcases h with ⟨b, d, sz, sgn, off, rfl⟩ | ⟨b, k, off, cl, d, rfl | rfl⟩ | ⟨b, g, k, off, cl, d, rfl⟩ | ⟨b, k, x, cl, d, rfl⟩ |
    ⟨b, k, off, cl, m, rfl⟩ <;> obtain rfl := Option.some.inj hp
  · exact ⟨.inl rfl, List.forall_mem_singleton.mpr (scalarPiece_sized ..)⟩
  · exact ⟨.inr rfl, List.forall_mem_map.mpr fun _ _ => contiguousPiece_sized ..⟩
  · refine ⟨.inr rfl, ?_⟩
    rw [loadPlan, LoadDest.pieces_broadcast]
    exact List.forall_mem_map.mpr fun _ _ => lanePiece_sized ..
  · exact ⟨.inr rfl, List.forall_mem_map.mpr fun _ _ => lanePiece_sized ..⟩
  · exact ⟨.inr rfl, List.forall_mem_map.mpr fun _ _ => lanePiece_sized ..⟩
  · refine ⟨.inr rfl, ?_⟩
    rw [loadPlan, LoadDest.pieces_maskHalf]
    exact List.forall_mem_map.mpr fun _ _ => ⟨Nat.succ_pos 31, show 32 ≤ 2 ^ 62 by decide⟩

/-- A well-formed load whose units serve and whose address is good takes its effect. -/
theorem LoadInstr.exec_of_clear {i : Instr} (h : LoadInstr i) (s : State) (hw : WellFormed i) (hs : s.Serves i)
    (ha : s.addressFault s.cur i = none) : exec i s = .next (s.lsLoad s.cur i) := by
  obtain ⟨hsl, he, hu⟩ := h.exec_eq s
  rw [he]
  exact slotExec_of_clear s i _ (faultOf_of_checks s s.cur i .ls hsl (by decide) hw hs (hu _) ha)

/-- A load of global memory raises no address fault. -/
theorem State.addressFault_of_global (s : State) (n : Nat) (i : Instr) (p : Plan) (hp : (s.core n).plan i = some p) (hl : p.IsLoad)
    (hg : ∀ x ∈ p.pieces, x.addr + x.len ≤ 2 ^ 52) : s.addressFault n i = none := by
  refine s.addressFault_of_groups n i p hp fun g hgr => ?_
  obtain ⟨hne, hmem⟩ := Plan.mem_groups hgr
  obtain ⟨x, r, rfl⟩ := List.exists_cons_of_ne_nil hne
  have hs : ∀ y ∈ x :: r, y.Sized := fun y hy => hl.sized y (hmem y hy)
  have hw : ∀ y ∈ x :: r, s.Holds n .global y.addr y.len := fun y hy => (s.holds_global n _ _).mpr (hg y (hmem y hy))
  rcases hl.cls with hc | hc
  · exact State.groupSub_scalar_memory hs hw (.inl hc) (.inl rfl)
  · exact State.groupSub_vector hs hw (.inl hc) (by decide)

/-! ## The beginning of an access and its translation -/

/-- With no job of its die, an access begins with its reservation alone (R216, R249). -/
theorem State.lsBegin_of_no_jobs (s : State) (n : Nat) (p : Plan) (h : (s.die (dieOf n)).jobs = []) :
    s.lsBegin n p = s.updCore n (fun c => c.reserve s.now .issue (p.banks.map (fun b => (b.1, b.2, 0)))) := by
  have hr : s.race n p = s := by
    unfold State.race
    rw [h]
    exact ite_self _
  rw [State.lsBegin, hr]

/-- t is s but for the TLB of core n. -/
structure State.TlbFilled (s t : State) (n : Nat) : Prop where
  core : ∃ b, t.core n = { s.core n with tlb := b }
  elsewhere : s.SameElsewhere t n

theorem State.TlbFilled.refl (s : State) (n : Nat) : s.TlbFilled s n := ⟨⟨_, rfl⟩, .refl s n⟩

theorem State.TlbFilled.trans {s t u : State} {n : Nat} (h : s.TlbFilled t n) (k : t.TlbFilled u n) : s.TlbFilled u n := by
  obtain ⟨b, hb⟩ := h.core
  obtain ⟨c, hc⟩ := k.core
  exact ⟨⟨c, by rw [hc, hb]⟩, h.elsewhere.trans k.elsewhere⟩

theorem State.tlbLookup_filled (s : State) (n vf v : Nat) : s.TlbFilled (s.tlbLookup n vf v).2 n := by
  unfold State.tlbLookup
  split
  · exact .refl s n
  · split
    · exact ⟨⟨_, State.core_updCore_self ..⟩, s.setCore_sameElsewhere n _⟩
    · exact .refl s n

/-- The beginning of a translation fills the core's TLB from its die's, and changes nothing else (R311, R312). -/
theorem State.beginTrans_filled (s : State) (n vf : Nat) (k : AccessKind) (as : List Nat) : s.TlbFilled (s.beginTrans n vf k as).2 n := by
  unfold State.beginTrans
  generalize (⟨s.now, [], [], []⟩ : Trans) = t
  induction distinct (as.map vpn) generalizing s t with
  | nil => exact .refl s n
  | cons v r ih =>
    rw [List.foldl_cons]
    have hstep := s.tlbLookup_filled n vf v
    dsimp only
    rcases hl : s.tlbLookup n vf v with ⟨_ | p, u⟩ <;> rw [hl] at hstep
    · exact hstep.trans (ih u _)
    · exact hstep.trans (ih u _)

/-! ## Long-pending loads -/

theorem loadParts_got (as : List Nat) (due : Nat) : ∀ q ∈ loadParts as due, q.got = false :=
  List.forall_mem_map.mpr fun _ _ => rfl

theorem State.TlbFilled.draw {s t : State} {n : Nat} (h : s.TlbFilled t n) : s.TlbFilled t.draw.2 n := by
  obtain ⟨b, hb⟩ := h.core
  exact ⟨⟨b, (t.draw_core n).trans hb⟩, h.elsewhere.trans (t.draw_coreKeeps n).elsewhere⟩

/-- A long-pending access enters the list of its core (R41). -/
def Core.addLoad (c : Core) (l : Load) : Core := { c with nextId := c.nextId + 1, loads := c.loads ++ [l] }

/-- A long-pending load at issue: one access more on its core, its destination still to land (R41). -/
theorem State.longLoad_eq (s : State) (n : Nat) (p : Plan) (d : LoadDest) : ∃ (l : Load) (t : State), l.kind = .load ∧ l.dest = d ∧
    l.locs = d.locs ∧ l.land = none ∧ l.err = false ∧ (∀ q ∈ l.parts, q.got = false) ∧ s.TlbFilled t n ∧
    s.longLoad n p d = t.setCore n ((t.core n).addLoad l) :=
  let t := (s.beginTrans n (s.vfOf n) .load p.globalAddrs).2.draw.2
  ⟨⟨(t.core n).nextId, .load, (t.core n).regs.pc.toNat, 6, d.locs, d, loadParts p.globalAddrs _, _, _, none, false, none⟩, t,
    rfl, rfl, rfl, rfl, rfl, loadParts_got _ _, (s.beginTrans_filled n _ _ _).draw, rfl⟩

theorem State.longLoad_spec (s : State) (n : Nat) (p : Plan) (d : LoadDest) :
    ∃ l, ((s.longLoad n p d).core n).loads = (s.core n).loads ++ [l] ∧ l.kind = .load ∧ l.dest = d ∧ l.locs = d.locs ∧ l.land = none ∧
      l.err = false ∧ (∀ q ∈ l.parts, q.got = false) ∧ ((s.longLoad n p d).core n).results = (s.core n).results ∧
      s.CoreKeeps (s.longLoad n p d) n := by
  obtain ⟨l, t, h1, h2, h3, h4, h5, h6, ⟨⟨b, hb⟩, hel⟩, e⟩ := s.longLoad_eq n p d
  have hc : (s.longLoad n p d).core n = ({ s.core n with tlb := b } : Core).addLoad l := by rw [e, State.core_setCore_self, hb]
  refine ⟨l, by rw [hc]; rfl, h1, h2, h3, h4, h5, h6, by rw [hc]; rfl, ?_, ?_, ?_⟩
  · rw [hc]
    simp [Core.SameRegisters, Core.addLoad]
  · rw [hc]
    exact ⟨rfl, rfl, rfl⟩
  · rw [e]
    exact hel.trans (t.setCore_sameElsewhere n _)

/-- A load with a piece in global memory has no fixed latency (R41). -/
theorem State.planLat_of_global (s : State) (n : Nat) (p : Plan) (hl : p.IsLoad) (hne : p.pieces ≠ [])
    (hg : ∀ x ∈ p.pieces, x.addr + x.len ≤ 2 ^ 52) : s.planLat n p = none := by
  have hglob : p.global = true := by
    obtain ⟨x, hx⟩ := List.exists_mem_of_ne_nil _ hne
    have := hg x hx
    have := (hl.sized x hx).1
    have hc : (p.cls != .pref) = true := by rcases hl.cls with h | h <;> rw [h] <;> rfl
    rw [Plan.global, hc, Bool.true_and]
    exact List.any_eq_true.mpr ⟨x, hx, decide_eq_true (by omega)⟩
  rw [State.planLat, if_pos hglob]

/-- Settles O38: the checks pass in global memory, the access begins with its reservation, and `State.longLoad_spec` says the rest. -/
theorem globalLoadsAreLongPending : Obligations.GlobalLoadsAreLongPending := by
  intro s i p dst c hi hp hd hne hg hw hs hj
  have hi : LoadInstr i := hi
  have hl := hi.isLoad c p hp
  obtain ⟨l, h1, h2, h3, h4, h5, h6, h7, h8, hk⟩ := (s.lsBegin s.cur p).longLoad_spec s.cur p dst
  have hz : s.lsLoad s.cur i = (s.lsBegin s.cur p).longLoad s.cur p dst := by
    unfold State.lsLoad
    simp only [show (s.core s.cur).plan i = some p from hp, hd, State.planLat_of_global _ _ p hl hne hg]
  refine ⟨_, l, hi.exec_of_clear s hw hs (s.addressFault_of_global s.cur i p hp hl hg), ?_⟩
  rw [hz]
  rw [s.lsBegin_of_no_jobs s.cur p hj] at h1 h8 hk ⊢
  rw [State.core_updCore_self] at h1 h8
  have hb : s.CoreKeeps (s.updCore s.cur (fun c => c.reserve s.now .issue (p.banks.map (fun b => (b.1, b.2, 0))))) s.cur :=
    s.setCore_coreKeeps s.cur _ (by simp [Core.SameRegisters, Core.reserve]) ⟨rfl, rfl, rfl⟩
  obtain ⟨hr, hbuf, he⟩ := hb.trans hk
  exact ⟨h1, h2, h3, h4, h5, h6, h7, h8, hr, hbuf, he⟩

end Sys2Proof.Machine
end

section
/-! PROOFS. Reads and writes of the control and status registers (R27 to R37, R134, R211, R212). -/

open Sys2Proof Sys2Proof.Machine

namespace Sys2Proof.Machine

/-! ## CSRR and CSRW -/

theorem State.scalarSet_cur (s : State) (slot lat : Nat) (d : BitVec 6) (v : Word) : (s.scalarSet slot lat d v).cur = s.cur := by
  unfold State.scalarSet
  split <;> rfl

/-- What recording a scalar does to its core, and that it does nothing else (R24, R38). -/
theorem State.scalarSet_core (s : State) (slot lat : Nat) (d : BitVec 6) (v : Word) :
    ((s.scalarSet slot lat d v).core s.cur).regs = (s.core s.cur).regs ∧ ((s.scalarSet slot lat d v).core s.cur).csrw = (s.core s.cur).csrw ∧
      ((s.scalarSet slot lat d v).core s.cur).results = (s.core s.cur).results ++ (if d = 0 then [] else
        [⟨(s.core s.cur).nextId, (s.core s.cur).regs.pc.toNat, slot, [⟨.scalar, d.toNat, 1⟩], s.now + lat, .scalar d.toNat v⟩]) ∧
      s.CoreKeeps (s.scalarSet slot lat d v) s.cur := by
  unfold State.scalarSet
  split
  · exact ⟨rfl, rfl, (List.append_nil _).symm, .refl s s.cur⟩
  · rw [State.recorded, State.core_updCore_self]
    refine ⟨rfl, rfl, rfl, s.setCore_coreKeeps s.cur _ ?_ ⟨rfl, rfl, rfl⟩⟩
    simp [Core.SameRegisters]

/-- The next bundle of an instruction that selects none depends on the pc and the loop stack alone. -/
theorem Core.stepped_congr {c d : Core} (h : d.regs = c.regs) : d.stepped = c.stepped := by simp only [Core.stepped, h]

/-- CSRR of a listed register records what the register reads at issue (R134). -/
theorem exec_csrr_of_listed (s : State) (d : BitVec 6) (r : BitVec 12) (v : Word) (hr : csrListed r = true)
    (hv : s.csrRead s.cur r.toNat = some v)
    (h : (stepOn (s.core s.cur).regs.pc.toNat (s.core s.cur).regs.loops).1 < s.imageLen s.cur) :
    exec (.csrr d r) s = .next ((s.scalarSet 0 2 d v).movedTo (stepOn (s.core s.cur).regs.pc.toNat (s.core s.cur).regs.loops).1
      (stepOn (s.core s.cur).regs.pc.toNat (s.core s.cur).regs.loops).2) := by
  have hplain : CtPlain (.csrr d r) := ctPlain_csrr d r (by simp [instrReasons, hr, Reasons.none])
  have hsub : s.ctSub s.cur (.csrr d r) = none := by
    rw [ctSub_csrr, nextOf_csrr]
    exact targetSub_of_lt h
  rw [exec_csrr, ctExec_commits s (.csrr d r) _ hplain (by intro _ h; cases h) hsub, hv, Option.getD_some, record_scalar]
  have hn : ((s.scalarSet 0 2 d v).core (s.scalarSet 0 2 d v).cur).nextOf (.csrr d r) = (s.core s.cur).stepped := by
    rw [nextOf_csrr, State.scalarSet_cur]
    exact Core.stepped_congr (s.scalarSet_core 0 2 d v).1
  have hm := advance_eq_movedTo (s.scalarSet 0 2 d v) (.csrr d r) _ _ hn
  rw [State.scalarSet_cur] at hm
  rw [hm]

/-- CSRW of CORESTAT joins the writes of the next cycle (R134). -/
theorem exec_csrw_corestat (s : State) (x : BitVec 6)
    (h : (stepOn (s.core s.cur).regs.pc.toNat (s.core s.cur).regs.loops).1 < s.imageLen s.cur) :
    exec (.csrw 1 x) s = .next ((s.updCore s.cur (fun k => { k with csrw := k.csrw ++ [(1, (s.core s.cur).sreg x.toNat)] })).movedTo
      (stepOn (s.core s.cur).regs.pc.toNat (s.core s.cur).regs.loops).1
      (stepOn (s.core s.cur).regs.pc.toNat (s.core s.cur).regs.loops).2) := by
  have hplain : CtPlain (.csrw 1 x) := ctPlain_csrw 1 x rfl
  have hsub : s.ctSub s.cur (.csrw 1 x) = none := by
    rw [ctSub_csrw, nextOf_csrw]
    exact targetSub_of_lt h
  rw [exec_csrw, ctExec_commits s (.csrw 1 x) _ hplain (by intro _ h; cases h) hsub]
  refine congrArg _ (advance_eq_movedTo (s.updCore s.cur _) (.csrw 1 x) _ _ ?_)
  rw [nextOf_csrw, State.updCore_cur, State.core_updCore_self]
  exact Core.stepped_congr rfl

theorem coreStatWord_eq (depth : Nat) (t : CoreStat) : coreStatWord depth t =
    BitVec.ofNat 64 ((if t.race then 1 else 0) + (if t.noreplay then 2 else 0) + (if t.deviated then 4 else 0) +
      (if t.window then 8 else 0) + (if t.replay then 16 else 0) + 256 * depth) := by
  obtain ⟨replay, window, deviated, noreplay, race⟩ := t
  cases replay <;> cases window <;> cases deviated <;> cases noreplay <;> cases race <;> rfl

/-! ## The control and status window -/

/-- The eight bytes of a listed register, as a load of either kind extends them. -/
theorem ofInt_eight_bytes (sgn : Bool) (v : Word) :
    BitVec.ofInt 64 (if sgn then toSigned (8 * 8) (v.toNat % 2 ^ (8 * 8)) else ((v.toNat % 2 ^ (8 * 8) : Nat) : Int)) = v := by
  have h : v.toNat % 2 ^ (8 * 8) = v.toNat := Nat.mod_eq_of_lt v.isLt
  rw [h]
  cases sgn with
  | false => simp
  | true =>
    have e : toSigned (8 * 8) v.toNat = v.toInt := by
      rw [BitVec.toInt_eq_toNat_cond, toSigned, if_neg (by decide), h]
      split_ifs <;> omega
    rw [if_pos rfl, e, BitVec.ofInt_toInt]

/-- The reservation at the beginning of an access leaves the registers to read and to write. -/
theorem State.csrRead_reserve (s : State) (n r now : Nat) (u : User) (banks : List (Buf × Nat × Nat)) :
    (s.updCore n (fun c => c.reserve now u banks)).csrRead n r = s.csrRead n r := by
  unfold State.csrRead
  rw [State.core_updCore_self]
  rfl

/-- A scalar access of eight bytes at a register. -/
theorem State.holds_csr_reg (s : State) (n r : Nat) (hr : r < 12) : s.Holds n .csr (csrBase + 8 * r) 8 := by
  rw [State.holds_csr]
  omega

theorem csrOffset (r : Nat) : (csrBase + 8 * r - csrBase) / 8 = r := by
  rw [Nat.add_sub_cancel_left, Nat.mul_div_cancel_left r (by decide)]

/-- An aligned access of eight bytes at a listed register passes the checks, a store only at CORESTAT (R28, R208). -/
theorem State.addressFault_of_csr (s : State) (n : Nat) (i : Instr) (p : Plan) (r : Nat) (v m : Nat) (hp : (s.core n).plan i = some p)
    (hc : p.cls = .sload ∨ p.cls = .sstore) (hsz : p.size = 8) (hl : p.byLane = false) (hx : p.pieces = [⟨0, csrBase + 8 * r, 8, v, m⟩])
    (hr : r < 12) (hv : (s.csrRead n r).isSome = true) (hst : p.cls = .sload ∨ r = 1) : s.addressFault n i = none := by
  refine s.addressFault_of_groups n i p hp fun g hg => ?_
  have hg : g = [⟨0, csrBase + 8 * r, 8, v, m⟩] := by simpa [Plan.groups, hl, hx] using hg
  subst hg
  rw [State.groupSub_scalar_csr (v := .csr) (List.forall_mem_singleton.mpr ⟨Nat.succ_pos 7, show 8 ≤ 2 ^ 62 by decide⟩)
    (List.forall_mem_singleton.mpr (s.holds_csr_reg n r hr)) hc rfl, csrOffset]
  have ha : (csrBase + 8 * r) % 8 = 0 := by
    have : csrBase = 0x7F00000300000000 := rfl
    omega
  exact if_pos ⟨hsz, ha, hv, hst⟩

theorem csrBase_eq : csrBase = 0x7F00000300000000 := rfl

/-- A load of eight bytes at a register takes two cycles (R211). -/
theorem State.planLat_of_csr (s : State) (n : Nat) (p : Plan) (r v m : Nat) (hx : p.pieces = [⟨0, csrBase + 8 * r, 8, v, m⟩])
    (hr : r < 12) : s.planLat n p = some 2 := by
  have hb := csrBase_eq
  have hlat : ∀ a, csrBase + 8 * r ≤ a → a < csrBase + 8 * r + 8 → s.addrLat n a = 2 := fun a h1 h2 => by
    unfold State.addrLat
    rw [State.win_of_holds ((s.holds_csr_reg n r hr).mono h1 h2)]
  have hglob : p.global = false := by
    rw [Plan.global, hx, List.any_cons, List.any_nil, decide_eq_false (by show ¬ csrBase + 8 * r < 2 ^ 52; omega)]
    exact Bool.and_false _
  have hlast : (csrBase + 8 * r + 8 - 1) % 2 ^ 64 = csrBase + 8 * r + 7 := Nat.mod_eq_of_lt (by omega)
  unfold State.planLat
  rw [hglob, hx]
  show some (max 0 (max (s.addrLat n (csrBase + 8 * r)) (s.addrLat n ((csrBase + 8 * r + 8 - 1) % 2 ^ 64)))) = some 2
  rw [hlast, hlat _ (Nat.le_refl _) (by omega), hlat _ (by omega) (by omega)]
  rfl

/-- Eight bytes read at a register (R211). -/
theorem State.localRead_of_csr (s : State) (n r : Nat) (v : Word) (hr : r < 12) (hv : s.csrRead n r = some v) :
    s.localRead n (csrBase + 8 * r) 8 = v.toNat % 2 ^ (8 * 8) := by
  unfold State.localRead
  rw [State.win_of_holds ((s.holds_csr_reg n r hr).mono (Nat.le_refl _) (by omega)), csrOffset]
  dsimp only
  rw [hv]
  rfl

/-- LDS.n64 of a listed register records what the register reads at issue (R28, R211). -/
theorem exec_lds_csr (s : State) (b d : BitVec 6) (sgn : Bool) (off : BitVec 32) (r : Nat) (v : Word)
    (ha : effAddr ((s.core s.cur).sreg b.toNat) off = csrBase + 8 * r) (hr : r < 12) (hv : s.csrRead s.cur r = some v)
    (hs : s.Serves (.lds b d 3 sgn off)) (hj : (s.die (dieOf s.cur)).jobs = []) :
    ∃ l, exec (.lds b d 3 sgn off) s = .next ((s.updCore s.cur (fun c => { c with rsv := l })).scalarSet 6 2 d v) := by
  have hi : LoadInstr (.lds b d 3 sgn off) := .inl ⟨_, _, _, _, _, rfl⟩
  have hp : (s.core s.cur).plan (.lds b d 3 sgn off) =
    some (loadPlan .sload (.scalar d.toNat 8 sgn (effAddr ((s.core s.cur).sreg b.toNat) off)) 8) := rfl
  rw [ha] at hp
  generalize hpl : loadPlan .sload (.scalar d.toNat 8 sgn (csrBase + 8 * r)) 8 = p at hp
  have hx : p.pieces = [⟨0, csrBase + 8 * r, 8, 0, 0⟩] := by rw [← hpl]; rfl
  have hd : p.dest = some (.scalar d.toNat 8 sgn (csrBase + 8 * r)) := by rw [← hpl]; rfl
  have hcls : p.cls = .sload := by rw [← hpl]; rfl
  have hfault := s.addressFault_of_csr s.cur _ p r 0 0 hp (.inl hcls) (by rw [← hpl]; rfl) (by rw [← hpl]; rfl) hx hr (by rw [hv]; rfl)
    (.inl hcls)
  refine ⟨(s.core s.cur).rsv ++ (p.banks.map (fun b => (b.1, b.2, 0))).map (fun b => ⟨b.1, b.2.1, .issue, s.now + b.2.2⟩), ?_⟩
  rw [hi.exec_of_clear s rfl hs hfault]
  unfold State.lsLoad
  simp only [hp, hd]
  rw [s.lsBegin_of_no_jobs s.cur p hj, State.planLat_of_csr _ _ p r 0 0 hx hr]
  dsimp only [LoadDest.result]
  rw [State.localRead_of_csr _ _ r v hr ((s.csrRead_reserve ..).trans hv), ofInt_eight_bytes]
  exact congrArg _ (record_scalar (s.updCore s.cur _) 6 2 d v)

/-- STS.n64 to CORESTAT joins the writes of the next cycle (R29, R212). -/
theorem exec_sts_corestat (s : State) (col : BitVec 3) (b d : BitVec 6) (off : BitVec 32)
    (ha : effAddr ((s.core s.cur).sreg b.toNat) off = csrBase + 8 * 1) (hs : s.Serves (.sts col b d 3 off))
    (hj : (s.die (dieOf s.cur)).jobs = []) :
    ∃ bs, exec (.sts col b d 3 off) s = .next (((s.updCore s.cur (fun c => c.reserve s.now .issue bs)).updCore s.cur (fun c =>
      { c with csrw := c.csrw ++ [(1, (s.core s.cur).sreg d.toNat)] })).nextPos s.cur) := by
  have hi : StoreInstr (.sts col b d 3 off) := .inl ⟨_, _, _, _, _, rfl⟩
  have hp : (s.core s.cur).plan (.sts col b d 3 off) = some ⟨.sstore, 8, false,
      [⟨0, effAddr ((s.core s.cur).sreg b.toNat) off, 8, ((s.core s.cur).sreg d.toNat).toNat % 2 ^ (8 * 8), allBits 8⟩],
      [effAddr ((s.core s.cur).sreg b.toNat) off], none, col.toNat, (s.core s.cur).sreg d.toNat⟩ := rfl
  rw [ha] at hp
  generalize hxe : (⟨0, csrBase + 8 * 1, 8, ((s.core s.cur).sreg d.toNat).toNat % 2 ^ (8 * 8), allBits 8⟩ : Piece) = x at hp
  generalize hpl : (⟨.sstore, 8, false, [x], [csrBase + 8 * 1], none, col.toNat, (s.core s.cur).sreg d.toNat⟩ : Plan) = p at hp
  have haddr : x.addr = csrBase + 8 * 1 := by rw [← hxe]
  have hpx : p.pieces = [x] := by rw [← hpl]
  have hval : p.value = (s.core s.cur).sreg d.toNat := by rw [← hpl]
  have hfault := s.addressFault_of_csr s.cur _ p 1 _ _ hp (.inr (by rw [← hpl])) (by rw [← hpl]) (by rw [← hpl]) (by rw [hpx, ← hxe])
    (by decide) rfl (.inr rfl)
  have hwin : ∀ t : State, t.win s.cur x.addr = some .csr := fun t => by
    rw [haddr]
    exact State.win_of_holds ((t.holds_csr_reg s.cur 1 (by decide)).mono (Nat.le_refl _) (by decide))
  have hbuf : ∀ t : State, t.bufferStore s.cur x = t := fun t => by
    rw [State.bufferStore, haddr, bufOf_from_commons _ _ (by decide)]
  have hglob : ∀ t : State, t.globalCells s.cur p = [] := fun t =>
    t.globalCells_eq_nil s.cur p (by rw [hpx, List.forall_mem_singleton, hwin]; decide)
  have hcom : ∀ t : State, [x].filter (fun y => t.win s.cur y.addr == some .commons) = [] := fun t => by
    simp [hwin]
  refine ⟨p.banks.map (fun b => (b.1, b.2, 0)), ?_⟩
  rw [hi.exec_of_clear s rfl hs hfault]
  unfold State.lsStore
  simp only [hp, hpx, hval, List.foldl_cons, List.foldl_nil, hbuf, hcom, List.flatMap_nil, State.commonsStore_eq_foldl, hglob, if_pos, hwin]
  rw [s.lsBegin_of_no_jobs s.cur p hj, haddr, csrOffset]
  rfl

/-! ## The writes of the next cycle -/

/-- With nothing else in flight, the start of a cycle makes the writes that wait (R29, R134). -/
theorem State.landCore_of_csrw (s : State) (n : Nat) (hw : (s.core n).csrw ≠ []) (h1 : (s.core n).results = [])
    (h2 : (s.core n).tiles = []) (h3 : (s.core n).mstcs = []) (h4 : (s.core n).scales = []) (h5 : (s.core n).fills = [])
    (h6 : (s.core n).parks = []) (h7 : (s.core n).loads = []) : s.landCore n = s.updCore n Core.writeCsrs := by
  have hl : (s.core n).landings n s.now = [] := by
    rw [Core.landings, h1, h2, h3, h4, h5, h6]
    rfl
  have hc : (s.updCore n Core.writeCsrs).core n = (s.core n).writeCsrs := State.core_updCore_self ..
  have hloads : (s.core n).writeCsrs.loads = [] := h7
  have hdue : ∀ now, (s.core n).writeCsrs.dueParts now = [] ∧ (s.core n).writeCsrs.dueLoads n now = [] := fun now => by
    rw [Core.dueParts, Core.dueLoads, hloads]
    exact ⟨rfl, rfl⟩
  have hread : (s.updCore n Core.writeCsrs).readParts n = s.updCore n Core.writeCsrs := by
    rw [State.readParts, hc, (hdue _).1]
    rfl
  have hnil : ∀ t : State, t.runAll [] = t := fun _ => rfl
  unfold State.landCore
  simp only [List.isEmpty_iff, hw, if_false, State.updCore_now, hl, hnil, hread, hc, (hdue _).2]

/-- A single write of CORESTAT clears DEVIATED and RACE where it has a one (R29). -/
theorem Core.writeCsrs_corestat (c : Core) (v : Word) (h : c.csrw = [(1, v)]) :
    c.writeCsrs = { c with csrw := [], regs := { c.regs with stat := coreStatWrite c.regs.stat v } } := by
  rw [Core.writeCsrs, h]
  rfl

/-- The effective address of the statement is that of R207. -/
theorem effAddr_toNat {n : Nat} (b : Word) (off : BitVec n) : effAddr b off = (b.toNat + (off.signExtend 64).toNat) % 2 ^ 64 :=
  BitVec.toNat_add b _

/-- Settles O22: each register by its own line of `State.csrRead`, the window by the two accesses above, and the start of the next cycle. -/
theorem controlRegisterAccess : Obligations.ControlRegisterAccess := by
  refine ⟨?instr, ?window, ?nextCycle⟩
  case instr =>
    intro s d x c nx st reads hlen
    have hread : ∀ (r : BitVec 12) (v : Word), csrListed r = true → s.csrRead s.cur r.toNat = some v → reads r v :=
      fun r v hr hv => exec_csrr_of_listed s d r v hr hv hlen
    refine ⟨hread 0 _ rfl ?_, hread 1 _ rfl ?_, hread 2 _ rfl rfl, hread 3 _ rfl rfl, hread 4 _ rfl rfl, hread 5 _ rfl rfl,
      hread 6 _ rfl rfl, hread 8 _ rfl rfl, hread 9 _ rfl rfl, hread 10 _ rfl rfl, hread 11 _ rfl rfl, exec_csrw_corestat s x hlen⟩
    · show some (BitVec.ofNat 64 (b2n c.imode)) = _
      cases c.imode <;> rfl
    · exact congrArg some (coreStatWord_eq _ _)
  case window =>
    intro s b d sgn col off c a frame hj
    refine ⟨fun r v ha hr hv hs => ?_, fun ha hs => ?_⟩
    · obtain ⟨l, e⟩ := exec_lds_csr s b d sgn off r v ((effAddr_toNat _ _).trans ha) hr hv hs hj
      obtain ⟨-, hw, hres, hk⟩ := (s.updCore s.cur (fun c => { c with rsv := l })).scalarSet_core 6 2 d v
      simp only [State.updCore_cur, State.core_updCore_self] at hw hres hk
      obtain ⟨hr', hb, he⟩ := (s.setCore_coreKeeps s.cur { c with rsv := l } (by simp [Core.SameRegisters, c]) ⟨rfl, rfl, rfl⟩).trans hk
      exact ⟨_, e, ⟨hr', hb, he⟩, hw, hres⟩
    · obtain ⟨bs, e⟩ := exec_sts_corestat s col b d off ((effAddr_toNat _ _).trans ha) hs hj
      refine ⟨_, e, ?_⟩
      simp only [State.nextPos, State.updCore, State.core_setCore_self, State.setCore_setCore]
      refine ⟨(s.setCore_coreKeeps s.cur _ ?_ ?_).frame, rfl, rfl, rfl⟩
      · simp [Core.SameRegisters, Core.reserve]
      · exact ⟨rfl, rfl, rfl⟩
  case nextCycle =>
    intro s n v c hw h1 h2 h3 h4 h5 h6 h7
    rw [s.landCore_of_csrw n (by rw [show (s.core n).csrw = _ from hw]; simp) h1 h2 h3 h4 h5 h6 h7, State.updCore,
      Core.writeCsrs_corestat _ v hw]
    rfl

end Sys2Proof.Machine
end

section
/-! PROOFS. How a core stops by its mark distance, by a failed translation and by a debug request, what the end of its drain writes, and its
resume after a debug stop. -/

open Sys2Proof Sys2Proof.Machine

namespace Sys2Proof.Machine

/-! ## Stopping -/

/-- What a stop that begins leaves of its core: all but the records, the reason of the stop, the breakpoint hits and the captured bodies. -/
theorem State.beginStop_core (s : State) (n : Nat) (why : StopWhy) : ∃ v b h q, (s.beginStop n why).core n = { s.core n with
    regs := { (s.core n).regs with devc := v, stat := { (s.core n).regs.stat with deviated := b } }
    held := h
    run := .draining
    stop := some why
    dbg := { (s.core n).dbg.atStop why with req := q }
    istore := { (s.core n).istore with captured := [] } } := by
  obtain ⟨z, hz, e⟩ := s.beginStop_eq n why
  obtain ⟨v, b, h, q, f⟩ := hz.2.2.1
  refine ⟨v, b, h, q, ?_⟩
  rw [e, State.core_updCore_self, f]
  cases why <;> rfl

theorem State.beginStop_sameMemory (s : State) (n : Nat) (why : StopWhy) : s.SameMemory (s.beginStop n why) := by
  obtain ⟨z, hz, e⟩ := s.beginStop_eq n why
  rw [e]
  exact hz.sameMemory

/-- A bundle without MARK whose mark distance has passed the bound is stopped with that cause, whatever else would stop it (R33). -/
theorem State.verdict_overdue (s : State) (n : Nat) (hb : (s.core n).bound ≠ 0) (hd : (s.core n).bound.toNat + 1 ≤ (s.core n).markDist)
    (hm : ∀ l, s.lineAt n (s.core n).regs.pc.toNat = .line l → (decodeLine l).mark = false) :
    s.verdict n = .trap ((s.core n).trapAt 11 0 (s.core n).bound.toNat 0) := by
  unfold State.verdict
  extract_lets c p late due
  have hl : late := ⟨hb, hd⟩
  cases h : s.lineAt n p with
  | absent => simp only [if_pos hl]; rfl
  | broken sub => simp only [if_pos hl]; rfl
  | line l =>
    have hn : ¬(c.markDist = c.bound.toNat + 1 ∧ (decodeLine l).mark = true) := by simp [hm l h]
    simp only [if_pos hl, if_neg hn, ite_self]
    rfl

theorem exec_markOverdue_of_late (s : State) (n : Nat) (hn : (s.core n).atBoundary s.now = true) (hp : (s.core n).pend = [])
    (hf : (s.core n).failed = false) (hs : (s.core n).stopNext = none)
    (hv : s.verdict n = .trap ((s.core n).trapAt 11 0 (s.core n).bound.toNat 0)) :
    exec (.markOverdue n) s = .next (s.takeTrap n ⟨11, 0, (s.core n).bound.toNat, 0, (s.core n).regs.pc.toNat⟩) := by
  show execMarkOverdue n s = _
  unfold execMarkOverdue
  simp only [hn, hp, hf, hs, hv, Core.trapAt]
  rfl

/-- The record of a failed translation has cause 0x0D and names the bundle at the pc (R304, R313). -/
theorem Core.translateRec_cause_index (c : Core) : c.translateRec.cause = 13 ∧ c.translateRec.index = c.regs.pc.toNat := by
  unfold Core.translateRec
  cases leastFault c.faultList <;> exact ⟨rfl, rfl⟩

/-- A debug stop: the reason of the stop carries the requests that were pending, the hits and WAITING (R331, R335, R336). -/
theorem State.debugStop_core (s : State) (n hits : Nat) : ∃ v b h q, (s.debugStop n hits).core n = { s.core n with
    regs := { (s.core n).regs with devc := v, stat := { (s.core n).regs.stat with deviated := b } }
    held := h
    run := .draining
    stop := some (.debug (hits + (s.core n).dbg.req + 128 * b2n (s.core n).wait.isSome))
    dbg := { (s.core n).dbg with req := q, bhit := BitVec.ofNat 4 hits }
    istore := { (s.core n).istore with captured := [] } } := by
  unfold State.debugStop
  obtain ⟨v, b, h, q, e⟩ := State.beginStop_core (s.setCore n { s.core n with dbg := { (s.core n).dbg with req := 0, bhit := BitVec.ofNat 4 hits } })
    n (.debug (hits + (s.core n).dbg.req + 128 * b2n (s.core n).wait.isSome))
  exact ⟨v, b, h, q, by rw [e, State.core_setCore_self]; rfl⟩

theorem State.debugStop_sameMemory (s : State) (n hits : Nat) : s.SameMemory (s.debugStop n hits) := by
  have h := State.beginStop_sameMemory (s.setCore n { s.core n with dbg := { (s.core n).dbg with req := 0, bhit := BitVec.ofNat 4 hits } })
    n (.debug (hits + (s.core n).dbg.req + 128 * b2n (s.core n).wait.isSome))
  exact h

/-! ## The drain -/

/-- HMVER and LATCLS are all that a core takes from its die (R37, R353). -/
theorem State.readHallmark_core (s : State) (n : Nat) : (s.readHallmark n).core n =
    { s.core n with hmver := (s.die (dieOf n)).hallmark.version, latcls := (s.recOf n).lat } := by
  unfold State.readHallmark
  rw [State.core_updCore_self]

/-- The trap registers after the drain, and what the record leaves of the core (R35). -/
theorem State.writeTrap_core (s : State) (n : Nat) (t : TrapRec) : ∃ q, (s.writeTrap n t).core n = { s.core n with
    trappc := BitVec.ofNat 64 (t.index % 2 ^ 24)
    trapinfo := t.info
    trapaddr := t.addr
    regs := { (s.core n).regs with pc := BitVec.ofNat 24 t.index }
    run := .stopped
    stopAt := s.ns
    dbg := { (s.core n).dbg with req := q } } := by
  unfold State.writeTrap
  extract_lets c rg z
  obtain ⟨q, e⟩ := (z.emit_traced n 7 t.index c.schedule [t.info.toNat, t.addr.toNat, c.regs.cycle]).2.1 n
  exact ⟨q, by rw [e, State.core_setCore_self]⟩

/-- A drained stop of any kind but HALT, and but a failed translation whose walks go on, is completed (R47). -/
theorem exec_drainComplete_of_ready (s : State) (n : Nat) (w : StopWhy) (hr : (s.core n).run = .draining) (hs : (s.core n).stop = some w)
    (hw : w ≠ .halt) (h : (s.core n).stopReady w = true) : exec (.drainComplete n) s = .next (s.finishStop n w) := by
  show execDrainComplete n s = _
  unfold execDrainComplete
  simp only [hr, hs]
  rw [if_neg (fun hh => hw hh.1), if_pos h]

/-- HALT is completed when its queues are performed and no cause is pending (R133). -/
theorem exec_drainComplete_halt (s : State) (n : Nat) (hr : (s.core n).run = .draining) (hs : (s.core n).stop = some .halt)
    (hd : (s.core n).drained = true) (hp : (s.core n).pend = []) (hq : (s.core n).performs = []) (hu : (s.core n).queue = []) :
    exec (.drainComplete n) s = .next (s.finishStop n .halt) := by
  have hn : (s.core n).stopPend = none := by
    unfold Core.stopPend
    rw [hp]
    rfl
  show execDrainComplete n s = _
  unfold execDrainComplete
  simp only [hr, hs, hd, hn, hq, hu]
  rfl

theorem State.finishStop_trap (s : State) (n : Nat) (r : TrapRec) (h : r.cause ≠ 13) :
    s.finishStop n (.trap r) = (s.readHallmark n).writeTrap n r := by
  simp only [State.finishStop, if_neg h]

/-- A completed stop at a mark, with nothing queued: TRAPPC names the next bundle and the replay window closes (R122, R322). -/
theorem State.finishStop_mark (s : State) (n : Nat) (w : StopWhy) (hw : w = .seal ∨ ∃ q, w = .mark q) (hq : (s.core n).performs = [])
    (hu : (s.core n).queue = []) : s.finishStop n w = s.setCore n { s.core n with
      hmver := (s.die (dieOf n)).hallmark.version
      latcls := (s.recOf n).lat
      regs := { (s.core n).regs with stat := closeWindow (s.core n).regs.stat }
      run := .stopped
      trappc := (s.core n).regs.pc.zeroExtend 64 } := by
  have hr := s.readHallmark_core n
  have hp : (s.readHallmark n).perform n (s.core n).unasked [] = (s.readHallmark n).setCore n ((s.readHallmark n).core n) :=
    State.perform_none _ _ _ (by rw [hr]; exact hq) (by rw [hr, hu]; exact fun e he => absurd he List.not_mem_nil)
  have hf : s.finishStop n w = (((s.readHallmark n).perform n (s.core n).unasked []).closeWin n).updCore n
      (fun c => { c with run := .stopped, trappc := c.regs.pc.zeroExtend 64 }) := by
    rcases hw with rfl | ⟨q, rfl⟩ <;> rfl
  rw [hf, hp, hr]
  simp only [State.readHallmark, State.closeWin, State.updCore, State.core_setCore_self, State.setCore_setCore]

/-- The end of a debug stop: the core stands at its pc, which TRAPPC names (R334, R335). -/
theorem State.finishStop_debug (s : State) (n w : Nat) :
    s.SameMemory (s.finishStop n (.debug w)) ∧ ∃ q, (s.finishStop n (.debug w)).core n = { s.core n with
      hmver := (s.die (dieOf n)).hallmark.version
      latcls := (s.recOf n).lat
      run := .stopped
      trappc := (s.core n).regs.pc.zeroExtend 64
      dbg := { (s.core n).dbg with req := q } } := by
  have h := ((s.readHallmark n).updCore n (fun c => { c with run := .stopped, trappc := c.regs.pc.zeroExtend 64 })).emit_traced
    n 8 (s.core n).regs.pc.toNat (s.core n).schedule [w, 0, (s.core n).regs.cycle]
  obtain ⟨q, e⟩ := h.2.1 n
  refine ⟨h.sameMemory, q, ?_⟩
  show State.core (State.emit _ _ _ _ _ _) n = _
  rw [e, State.core_updCore_self, State.readHallmark_core]

/-! ## The resume -/

/-- The breakpoint that the resume lets pass: the one that has matched at the pc (R335). -/
def Core.passed (c : Core) : Option (BitVec 24) := if c.dbg.bhit ≠ 0 ∧ c.trappc = c.regs.pc.zeroExtend 64 then some c.regs.pc else none

theorem exec_debugResume_eq (s : State) (n : Nat) (hf : (s.core n).framed = false) (hs : (s.core n).debugStopped = true) :
    exec (.debugResume n) s = .next ((s.returnTo n (s.core n).regs.pc.toNat).updCore n
      (fun c => { c with dbg := { c.dbg with pass := (s.core n).passed, stepping := c.dbg.sstep } })) := by
  show execDebugResume n s = _
  unfold execDebugResume
  simp only [hf, hs]
  rfl

/-- A resume after a debug stop goes on at the same bundle (R334 to R336). -/
theorem exec_debugResume_spec (s : State) (n : Nat) (hf : (s.core n).framed = false) (hs : (s.core n).debugStopped = true) :
    ∃ t, exec (.debugResume n) s = .next t ∧ (t.core n).run = .running ∧ (t.core n).markDist = 0 ∧ (t.core n).wait = (s.core n).wait ∧
      (t.core n).regs = (s.core n).regs ∧ (s.core n).SameRegisters (t.core n) ∧ (s.core n).SameBuffers (t.core n) ∧ s.SameElsewhere t n := by
  refine ⟨_, exec_debugResume_eq s n hf hs, ?_⟩
  simp only [State.returnTo, State.updCore, State.core_setCore_self, State.setCore_setCore, BitVec.ofNat_toNat, BitVec.setWidth_eq]
  exact ⟨trivial, trivial, trivial, trivial, by simp [Core.SameRegisters], ⟨rfl, rfl, rfl⟩, State.setCore_sameElsewhere ..⟩

/-- Settles O46: every stop of a core is the stop that begins with its reason, and the end of the drain completes it by its kind. -/
theorem coresStopAndDrain : Obligations.CoresStopAndDrain := by
  unfold Obligations.CoresStopAndDrain
  intro s n c p
  refine ⟨?overdue, ?translate, ?trap, ?halt, ?mark, ?request, ?debug, ?debugged, ?resume⟩
  case overdue =>
    intro hn hp hf hs hb hd hm
    exact exec_markOverdue_of_late s n hn hp hf hs (s.verdict_overdue n hb hd hm)
  case translate =>
    intro hr he hf hp
    obtain ⟨hc, hi⟩ := c.translateRec_cause_index
    obtain ⟨v, b, h, q, e⟩ := s.beginStop_core n (.trap c.translateRec)
    refine ⟨s.stopTranslate n, c.translateRec, ?_, ?_⟩
    · show execTranslate n s = _
      unfold execTranslate
      rw [if_pos ⟨hr, he, hf, hp⟩]
    · have e' : (s.stopTranslate n).core n = _ := e
      rw [e']
      exact ⟨rfl, rfl, hc, hi, rfl, rfl, rfl, by simp [Core.SameRegisters, c], ⟨rfl, rfl, rfl⟩,
        s.beginStop_sameMemory n _⟩
  case trap =>
    intro r hr hs hc hd
    have hready : c.stopReady (.trap r) = true := by simp [Core.stopReady, hd, hc]
    refine ⟨_, exec_drainComplete_of_ready s n _ hr hs (by simp) hready, ?_⟩
    rw [s.finishStop_trap n r hc]
    obtain ⟨q, e⟩ := (s.readHallmark n).writeTrap_core n r
    obtain ⟨-, -, -, -, -, -, hm⟩ := (s.readHallmark n).writeTrap_spec n r
    rw [e, State.readHallmark_core]
    exact ⟨rfl, rfl, rfl, rfl, rfl, rfl, ⟨rfl, rfl, rfl⟩, hm⟩
  case halt =>
    intro hr hs hd hp hq hu
    refine ⟨_, exec_drainComplete_halt s n hr hs hd hp hq hu, ?_⟩
    simp only [State.finishStop, State.readHallmark, State.updCore, State.core_setCore_self, State.setCore_setCore]
    exact ⟨trivial, trivial, ⟨rfl, rfl, rfl⟩, State.setCore_sameElsewhere ..⟩
  case mark =>
    intro w hw hr hs hd hq hu
    have hready : c.stopReady w = true := by rcases hw with rfl | ⟨q, rfl⟩ <;> simp [Core.stopReady, hd]
    have hh : w ≠ .halt := by rcases hw with rfl | ⟨q, rfl⟩ <;> simp
    refine ⟨_, exec_drainComplete_of_ready s n w hr hs hh hready, ?_⟩
    rw [s.finishStop_mark n w hw hq hu, State.core_setCore_self]
    exact ⟨rfl, hs, rfl, rfl, rfl, rfl, rfl, ⟨rfl, rfl, rfl⟩, State.setCore_sameElsewhere ..⟩
  case request =>
    intro hf hs
    show execDebugStopRequest n s = _
    unfold execDebugStopRequest
    simp only [hf, hs, c]
    rfl
  case debug =>
    intro hr he hn hp hf hv
    obtain ⟨v, b, h, q, e⟩ := s.debugStop_core n 0
    refine ⟨s.debugStop n 0, ?_, ?_⟩
    · show execDebugStop n s = _
      unfold execDebugStop
      rw [if_pos ⟨hr, he, hn, hp, hf⟩]
      rcases hv with hw | hv
      · rw [if_pos hw]
      · split
        · rfl
        · split
          · next r hr => exact absurd hr (hv r)
          · rfl
    · rw [e]
      refine ⟨rfl, ?_, rfl, rfl, rfl, by simp [Core.SameRegisters, c], ⟨rfl, rfl, rfl⟩, s.debugStop_sameMemory n 0⟩
      cases hw : (s.core n).wait.isSome <;> simp [c, b2n]
  case debugged =>
    intro w hr hs hd
    have hready : c.stopReady (.debug w) = true := by simp [Core.stopReady, hd]
    obtain ⟨hm, q, e⟩ := s.finishStop_debug n w
    refine ⟨_, exec_drainComplete_of_ready s n _ hr hs (by simp) hready, ?_⟩
    rw [e]
    exact ⟨rfl, rfl, rfl, rfl, rfl, ⟨rfl, rfl, rfl⟩, hm⟩
  case resume =>
    intro hf hs
    obtain ⟨t, h, hr, hm, hw, hg, hreg, hbuf, hel⟩ := exec_debugResume_spec s n hf hs
    exact ⟨t, h, hr, by simp [Core.stopped, hr], hm, hw, hg, hreg, hbuf, hel⟩

end Sys2Proof.Machine
end

section
/-! PROOFS. A long-pending load that still waits for its translation lands nothing, even when its bytes have come. -/

open Sys2Proof Sys2Proof.Machine

namespace Sys2Proof.Machine

/-- A load without an error waits for its translation before it lands (R312). -/
theorem exec_longPendingLanding_of_not_ready (s : State) (n id : Nat) (l : Load)
    (hl : (s.core n).loads.find? (fun x => x.id == id) = some l) (he : l.err = false) (hr : l.trans.ready = false) :
    exec (.longPendingLanding n id) s = .next s := by
  show execLongPendingLanding n id s = _
  unfold execLongPendingLanding
  simp only [hl, he, hr]
  cases l.land with
  | none => rfl
  | some t => simp

/-- A load of eight bytes into s2 whose part has been read early, by the tables as they stood, while its own translation of page 1 is still
awaited. -/
def walkingLoad : Load :=
  ⟨1, .load, 0, 6, [⟨.scalar, 2, 1⟩], .scalar 2 8 false 0x1000, [⟨0x80, 0xFF, 0, true⟩], [], ⟨0, [1], [], []⟩, some 0, false, some (0, ⟨0, []⟩)⟩

/-- The package after power-on with that load on core 0. -/
def walkingState : State := State.reset.updCore 0 (fun c => { c with loads := [walkingLoad] })

theorem walkingState_loads : (walkingState.core 0).loads = [walkingLoad] := by
  unfold walkingState
  rw [State.core_updCore_self]

theorem walkingState_wayState : walkingState.wayState 0 walkingLoad.trans = .active := rfl

/-- Refutes O45: a load whose data has come, on an active way, lands nothing while its translation is awaited. A Read that the order of the core's
own moves makes urgent takes the bytes before the walk ends (`State.readLoad`), and the landing then waits for the walk (R312); the statement leaves
the translation of the landing load open. -/
theorem not_longPendingLoadsLand : ¬ Obligations.LongPendingLoadsLand := by
  unfold Obligations.LongPendingLoadsLand
  intro h
  have hfind : (walkingState.core 0).loads.find? (fun x => x.id == 1) = some walkingLoad := by rw [walkingState_loads]; rfl
  have hread : Memory.readN walkingLoad.got 0x1000 8 < 2 ^ (8 * 8) := by decide
  obtain ⟨hland, -, -⟩ := h walkingState 0 1 walkingLoad hfind
  obtain ⟨t, ht, hloads, -⟩ := hland 0 2 8 false 0x1000 rfl (Nat.zero_le _) rfl walkingState_wayState rfl (by decide) (by decide) (by decide) hread
  have hstays : exec (.longPendingLanding 0 1) walkingState = .next walkingState :=
    exec_longPendingLanding_of_not_ready walkingState 0 1 walkingLoad hfind rfl rfl
  rw [hstays] at ht
  obtain rfl : walkingState = t := Host.Outcome.next.inj ht
  rw [walkingState_loads] at hloads
  exact absurd hloads (by decide)

end Sys2Proof.Machine
end

section
/-! PROOFS. The debug path and the register page: what writes change, what reads give, and the message test of a vector. -/

open Sys2Proof Sys2Proof.Machine

namespace Sys2Proof.Machine

/-! ## The host link -/

/-- The host link of a virtual function is port 0 or 1, never the rack link. -/
theorem State.portLink_hostPort (s : State) (v : Nat) : s.portLink (s.hostPort v) = s.port (s.hostPort v) := by
  unfold State.portLink State.hostPort
  cases (s.vf v).root <;> rfl

/-- What comes over a host link that is up, where nothing waits, acts at once. -/
theorem State.viaHost_open (s : State) (v : Nat) (i : Instr) (act : Host.Outcome State Fault Refusal)
    (h : (s.port (s.hostPort v)).up = true) (hq : s.portIn = []) : s.viaHost v i act = act :=
  s.viaPort_open _ i act (by rw [s.portLink_hostPort]; exact h) (by simp [hq])

/-- What comes over a host link that is DOWN is lost (log 40). -/
theorem State.viaHost_down (s : State) (v : Nat) (i : Instr) (act : Host.Outcome State Fault Refusal)
    (h : (s.port (s.hostPort v)).state = 0) : s.viaHost v i act = .next s := by
  unfold State.viaHost State.viaPort
  rw [s.portLink_hostPort]
  simp [Port.up, h]

theorem State.viaHost_training (s : State) (v : Nat) (i : Instr) (act : Host.Outcome State Fault Refusal)
    (h : (s.port (s.hostPort v)).state = 1) : s.viaHost v i act = .next { s with portIn := s.portIn ++ [(s.hostPort v, i)] } :=
  s.viaPort_training _ i act (by rw [s.portLink_hostPort]; exact h)

/-! ## Fields of a written word -/

theorem bits_eq_div_mod (n hi lo : Nat) : bits n hi lo = n / 2 ^ lo % 2 ^ (hi + 1 - lo) := by
  rw [bits, Nat.shiftRight_eq_div_pow]

/-! ## Offsets of the register page (R383) -/

theorem queueReg_block (d q i : Nat) (hd : d < 4) (hq : q < 32) (hi : i < 4) : queueReg (4096 * d + 32 * q + 8 * i) = some (d, q, i) := by
  unfold queueReg
  have h1 : (4096 * d + 32 * q + 8 * i) / 0x1000 = d := by omega
  have h2 : (4096 * d + 32 * q + 8 * i) % 0x1000 = 32 * q + 8 * i := by omega
  rw [if_pos (by omega), h1, h2]
  congr 3
  · omega
  · omega

/-- The registers of the rings, vectors and notify words stand past those of the queues. -/
theorem queueReg_page (off : Nat) (h : 0x4000 ≤ off) : queueReg off = none := by
  unfold queueReg
  rw [if_neg (by omega)]

/-! ## Writes of the host -/

section HostWrites

variable (s : State) (v : Nat) (x : Word)

/-- A write of the host over a link that is up, where nothing waits, is made at once. -/
theorem exec_registerWrite_host (off : Nat) (h : (s.port (s.hostPort v)).up = true) (hq : s.portIn = []) :
    exec (.registerWrite (.host v off) x) s = s.hostWrite v off x :=
  s.viaHost_open v _ _ h hq

theorem State.hostWrite_queue (d q i : Nat) (hd : d < 4) (hq : q < 32) (hi : i < 4) :
    s.hostWrite v (4096 * d + 32 * q + 8 * i) x = s.hostQueueWrite v d q i x := by
  unfold State.hostWrite
  rw [queueReg_block d q i hd hq hi]

/-- A write to a register of the fault ring. -/
theorem State.hostWrite_fault (off i : Nat) (ho : off = 0x4100 + 8 * i) (hi : i < 5) :
    s.hostWrite v off x = .next (s.updVf v (fun f => { f with fault := f.fault.hostWrite i x })) := by
  have h : (off - 0x4100) / 8 = i := by omega
  unfold State.hostWrite
  rw [queueReg_page _ (by omega)]
  dsimp only
  rw [if_pos (by omega), h]

/-- A write to a register of the event ring. -/
theorem State.hostWrite_event (off i : Nat) (ho : off = 0x4140 + 8 * i) (hi : i < 5) :
    s.hostWrite v off x = .next (s.updVf v (fun f => { f with event := f.event.hostWrite i x })) := by
  have h : (off - 0x4140) / 8 = i := by omega
  unfold State.hostWrite
  rw [queueReg_page _ (by omega)]
  dsimp only
  rw [if_neg (by omega), if_pos (by omega), h]

/-- QBASE takes the written address while the queue is disabled (R383). -/
theorem State.hostQueueWrite_base (d q : Nat) (ho : s.ownsQueue v d q = true) (he : (s.queue d q).en = false) :
    s.hostQueueWrite v d q 0 x = .next (s.setQueue d q { s.queue d q with base := BitVec.ofNat 64 (x.toNat / 64 * 64) }) := by
  simp [State.hostQueueWrite, ho, he]

/-- QCTL: the size of a disabled queue, and then EN (R383). -/
theorem State.hostQueueWrite_ctl (d q : Nat) (ho : s.ownsQueue v d q = true) :
    let w := s.queue d q
    let size := x.toNat / 2 ^ 8 % 16
    let s' := if w.en = false ∧ 4 ≤ size ∧ size ≤ 12 then s.setQueue d q { w with log2n := BitVec.ofNat 4 size } else s
    s.hostQueueWrite v d q 1 x = if x.getLsbD 0 then exec (.queueEnable v d q) s' else exec (.queueDisable v d q) s' := by
  intro w size s'
  have hb : bits x.toNat 11 8 = size := bits_eq_div_mod ..
  have hs : (if (!w.en && decide (4 ≤ size) && decide (size ≤ 12)) = true then s.setQueue d q { w with log2n := BitVec.ofNat 4 size } else s) = s' :=
    if_congr (by simp [and_assoc]) rfl rfl
  unfold State.hostQueueWrite
  simp only [ho, hb, Bool.not_true, Bool.false_eq_true, if_false]
  rw [hs]
  rfl

theorem State.hostQueueWrite_prod (d q : Nat) (ho : s.ownsQueue v d q = true) :
    s.hostQueueWrite v d q 2 x = exec (.doorbell v d q (BitVec.ofNat 32 x.toNat)) s := by
  unfold State.hostQueueWrite
  rw [ho]
  rfl

/-- QSTAT written with STATE RUN clears the error of its queue (R384). -/
theorem State.hostQueueWrite_stat (d q : Nat) (ho : s.ownsQueue v d q = true) (hx : x.toNat % 4 = 1) :
    s.hostQueueWrite v d q 3 x = exec (.queueErrorClear v d q (BitVec.ofNat 32 (x.toNat / 2 ^ 32))) s := by
  have hb : bits x.toNat 1 0 = 1 := by rw [bits_eq_div_mod]; simpa using hx
  unfold State.hostQueueWrite
  rw [ho]
  show (if bits x.toNat 1 0 = 1 then _ else _) = _
  rw [if_pos hb]
  rfl

end HostWrites

/-! ## Writes of the plug-in -/

section PluginWrites

variable (s : State) (v : Nat) (x : Word)

/-- A queue that somebody owns is there, so an update of it is a write of its new contents. -/
theorem State.updQueue_of_owns (d q : Nat) (f : Queue → Queue) (h : s.ownsQueue v d q = true) :
    s.updQueue d q f = s.setQueue d q (f (s.queue d q)) := by
  unfold State.ownsQueue at h
  unfold State.updQueue State.queue
  rw [getD_eq_find?]
  cases hq : find? s.queues (qKey d q) with
  | none => simp [hq] at h
  | some y => rfl

theorem State.pluginWrite_queue (d q : Nat) (hd : d < 4) (hq : q < 32) (ho : s.ownsQueue v d q = true) :
    s.pluginWrite v (4096 * d + 32 * q + 8) x = .next (s.setQueue d q { s.queue d q with vec := BitVec.ofNat 4 (x.toNat / 2 ^ 12) }) := by
  unfold State.pluginWrite
  rw [show queueReg (4096 * d + 32 * q + 8) = some (d, q, 1) from queueReg_block d q 1 hd hq (by decide)]
  simp only [ho, if_true, s.updQueue_of_owns v d q _ ho]

theorem State.pluginWrite_faultVec : s.pluginWrite v 0x4108 x =
    .next (s.updVf v (fun f => { f with fault := { f.fault with vec := BitVec.ofNat 4 (x.toNat / 2 ^ 4) } })) := by
  unfold State.pluginWrite
  rw [queueReg_page _ (by omega)]
  dsimp only
  rw [if_pos rfl]

theorem State.pluginWrite_eventVec : s.pluginWrite v 0x4148 x =
    .next (s.updVf v (fun f => { f with event := { f.event with vec := BitVec.ofNat 4 (x.toNat / 2 ^ 4) } })) := by
  unfold State.pluginWrite
  rw [queueReg_page _ (by omega)]
  dsimp only
  rw [if_neg (by omega), if_pos rfl]

theorem State.pluginWrite_notify (k : Nat) (hk : k < 16) : s.pluginWrite v (0x4300 + 8 * k) x =
    .next (s.updVf v (fun f => { f with notctl := vset f.notctl k (x &&& 0xFFFFFFFFFFFFFFCF) })) := by
  have h : (0x4300 + 8 * k - 0x4300) / 8 = k := by omega
  unfold State.pluginWrite
  rw [queueReg_page _ (by omega)]
  dsimp only
  rw [if_neg (by omega), if_neg (by omega), if_neg (by omega), if_pos (by omega), h]

end PluginWrites

/-! ## Vectors -/

section Vectors

variable (s : State) (v k : Nat)

/-- The message test of R387: the vector is unmasked, and its events are enough or the oldest is old enough. -/
def Vec.isDue (f : Vec) (now : Nat) : Prop := f.mask = false ∧ 0 < f.pend ∧ (f.count.toNat ≤ f.pend ∨ f.oldest + f.time.toNat ≤ now)

theorem State.msiDue_iff : s.msiDue v k = true ↔ (vget (s.vf v).vecs k Vec.zero).isDue s.ns := by
  simp [State.msiDue, Vec.isDue, and_assoc]

/-- A vector that is written holds the written value. -/
theorem State.vec_updVf_vset (y : Vec) (hv : v < 4) (hk : k < 16) :
    vget ((s.updVf v (fun f => { f with vecs := vset f.vecs k y })).vf v).vecs k Vec.zero = y := by
  unfold State.updVf
  rw [State.vf_setVf_self _ _ _ hv]
  exact vget_vset_self _ _ _ _ hk

/-- A vector whose pending count a message has taken. -/
def State.taken (s : State) (v k : Nat) : State :=
  s.updVf v (fun f => { f with vecs := vset f.vecs k { vget f.vecs k Vec.zero with pend := 0 } })

/-- The host link of a virtual function does not hang on its vectors. -/
theorem State.hostPort_taken : (s.taken v k).hostPort v = s.hostPort v := by
  unfold State.hostPort State.taken State.updVf
  by_cases hv : v < 4
  · rw [State.vf_setVf_self _ _ _ hv]
  · simp [State.vf, vget, hv]

theorem State.testMsi_of_due (hd : (vget (s.vf v).vecs k Vec.zero).isDue s.ns) : s.testMsi v k = (s.taken v k).toHost v (.msix v k) := by
  unfold State.testMsi
  rw [if_pos ((s.msiDue_iff v k).mpr hd)]
  rfl

theorem State.testMsi_of_not_due (hd : ¬(vget (s.vf v).vecs k Vec.zero).isDue s.ns) : s.testMsi v k = s := by
  unfold State.testMsi
  rw [if_neg (fun h => hd ((s.msiDue_iff v k).mp h))]

/-- The message of a vector over a link that is up, behind nothing. -/
theorem State.testMsi_open (hv : v < 4) (hk : k < 16) (h : (s.port (s.hostPort v)).up = true) (hq : s.portOut = [])
    (hd : (vget (s.vf v).vecs k Vec.zero).isDue s.ns) :
    (s.testMsi v k).out.msix = (v, k, s.ns) :: s.out.msix ∧
      vget ((s.testMsi v k).vf v).vecs k Vec.zero = { vget (s.vf v).vecs k Vec.zero with pend := 0 } := by
  have hup : ((s.taken v k).portLink ((s.taken v k).hostPort v)).up = true := by
    rw [State.portLink_hostPort, State.hostPort_taken]
    exact h
  have hmsg : s.testMsi v k = (s.taken v k).reachHost (.msix v k) := by
    rw [s.testMsi_of_due v k hd]
    exact (s.taken v k).toLink_open _ _ hup (by simp [State.taken, hq])
  rw [hmsg]
  refine ⟨rfl, ?_⟩
  show vget ((s.taken v k).vf v).vecs k Vec.zero = _
  unfold State.taken State.updVf
  rw [State.vf_setVf_self _ _ _ hv]
  exact vget_vset_self _ _ _ _ hk

/-- The message of a vector over a link that trains waits (R410). -/
theorem State.testMsi_training (h : (s.port (s.hostPort v)).state = 1) (hd : (vget (s.vf v).vecs k Vec.zero).isDue s.ns) :
    (s.testMsi v k).out.msix = s.out.msix ∧ (s.testMsi v k).portOut = s.portOut ++ [(s.hostPort v, .msix v k)] := by
  have htr : ((s.taken v k).portLink ((s.taken v k).hostPort v)).state = 1 := by
    rw [State.portLink_hostPort, State.hostPort_taken]
    exact h
  have hmsg : s.testMsi v k = { s.taken v k with portOut := (s.taken v k).portOut ++ [((s.taken v k).hostPort v, .msix v k)] } := by
    rw [s.testMsi_of_due v k hd]
    exact (s.taken v k).toLink_training _ _ htr
  rw [hmsg, s.hostPort_taken]
  exact ⟨rfl, rfl⟩

/-- A written vector control: its fields, and then the message test (R387). -/
theorem exec_vecctlWrite_eq (x : Word) : exec (.vecctlWrite v k x) s =
    .next ((s.updVf v (fun f => { f with vecs := vset f.vecs k { vget (s.vf v).vecs k Vec.zero with
      time := BitVec.ofNat 32 (x.toNat / 2 ^ 32), mask := x.getLsbD 16, count := BitVec.ofNat 16 x.toNat } })).testMsi v k) := rfl

end Vectors

/-! ## The debug path -/

section DebugPath

variable (s : State) (n : Nat)

/-- A debug write is made while the core is stopped, not in a wait, and without an active frame entry (R337, R400). -/
theorem exec_debugStateWrite_of_stopped (loc : DbgLoc) (val : Nat) (hs : (s.core n).stopped = true) (hw : (s.core n).waiting = false)
    (hf : (s.core n).framed = false) : exec (.debugStateWrite n loc val) s = .next (s.debugWrite n loc val) := by
  show execDebugStateWrite n loc val s = _
  unfold execDebugStateWrite
  simp [hs, hw, hf]

/-- A debug write of a scalar counts as written in the resume cycle (R116). -/
theorem State.debugWrite_scalar (k : Nat) (x : Word) (h0 : 0 < k) (hk : k < 64) : s.debugWrite n (.scalar k) x.toNat =
    s.setCore n { s.core n with
      regs := { (s.core n).regs with s := vset (s.core n).regs.s k x }, sLand := vset (s.core n).sLand k none } := by
  unfold State.debugWrite State.updCore Regs.setS
  simp only [Nat.mod_eq_of_lt hk, if_neg (Nat.ne_of_gt h0), BitVec.ofNat_toNat, BitVec.setWidth_eq]

theorem State.debugWrite_csr (k : Nat) (x : Word) : s.debugWrite n (.csr k) x.toNat = s.setCore n ((s.core n).setCsr k x) := by
  unfold State.debugWrite State.updCore
  simp only [BitVec.ofNat_toNat, BitVec.setWidth_eq]

theorem State.debugWrite_template (k val : Nat) (hk : k < 256) : s.debugWrite n (.template k) val =
    s.setCore n { s.core n with templates := put (s.core n).templates k (BitVec.ofNat 1024 val) } := by
  unfold State.debugWrite
  simp only [if_pos hk]
  rfl

/-- One byte of the A buffer. -/
theorem State.debugWrite_bufferA (off val : Nat) (h : off < 524288) : s.debugWrite n (.buffer 0 off) val =
    s.setCore n { s.core n with bufA := Memory.writeN (s.core n).bufA off 1 val } := by
  have hs : off < (bufOfNum 0).size := h
  unfold State.debugWrite
  simp only [if_pos hs]
  rfl

theorem Memory.read_writeN_byte (m : Memory) (off v : Nat) : Memory.read (m.writeN off 1 (v % 256)) off = BitVec.ofNat 8 v := by
  have h := Memory.read_writeN m off 1 (v % 256) 0 (by decide)
  rw [Nat.add_zero] at h
  rw [h, pow_zero, Nat.div_one]
  exact BitVec.eq_of_toNat_eq (by simp)

theorem State.debugRead_of_stopped (loc : DbgLoc) (hs : (s.core n).stopped = true) (hf : (s.core n).framed = false) :
    s.debugRead n loc = some (s.locValue n loc) := by
  unfold State.debugRead
  simp [hs, hf]

/-- An entry of the loop stack reads in the layout of R16. -/
theorem State.locValue_loopEntry (i : Nat) (e : LoopEntry) (h : (s.core n).regs.loops.reverse[i]? = some e) :
    s.locValue n (.loopEntry i) = e.first.toNat + e.last.toNat * 2 ^ 32 + e.iter.toNat * 2 ^ 64 + e.trip.toNat * 2 ^ 96 := by
  have hloc : s.locValue n (.loopEntry i) = (((s.core n).regs.loops.reverse[i]?).map LoopEntry.word).getD 0 := rfl
  rw [hloc, h, Option.map_some, Option.getD_some, LoopEntry.word]

theorem State.locValue_scalar (r : Nat) : s.locValue n (.scalar r) = ((s.core n).sreg r).toNat := by
  unfold State.locValue
  rfl

theorem State.locValue_pc : s.locValue n .pc = (s.core n).regs.pc.toNat := by
  unfold State.locValue
  rfl

theorem State.debugRead_none (loc : DbgLoc) (h : (s.core n).stopped = false ∨ (s.core n).framed = true) : s.debugRead n loc = none := by
  unfold State.debugRead
  obtain h | h := h <;> simp [h]

theorem exec_registerWrite_dbgbrk (k : Nat) (x : Word) (hf : (s.core n).framed = false) : exec (.registerWrite (.dbgbrk n k) x) s =
    .next (s.setCore n { s.core n with dbg := { (s.core n).dbg with brk := vset (s.core n).dbg.brk k (x.truncate 24) } }) := by
  show execRegisterWrite (.dbgbrk n k) x s = _
  unfold execRegisterWrite
  simp only [hf, Bool.false_eq_true, if_false]
  rfl

/-- DBGCTL with STOPREQ 0, on a core that no debug stop holds: BEN and SSTEP alone (R334, log 50). -/
theorem exec_registerWrite_dbgctl (x : Word) (hf : (s.core n).framed = false) (hx : x.getLsbD 0 = false)
    (hd : (s.core n).debugStopped = false) : exec (.registerWrite (.dbgctl n) x) s =
    .next (s.setCore n { s.core n with dbg := { (s.core n).dbg with
      ben := BitVec.ofNat 4 (x.toNat / 2 ^ 4), sstep := x.getLsbD 2 } }) := by
  have hb : bit x.toNat 0 = false := hx
  have hs : ((s.updCore n (fun c => { c with dbg := { c.dbg with
      ben := BitVec.ofNat 4 (x.toNat / 2 ^ 4), sstep := bit x.toNat 2 } })).core n).debugStopped = false := by
    rw [State.core_updCore_self]
    exact hd
  show s.writeDbgctl n x = _
  unfold State.writeDbgctl
  simp only [hf, hb, Bool.false_eq_true, if_false]
  unfold execDebugResume
  simp only [hs, Bool.not_false, Bool.true_or, if_true]
  rfl

end DebugPath

/-! ## The trace ring -/

section TraceRing

variable (s : State) (d : Nat) (x : Word)

theorem exec_registerWrite_trcctl : exec (.registerWrite (.trcctl d) x) s = .next (s.updDie d (fun e => { e with trace := { (s.die d).trace with
    tmask := BitVec.ofNat 32 (x.toNat / 2 ^ 33 % 2 ^ 31 * 2), wrap := x.getLsbD 1, en := x.getLsbD 0 } })) := by
  show execRegisterWrite (.trcctl d) x s = _
  unfold execRegisterWrite Trace.setCtl
  simp only [bits_eq_div_mod]
  rfl

/-- A write of TRCSIZE within its range empties the ring and its counts (log 32). -/
theorem exec_registerWrite_trcsize (h1 : 16 ≤ x.toNat % 32) (h2 : x.toNat % 32 ≤ 28) : exec (.registerWrite (.trcsize d) x) s =
    .next (s.updDie d (fun e => { e with trace := { (s.die d).trace with
      log2 := BitVec.ofNat 5 (x.toNat % 32), wp := 0, drop := 0, ring := [] } })) := by
  have hb : bits x.toNat 4 0 = x.toNat % 32 := by rw [bits_eq_div_mod]; simp
  show execRegisterWrite (.trcsize d) x s = _
  unfold execRegisterWrite Trace.setSize
  simp only [hb, if_pos (And.intro h1 h2)]
  rfl

end TraceRing

/-! ## The rings of a virtual function -/

section Rings

variable (r : Ring) (x : Word)

theorem Ring.hostWrite_base (h : r.en = false) : r.hostWrite 0 x = { r with base := BitVec.ofNat 64 (x.toNat / 64 * 64) } := by
  simp [Ring.hostWrite, h]

theorem Ring.hostWrite_ctl : r.hostWrite 1 x = { r with
    log2n := if 6 ≤ x.toNat / 2 ^ 8 % 32 ∧ x.toNat / 2 ^ 8 % 32 ≤ 16 then BitVec.ofNat 5 (x.toNat / 2 ^ 8 % 32) else r.log2n
    en := x.getLsbD 0 } := by
  unfold Ring.hostWrite
  simp only [bits_eq_div_mod]
  rfl

end Rings

/-- Settles O57: each write goes through the register or location that its offset names, and the traffic of a host link through the state of its
port. -/
theorem registersAreWritten : Obligations.RegistersAreWritten := by
  unfold Obligations.RegistersAreWritten
  intro s n v k off x c writes reg y z link ringCtl isDue
  refine ⟨?write, ?read, ?unread, ?debug, ?trace, ?host, ?down, ?training, ?pluginQueue, s.pluginWrite_faultVec v x, s.pluginWrite_eventVec v x, ?notify, ?vector⟩
  case write =>
    intro hs hw hf
    have key : ∀ loc val d, s.debugWrite n loc val = s.setCore n d → writes loc val d := fun loc val d h => by
      show exec _ s = _
      rw [exec_debugStateWrite_of_stopped s n loc val hs hw hf, h]
    refine ⟨key _ _ _ rfl, fun _ => key _ _ _ rfl, fun h0 hk => key _ _ _ (s.debugWrite_scalar n k x h0 hk), key _ _ _ (s.debugWrite_csr n 2 x),
      key _ _ _ (s.debugWrite_csr n 6 x), key _ _ _ (s.debugWrite_csr n 8 x), fun _ => key _ _ _ rfl,
      fun hk val => key _ _ _ (s.debugWrite_template n k val hk), fun hoff => ?_⟩
    refine ⟨_, key _ _ _ (s.debugWrite_bufferA n off _ hoff), ?_, fun a ha => ?_⟩
    · rw [State.core_setCore_self]
      exact Memory.read_writeN_byte ..
    · rw [State.core_setCore_self]
      exact Memory.read_writeN_of_not_mem _ _ _ _ _ (by omega)
  case read =>
    intro hs hf
    refine ⟨fun i e he => ?_, fun r => ?_, ?_⟩
    · rw [s.debugRead_of_stopped n _ hs hf, s.locValue_loopEntry n i e he]
    · rw [s.debugRead_of_stopped n _ hs hf, s.locValue_scalar n r]
    · rw [s.debugRead_of_stopped n _ hs hf, s.locValue_pc n]
  case unread => exact fun h loc => s.debugRead_none n loc h
  case debug =>
    exact fun hf => ⟨fun _ => exec_registerWrite_dbgbrk s n k x hf, fun hx hd => exec_registerWrite_dbgctl s n x hf hx hd⟩
  case trace =>
    exact fun d _ => ⟨exec_registerWrite_trcctl s d x, exec_registerWrite_trcsize s d x, fun _ => ⟨rfl, rfl⟩⟩
  case host =>
    intro hu hp
    have hreg : ∀ o, reg (.host v o) = s.hostWrite v o x := fun o => exec_registerWrite_host s v x o hu hp
    refine ⟨fun d q hd hq ho => ?_, fun he => ?_, ?_, ?_, fun he => ?_, ?_, ?_⟩
    · intro w size s' qreg
      have hqreg : ∀ i, i < 4 → qreg i = s.hostQueueWrite v d q i x := fun i hi => (hreg _).trans (s.hostWrite_queue v x d q i hd hq hi)
      refine ⟨fun he => ?_, ?_, ?_, fun hx => ?_⟩
      · rw [hqreg 0 (by decide), s.hostQueueWrite_base v x d q ho he]
      · rw [hqreg 1 (by decide), s.hostQueueWrite_ctl v x d q ho]
      · rw [hqreg 2 (by decide), s.hostQueueWrite_prod v x d q ho]
      · rw [hqreg 3 (by decide), s.hostQueueWrite_stat v x d q ho hx]
    · rw [hreg, s.hostWrite_fault v x _ 0 (by omega) (by decide), State.updVf, Ring.hostWrite_base _ x he]
      rfl
    · rw [hreg, s.hostWrite_fault v x _ 1 (by omega) (by decide), State.updVf, Ring.hostWrite_ctl]
      rfl
    · rw [hreg, s.hostWrite_fault v x _ 3 (by omega) (by decide)]
      rfl
    · rw [hreg, s.hostWrite_event v x _ 0 (by omega) (by decide), State.updVf, Ring.hostWrite_base _ x he]
      rfl
    · rw [hreg, s.hostWrite_event v x _ 1 (by omega) (by decide), State.updVf, Ring.hostWrite_ctl]
      rfl
    · rw [hreg, s.hostWrite_event v x _ 3 (by omega) (by decide)]
      rfl
  case down => exact fun h => s.viaHost_down v _ _ h
  case training => exact fun h => s.viaHost_training v _ _ h
  case pluginQueue => exact fun d q hd hq ho => s.pluginWrite_queue v x d q hd hq ho
  case notify => exact fun hk => s.pluginWrite_notify v x k hk
  case vector =>
    intro hv hk
    have hz := s.vec_updVf_vset v k z hv hk
    have hport : (s.updVf v (fun f => { f with vecs := vset f.vecs k z })).hostPort v = s.hostPort v := by
      unfold State.hostPort State.updVf
      rw [State.vf_setVf_self _ _ _ hv]
    refine ⟨fun hd => ?_, fun hu hp => ⟨fun hd => ?_, fun hd => ?_⟩, fun ht hd => ?_⟩
    · show exec (.vecctlWrite v k x) s = _
      rw [exec_vecctlWrite_eq, State.testMsi_of_not_due]
      rw [hz]
      exact hd
    · refine ⟨_, exec_vecctlWrite_eq s v k x, ?_⟩
      obtain ⟨hm, ht⟩ := State.testMsi_open (s.updVf v (fun f => { f with vecs := vset f.vecs k z })) v k hv hk (by rw [hport]; exact hu) hp (by rw [hz]; exact hd)
      rw [hz] at ht
      exact ⟨hm, ht⟩
    · exact ⟨_, rfl, s.testMsi_open v k hv hk hu hp hd⟩
    · exact ⟨_, rfl, s.testMsi_training v k ht hd⟩

end Sys2Proof.Machine
end

section
/-! PROOFS. What a launch gives the cores of its rectangle when it starts. -/

open Sys2Proof Sys2Proof.Machine

namespace Sys2Proof.Machine

/-! ## Hallmarks -/

/-- Every die keeps its hallmark. -/
def State.SameHallmarks (s t : State) : Prop := ∀ d, (t.die d).hallmark = (s.die d).hallmark

theorem State.SameHallmarks.refl (s : State) : s.SameHallmarks s := fun _ => rfl

theorem State.SameHallmarks.trans {s t u : State} (h : s.SameHallmarks t) (k : t.SameHallmarks u) : s.SameHallmarks u :=
  fun d => (k d).trans (h d)

theorem State.SameHallmarks.foldl {α : Type} (f : State → α → State) (h : ∀ (s : State) (a : α), s.SameHallmarks (f s a)) (l : List α) (s : State) :
    s.SameHallmarks (l.foldl f s) := by
  induction l generalizing s with
  | nil => exact .refl s
  | cons a r ih => exact (h s a).trans (ih _)

theorem State.updDie_sameHallmarks (s : State) (d : Nat) (f : Die → Die) (h : ∀ y, (f y).hallmark = y.hallmark) :
    s.SameHallmarks (s.updDie d f) := by
  intro e
  unfold State.updDie
  by_cases he : e = d
  · subst he
    by_cases hd : e < 4
    · rw [State.die_setDie_self _ _ _ hd, h]
    · simp [State.die, vget, hd]
  · rw [State.die_setDie_of_ne _ _ _ _ he]

theorem State.draw_sameHallmarks (s : State) : s.SameHallmarks s.draw.2 := fun d => by rw [State.draw_die]

theorem State.Traced.sameHallmarks {s t : State} (h : s.Traced t) : s.SameHallmarks t := fun d => by
  obtain ⟨x, e⟩ := h.2.2 d
  rw [e]

theorem State.placeCommons_sameHallmarks (s : State) (i : Image) (dies : List Nat) : s.SameHallmarks (s.placeCommons i dies) := by
  refine .foldl _ (fun s e => ?_) _ s
  split
  · refine .foldl _ (fun z d => ?_) _ s
    exact z.updDie_sameHallmarks d _ fun _ => rfl
  · exact .refl s

theorem State.logOpening_sameHallmarks (s : State) (x : Launch) (t : Nat) : s.SameHallmarks (s.logOpening x t) := by
  unfold State.logOpening
  split
  · exact (State.emitLine_traced ..).sameHallmarks
  · exact .refl s

/-- A launch starts in the next cycle or later (R298). -/
theorem State.startCycle_spec (s : State) (x : Launch) (i : Image) : s.now < (s.startCycle x i).1 ∧ s.SameHallmarks (s.startCycle x i).2 := by
  unfold State.startCycle
  cases s.resident x with
  | true =>
    simp only [if_true, State.draw_now]
    exact ⟨by omega, s.draw_sameHallmarks.trans s.draw.2.draw_sameHallmarks⟩
  | false =>
    simp only [Bool.false_eq_true, if_false]
    exact ⟨by rw [State.draw_now]; omega, s.draw_sameHallmarks⟩

/-! ## What a command processor reads -/

/-- A read hangs on the page tables and the global store alone. -/
theorem vfReadRun_updDie (fuel : Nat) (s : State) (d : Nat) (f : Die → Die) (v a n : Nat) :
    vfReadRun fuel (s.updDie d f) v a n = vfReadRun fuel s v a n := by
  induction fuel generalizing a n with
  | zero => rfl
  | succ k ih =>
    unfold vfReadRun
    simp only [ih]
    rfl

/-! ## The image and the arguments -/

/-- `.data` of an image goes to the typed buffers and nowhere else. -/
theorem Core.foldl_placeData (ds : List (Nat × Nat × Nat)) (c : Core) : ∃ a b w, ds.foldl (fun c e => c.placeData e.1 e.2.1 e.2.2) c =
    { c with bufA := a, bufC := b, bufW := w } := by
  induction ds generalizing c with
  | nil => exact ⟨_, _, _, rfl⟩
  | cons e r ih =>
    rw [List.foldl_cons]
    obtain ⟨a, b, w, h⟩ := ih (c.placeData e.1 e.2.1 e.2.2)
    refine ⟨a, b, w, h.trans ?_⟩
    unfold Core.placeData
    split
    · next buf off _ => cases buf <;> rfl
    · rfl

/-- Scalars 1 to n written one after another. -/
theorem Regs.foldl_setS (f : Nat → Word) (n : Nat) (r : Regs) : ∃ v, (List.range n).foldl (fun r k => r.setS (k + 1) (f k)) r = { r with s := v } ∧
    ∀ j, vget v j 0 = if 1 ≤ j ∧ j ≤ n ∧ j < 64 then f (j - 1) else vget r.s j 0 := by
  induction n with
  | zero => exact ⟨r.s, rfl, fun j => by rw [if_neg (by omega)]⟩
  | succ k ih =>
    obtain ⟨v, he, hv⟩ := ih
    refine ⟨vset v (k + 1) (f k), ?_, fun j => ?_⟩
    · rw [List.range_succ, List.foldl_append, he]
      rfl
    · by_cases hj : j = k + 1
      · subst hj
        by_cases hk : k + 1 < 64
        · rw [vget_vset_self _ _ _ _ hk, if_pos (by omega)]
          rfl
        · rw [if_neg (by omega), vget, vget, dif_neg hk, dif_neg hk]
      · rw [vget_vset_of_ne _ _ _ _ _ hj, hv]
        exact if_congr (by omega) rfl rfl

/-- The argument words in s1 to s30 and the rows in s31 (R287). -/
theorem Regs.setArgs_eq (r : Regs) (len v rows : Nat) : ∃ w, r.setArgs len v rows = { r with s := w } ∧
    (∀ k, 1 ≤ k → k ≤ 30 → vget w k 0 = BitVec.ofNat 64 (v % 2 ^ (8 * len) / 2 ^ (64 * (k - 1)))) ∧ vget w 31 0 = BitVec.ofNat 64 rows ∧
    ∀ k, 31 < k → vget w k 0 = vget r.s k 0 := by
  obtain ⟨w, he, hw⟩ := Regs.foldl_setS (fun k => BitVec.ofNat 64 (v % 2 ^ (8 * len) / 2 ^ (64 * k))) 30 r
  refine ⟨vset w 31 (BitVec.ofNat 64 rows), ?_, fun k h1 h2 => ?_, vget_vset_self _ _ _ _ (by decide), fun k hk => ?_⟩
  · unfold Regs.setArgs
    rw [he]
    rfl
  · rw [vget_vset_of_ne _ _ _ _ _ (by omega), hw, if_pos (by omega)]
  · rw [vget_vset_of_ne _ _ _ _ _ (by omega), hw, if_neg (by omega)]

/-- What a core holds at the start of launch l (R50, R281, R287). -/
structure Core.Started (c : Core) (l : Nat) (x : Launch) (i : Image) (start : Nat) (version : BitVec 32) : Prop where
  launch : c.launch = some l
  run : c.run = .starting start
  pc : c.regs.pc = BitVec.ofNat 24 i.entry
  loops : c.regs.loops = []
  imode : c.imode = x.imode
  bound : c.bound = i.bound
  parkmap : c.parkmap = i.parkmap
  templates : c.templates = i.templates
  cycle : c.regs.cycle = 0
  args : ∀ k, 1 ≤ k → k ≤ 30 → c.sreg k = BitVec.ofNat 64 (x.args.2 % 2 ^ (8 * x.args.1) / 2 ^ (64 * (k - 1)))
  block : 240 < x.args.1 → ∀ j, j < x.args.1 → Memory.read c.bufA (0x7F000 + j) = BitVec.ofNat 8 (x.args.2 / 2 ^ (8 * j))
  rows : c.sreg 31 = BitVec.ofNat 64 (x.hm1 + 1)
  zero : ∀ k, 31 < k → c.sreg k = 0
  cond : ∀ j, c.cond j = false
  slice : ∀ cl k, c.slice cl k = 0
  results : c.results = []
  queue : c.queue = []
  hmver : c.hmver = version

/-- The place of a large argument block in the A buffer (R287). -/
theorem bufOf_block : bufOf 0 (aBase + 0x7F000) = some (.a, 0x7F000) := by decide

/-- The argument block of a launch above 240 bytes, on its core, and nothing else. -/
theorem State.placeBlock_core (s : State) (x : Launch) (n : Nat) : ∃ a, (s.placeBlock x n).core n = { s.core n with bufA := a } ∧
    (240 < x.args.1 → ∀ j, j < x.args.1 → Memory.read a (0x7F000 + j) = BitVec.ofNat 8 (x.args.2 / 2 ^ (8 * j))) := by
  unfold State.placeBlock
  by_cases h : 240 < x.args.1
  · rw [if_pos h, State.core_updCore_self]
    refine ⟨Memory.writeN (s.core n).bufA 0x7F000 x.args.1 x.args.2, ?_, fun _ j hj => ?_⟩
    · unfold Core.placeData
      rw [bufOf_block]
      rfl
    · rw [Memory.read_writeN _ _ _ _ _ hj, show (256 : Nat) ^ j = 2 ^ (8 * j) from (pow_mul 2 8 j).symm]
  · rw [if_neg h]
    exact ⟨_, rfl, fun h' => absurd h' h⟩

/-- A core that is prepared for a launch, and given its argument block, holds the start values (R50, R281, R287). -/
theorem State.prepared_started (s : State) (l : Nat) (x : Launch) (i : Image) (m : Nat × Nat × Nat) (t : Nat) :
    (((s.prepareCore l x i m i.entry (.starting t)).placeBlock x m.1).core m.1).Started l x i t (s.die (dieOf m.1)).hallmark.version := by
  obtain ⟨blk, he, hblk⟩ := (s.prepareCore l x i m i.entry (.starting t)).placeBlock_core x m.1
  rw [he]
  unfold State.prepareCore State.blankCore
  simp only [State.core_updCore_self]
  unfold Core.loadImage
  dsimp only
  obtain ⟨a, b, w, hd⟩ := Core.foldl_placeData i.data _
  rw [hd]
  obtain ⟨v, hv, hargs, hrows, hzero⟩ := Regs.setArgs_eq { Core.fresh.regs with pc := BitVec.ofNat 24 i.entry } x.args.1 x.args.2 (x.hm1 + 1)
  dsimp only
  rw [hv]
  have hne : ∀ k, 1 ≤ k → k ≠ 0 := fun k h => by omega
  exact {
    launch := rfl, run := rfl, pc := rfl, loops := rfl, imode := rfl, bound := rfl, parkmap := rfl, templates := rfl, cycle := rfl
    args := fun k h1 h2 => (if_neg (hne k h1)).trans (hargs k h1 h2)
    block := hblk
    rows := (if_neg (by decide)).trans hrows
    zero := fun k hk => (if_neg (by omega)).trans ((hzero k hk).trans (vget_replicate 64 0 k))
    cond := Core.fresh_cond, slice := Core.fresh_slice
    results := rfl, queue := rfl, hmver := rfl }

/-! ## All cores of a launch -/

/-- A fold that prepares one core at a time leaves every core of its list prepared, also one that stands in it twice. -/
theorem State.foldl_core {α : Type} (f : State → α → State) (at_ : α → Nat) (inv : State → Prop) (p : Nat → Core → Prop)
    (hinv : ∀ s a, inv s → inv (f s a)) (hself : ∀ s a, inv s → p (at_ a) ((f s a).core (at_ a)))
    (hne : ∀ s a n, n ≠ at_ a → (f s a).core n = s.core n) (as : List α) (s : State) (hs : inv s) :
    (∀ n, p n (s.core n) → p n ((as.foldl f s).core n)) ∧ ∀ a ∈ as, p (at_ a) ((as.foldl f s).core (at_ a)) := by
  induction as generalizing s with
  | nil => exact ⟨fun _ h => h, fun a h => absurd h List.not_mem_nil⟩
  | cons b r ih =>
    obtain ⟨hkeep, hall⟩ := ih (f s b) (hinv s b hs)
    rw [List.foldl_cons]
    refine ⟨fun n hn => hkeep n ?_, fun a ha => ?_⟩
    · by_cases hb : n = at_ b
      · rw [hb]
        exact hself s b hs
      · rw [hne s b n hb]
        exact hn
    · rcases List.mem_cons.mp ha with rfl | ha
      · exact hkeep _ (hself s a hs)
      · exact hall a ha

/-- What prepares one core of a launch. -/
def State.startCoreOf (l : Nat) (x : Launch) (i : Image) (t : Nat) (s : State) (m : Nat × Nat × Nat) : State :=
  (s.prepareCore l x i m i.entry (.starting t)).placeBlock x m.1

/-- Preparing a core changes that core and nothing else. -/
theorem State.startCoreOf_eq (l : Nat) (x : Launch) (i : Image) (t : Nat) (s : State) (m : Nat × Nat × Nat) :
    ∃ c, s.startCoreOf l x i t m = s.setCore m.1 c := by
  unfold State.startCoreOf State.placeBlock State.prepareCore State.blankCore
  split <;> simp only [State.updCore, State.setCore_setCore] <;> exact ⟨_, rfl⟩

/-- Every core of a launch holds the start values, and the launches and the hallmarks stand. -/
theorem State.foldl_startCoreOf (s : State) (l : Nat) (x : Launch) (i : Image) (t : Nat) (ms : List (Nat × Nat × Nat)) :
    (ms.foldl (State.startCoreOf l x i t) s).launches = s.launches ∧
      ∀ m ∈ ms, ((ms.foldl (State.startCoreOf l x i t) s).core m.1).Started l x i t (s.die (dieOf m.1)).hallmark.version := by
  constructor
  · induction ms generalizing s with
    | nil => rfl
    | cons m r ih =>
      obtain ⟨c, hc⟩ := s.startCoreOf_eq l x i t m
      rw [List.foldl_cons, ih, hc]
      rfl
  · refine (State.foldl_core (State.startCoreOf l x i t) (fun m => m.1) s.SameHallmarks
      (fun n c => c.Started l x i t (s.die (dieOf n)).hallmark.version) (fun z m hz => ?_) (fun z m hz => ?_) (fun z m n hn => ?_) ms s (.refl s)).2
    · obtain ⟨c, hc⟩ := z.startCoreOf_eq l x i t m
      rw [hc]
      exact hz
    · rw [← hz (dieOf m.1)]
      exact z.prepared_started l x i m t
    · obtain ⟨c, hc⟩ := z.startCoreOf_eq l x i t m
      rw [hc]
      exact State.core_setCore_of_ne _ _ _ _ hn

/-! ## The start of a launch -/

/-- The argument block that a launch reads (R287). -/
def State.argsOf (s : State) (x : Launch) : Nat :=
  if pkArgLen x.packet = 0 then 0 else (s.vfRead x.vf (pkArgAddr x.packet) (pkArgLen x.packet)).getD 0

/-- A launch that has started at cycle t: its cores are prepared one after another, behind the regions and the commons of its image (R281). -/
theorem State.startNew_eq (s : State) (l : Nat) (x : Launch) (i : Image) : ∃ (z : State) (binds : List (Nat × Nat)) (began : Nat),
    let t := (s.startCycle x i).1
    let y : Launch := { x with state := .running, args := (pkArgLen x.packet, s.argsOf x), binds, start := some t, began }
    s.SameHallmarks z ∧ s.startNew l x i = x.cores.foldl (State.startCoreOf l y i t) (z.setLaunch l y) := by
  have hregions : ∀ (rs : List (Nat × Region)) (z : State),
      z.SameHallmarks (rs.foldl (fun s e => s.updDie e.1 (fun d => { d with regions := d.regions ++ [e.2] })) z) := fun rs z => by
    refine .foldl _ (fun z e => ?_) rs z
    exact z.updDie_sameHallmarks e.1 _ fun _ => rfl
  exact ⟨_, _, _, ((((s.startCycle_spec x i).2.trans (State.logOpening_sameHallmarks _ x _)).trans (hregions _ _)).trans
    (State.placeCommons_sameHallmarks _ i _)), rfl⟩

/-- The start of a launch that was not saved remembers its queue for the round robin, and starts it anew (R281, R289). -/
theorem State.startLaunch_eq (s : State) (l : Nat) (x : Launch) (i : Image) (hi : s.image? x.vf x.image = some i) (hx : x.state ≠ .saved) :
    ∃ z : State, s.SameHallmarks z ∧ z.now = s.now ∧ z.argsOf x = s.argsOf x ∧ s.startLaunch l x = z.startNew l x i := by
  have hrobin : ∀ d q, let z := s.updDie d (fun y => { y with robin := vset y.robin x.prio q })
      s.SameHallmarks z ∧ z.now = s.now ∧ z.argsOf x = s.argsOf x ∧ z.startNew l x i = z.startNew l x i := fun d q => by
    refine ⟨s.updDie_sameHallmarks d _ fun _ => rfl, rfl, ?_, rfl⟩
    unfold State.argsOf State.vfRead
    rw [vfReadRun_updDie]
  unfold State.startLaunch
  rw [hi]
  simp only [if_neg hx]
  cases x.origin with
  | queue d q => exact ⟨_, hrobin _ _⟩
  | node r k => exact ⟨_, hrobin _ _⟩
  | slot d n => exact ⟨s, .refl s, rfl, rfl, rfl⟩
  | world n e => exact ⟨s, .refl s, rfl, rfl, rfl⟩

/-- A launch that starts: it runs from its start cycle on, and its cores hold the start values (R281). -/
theorem State.startLaunch_spec (s : State) (l : Nat) (x : Launch) (i : Image) (hi : s.image? x.vf x.image = some i) (hx : x.state ≠ .saved) :
    ∃ y t, (s.startLaunch l x).launch? l = some y ∧ y.state = .running ∧ y.start = some t ∧ s.now < t ∧ y.imode = x.imode ∧ y.cores = x.cores ∧
      y.hm1 = x.hm1 ∧ y.args = (pkArgLen x.packet, s.argsOf x) ∧
      ∀ m ∈ y.cores, ((s.startLaunch l x).core m.1).Started l y i t (s.die (dieOf m.1)).hallmark.version := by
  obtain ⟨z, hz, hnow, hargs, e⟩ := s.startLaunch_eq l x i hi hx
  obtain ⟨w, binds, began, hw, e'⟩ := z.startNew_eq l x i
  let t := (z.startCycle x i).1
  let y : Launch := { x with state := .running, args := (pkArgLen x.packet, z.argsOf x), binds, start := some t, began }
  obtain ⟨hl, hc⟩ := (w.setLaunch l y).foldl_startCoreOf l y i t x.cores
  rw [e, e']
  refine ⟨y, t, ?_, rfl, rfl, hnow ▸ (z.startCycle_spec x i).1, rfl, rfl, rfl, by rw [← hargs], fun m hm => ?_⟩
  · rw [State.launch?, hl]
    exact State.launch?_setLaunch_self ..
  · rw [← (hz.trans hw) (dieOf m.1)]
    exact hc m hm

/-- A ready launch whose cores are free and that no check refuses starts (R281, R286). -/
theorem exec_launchStart_of_ready (s : State) (l : Nat) (x : Launch) (i : Image) (m : Bool) (hl : s.launch? l = some x) (hx : x.state = .ready)
    (hc : s.contends l x = true) (hf : s.coresFree l x = true) (hi : s.image? x.vf x.image = some i) (hs : s.codeShot x.vf i = false)
    (hw : s.linkWaits (s.sourceQueue x).1 x.vf x.packet = false)
    (hk : s.checkFrom (s.sourceQueue x).1 x.vf l x.packet x.hm1 (if pkIndirect x.packet then some (x.hm1 + 1) else none) = .ok m) :
    exec (.launchStart l) s =
      .next (s.startLaunch l { x with imode := m, cores := s.mapped x.col0 x.row0 (x.wm1 + 1) (x.hm1 + 1) }) := by
  have hrenew : s.renewLaunch l = s := by
    unfold State.renewLaunch
    simp [hl, hx]
  have hwaits : x.waits = true := by simp [Launch.waits, hx]
  show execLaunchStart l s = _
  unfold execLaunchStart
  rw [hrenew]
  simp only [hl, hwaits, hc, hf, hi, hx, hw, hk, hs, Bool.not_true, Bool.false_eq_true, if_false, Option.map_some, Option.getD_some]

end Sys2Proof.Machine
end

section
/-! PROOFS. The retirement of a launch, the registration of a graph, and the choice of a conditional node. -/

open Sys2Proof Sys2Proof.Machine

namespace Sys2Proof.Machine

/-! ## Completion records -/

/-- t is s but for what a completion record and its interrupt change: memory, virtual functions and what leaves the package (R290, R387). -/
def State.Signalled (s t : State) : Prop := t.cores = s.cores ∧ t.launches = s.launches ∧ t.queues = s.queues

theorem State.Signalled.refl (s : State) : s.Signalled s := ⟨rfl, rfl, rfl⟩

theorem State.Signalled.trans {s t u : State} (h : s.Signalled t) (k : t.Signalled u) : s.Signalled u :=
  ⟨k.1.trans h.1, k.2.1.trans h.2.1, k.2.2.trans h.2.2⟩

theorem State.toLink_signalled (s : State) (p : Nat) (m : HostMsg) : s.Signalled (s.toLink p m) := by
  unfold State.toLink
  split
  · cases m <;> exact ⟨rfl, rfl, rfl⟩
  · split <;> exact ⟨rfl, rfl, rfl⟩

theorem State.testMsi_signalled (s : State) (v k : Nat) : s.Signalled (s.testMsi v k) := by
  unfold State.testMsi
  split
  · exact State.Signalled.trans (t := s.taken v k) ⟨rfl, rfl, rfl⟩ (State.toLink_signalled ..)
  · exact .refl s

theorem State.vecEvent_signalled (s : State) (v k : Nat) : s.Signalled (s.vecEvent v k) :=
  State.testMsi_signalled _ v k

theorem State.cpWrite_signalled (s : State) (d v a n x : Nat) : s.Signalled (s.cpWrite d v a n x) := by
  unfold State.cpWrite State.vfWrite
  split
  · dsimp only
    split <;> exact ⟨rfl, rfl, rfl⟩
  · exact .refl s

theorem State.complete_signalled (s : State) (d v : Nat) (p : Line) (vec : Nat) (st : Status) (code cycles : Nat) :
    s.Signalled (s.complete d v p vec st code cycles) := by
  have key : ∀ z : State, s.Signalled z → s.Signalled (if (pkType p = 1 && pkIrq p) = true then z.vecEvent v vec else z) := fun z hz => by
    split
    · exact hz.trans (z.vecEvent_signalled v vec)
    · exact hz
  unfold State.complete
  refine key _ ?_
  split
  · exact .refl s
  · exact s.cpWrite_signalled ..

theorem State.reportOn_signalled (s : State) (d q kind code : Nat) (i : BitVec 32) : s.Signalled (s.reportOn d q kind code i) := by
  unfold State.reportOn
  dsimp only
  split
  · exact State.toLink_signalled ..
  · exact .refl s

theorem State.Signalled.core {s t : State} (h : s.Signalled t) (n : Nat) : t.core n = s.core n := by
  unfold State.core
  rw [h.1]

theorem State.Signalled.queue {s t : State} (h : s.Signalled t) (d q : Nat) : t.queue d q = s.queue d q := by
  unfold State.queue
  rw [h.2.2]

/-! ## The queue after a retirement -/

/-- A table whose values are changed each for its key. -/
theorem find?_map_val {α : Type} (m : Map α) (f : Nat × α → Nat × α) (g : Nat → α → α) (hf : ∀ e, f e = (e.1, g e.1 e.2)) (k : Nat) :
    find? (m.map f) k = (find? m k).map (g k) := by
  induction m with
  | nil => rfl
  | cons e r ih =>
    rw [List.map_cons, hf]
    show (if e.1 = k then some (g e.1 e.2) else find? (r.map f) k) = Option.map (g k) (if e.1 = k then some e.2 else find? r k)
    by_cases he : e.1 = k
    · rw [if_pos he, if_pos he, he]
      rfl
    · rw [if_neg he, if_neg he, ih]

/-- A queue whose wait word may have to be read again. -/
def Queue.watched (dies : List Nat) (k : Nat) (x : Queue) : Queue := if dies.contains (k / 32) then { x with due := true } else x

theorem State.find?_rewatch (s : State) (dies : List Nat) (k : Nat) :
    find? (s.rewatch dies).queues k = (find? s.queues k).map (Queue.watched dies k) :=
  find?_map_val s.queues _ (Queue.watched dies) (fun e => by unfold Queue.watched; split <;> rfl) k

/-- A rewatch changes nothing of a queue but the note that its wait word is to be read again (R280). -/
theorem State.queue_rewatch (s : State) (dies : List Nat) (d q : Nat) : ∃ b, (s.rewatch dies).queue d q = { s.queue d q with due := b } := by
  have hw : ∀ x : Queue, ∃ b, x.watched dies (qKey d q) = { x with due := b } := fun x => by
    unfold Queue.watched
    split
    · exact ⟨true, rfl⟩
    · exact ⟨x.due, rfl⟩
  unfold State.queue
  rw [getD_eq_find?, getD_eq_find?, State.find?_rewatch]
  cases find? s.queues (qKey d q) with
  | none => exact ⟨false, rfl⟩
  | some x => exact hw x

/-- The packet in hand of a queue has retired: CONS moves past it, and nothing is in hand (R276, R290). -/
theorem State.queueNext_spec (s : State) (d q : Nat) (st : Status) (code : Nat) (hq : (find? s.queues (qKey d q)).isSome = true)
    (hi : (s.queue d q).idx = (s.queue d q).cons) :
    (∀ n, (s.queueNext d q st code).core n = s.core n) ∧ (s.queueNext d q st code).launches = s.launches ∧
      ((s.queueNext d q st code).queue d q).cons = (s.queue d q).cons + 1 ∧ ((s.queueNext d q st code).queue d q).hand = .none := by
  have hr := s.reportOn_signalled d q (if st = .refused then 3 else 2) (if st = .refused then code else 0) (s.queue d q).idx
  obtain ⟨x, hx⟩ := Option.isSome_iff_exists.mp hq
  have hxq : s.queue d q = x := by rw [State.queue, getD_eq_find?, hx]; rfl
  rw [hxq] at hi
  unfold State.queueNext State.updQueue
  dsimp only
  rw [hr.2.2, hx]
  dsimp only
  obtain ⟨b, hb⟩ := State.queue_rewatch (State.setQueue (s.reportOn d q (if st = .refused then 3 else 2) (if st = .refused then code else 0) (s.queue d q).idx)
    d q { x.atHead _ _ with
      fwd := x.fwd.filter (fun e => e.1 != x.idx)
      cons := if x.cons = x.idx then x.cons + 1 else x.cons
      hand := .none
      packet := none
      ready := false
      state := if !x.en && x.state == .run then .idle else x.state }) [d] d q
  refine ⟨hr.core, hr.2.1, ?_, ?_⟩
  · rw [hb, State.queue_setQueue_self, hxq]
    exact if_pos hi.symm
  · rw [hb, State.queue_setQueue_self]

/-! ## Leaving the cores -/

theorem find?_erase_self {α : Type} (m : Map α) (k : Nat) : find? (erase m k) k = none := by
  unfold erase
  induction m with
  | nil => rfl
  | cons e r ih =>
    by_cases he : e.1 = k
    · rw [List.filter_cons_of_neg (by simp [he])]
      exact ih
    · rw [List.filter_cons_of_pos (by simp [he])]
      show (if e.1 = k then _ else _) = _
      rw [if_neg he, ih]

/-- A core after its launch has left: idle, and of no launch. -/
def Core.left (c : Core) : Prop := c.run = .idle ∧ c.launch = none

/-- One core leaves its launch; a core of another launch stays as it is (R290). -/
def State.freeCore (l : Nat) (kept : Core → Option (Nat × Nat)) (s : State) (m : Nat × Nat × Nat) : State :=
  s.updCore m.1 (fun c =>
    if c.launch = some l then
      { c with
        run := .idle, launch := none, kept := kept c
        stop := none, stopNext := none, markReq := none, wait := none, wakeAt := none, waitMark := false, pend := [], locket := none }
    else c)

theorem State.freeCore_core (l : Nat) (kept : Core → Option (Nat × Nat)) (s : State) (m : Nat × Nat × Nat) :
    ((s.core m.1).launch = some l ∧ ((s.freeCore l kept m).core m.1).left) ∨
      ((s.core m.1).launch ≠ some l ∧ (s.freeCore l kept m).core m.1 = s.core m.1) := by
  unfold State.freeCore
  rw [State.core_updCore_self]
  by_cases h : (s.core m.1).launch = some l
  · rw [if_pos h]
    exact .inl ⟨h, rfl, rfl⟩
  · rw [if_neg h]
    exact .inr ⟨h, rfl⟩

/-- The cores of a launch that leaves are idle and belong to no launch (R290). -/
theorem State.freeCores_left (s : State) (l : Nat) (x : Launch) (e : Nat × Nat × Nat) (he : e ∈ x.cores) (hl : (s.core e.1).launch = some l) :
    ((s.freeCores l x).core e.1).left := by
  let p := fun (n : Nat) (c : Core) => (s.core n).launch = some l → c.left
  let kept := fun (c : Core) => if (((s.image? x.vf x.image).map c.istore.keeps).getD false) = true then some (x.vf, x.image) else none
  have hself : ∀ (z : State) (m : Nat × Nat × Nat), (∀ n, z.core n = s.core n ∨ p n (z.core n)) → p m.1 ((z.freeCore l kept m).core m.1) := by
    intro z m hz hs
    rcases z.freeCore_core l kept m with ⟨-, h⟩ | ⟨hn, h⟩
    · exact h
    · rcases hz m.1 with hz | hz
      · exact absurd (hz ▸ hs) hn
      · rw [h]
        exact hz hs
  have hne : ∀ (z : State) (m : Nat × Nat × Nat) (n : Nat), n ≠ m.1 → (z.freeCore l kept m).core n = z.core n := fun z m n hn =>
    State.core_updCore_of_ne _ _ _ _ hn
  have hinv : ∀ (z : State) (m : Nat × Nat × Nat), (∀ n, z.core n = s.core n ∨ p n (z.core n)) →
      ∀ n, (z.freeCore l kept m).core n = s.core n ∨ p n ((z.freeCore l kept m).core n) := by
    intro z m hz n
    by_cases hn : n = m.1
    · rw [hn]
      exact .inr (hself z m hz)
    · rw [hne z m n hn]
      exact hz n
  exact (State.foldl_core (State.freeCore l kept) (fun m => m.1) (fun z => ∀ n, z.core n = s.core n ∨ p n (z.core n)) p hinv hself hne x.cores s
    (fun _ => .inl rfl)).2 e he hl

theorem State.foldl_freeCore_queues (l : Nat) (kept : Core → Option (Nat × Nat)) (ms : List (Nat × Nat × Nat)) (s : State) :
    (ms.foldl (State.freeCore l kept) s).queues = s.queues := by
  induction ms generalizing s with
  | nil => rfl
  | cons m r ih => exact (ih _).trans rfl

/-- Step 1 of R290: the launch is gone, its cores have left it, and the queues stand. -/
theorem State.dropLaunch_spec (s : State) (l : Nat) (x : Launch) :
    (s.dropLaunch l x).launch? l = none ∧ (s.dropLaunch l x).queues = s.queues ∧
      ∀ e ∈ x.cores, (s.core e.1).launch = some l → ((s.dropLaunch l x).core e.1).left := by
  refine ⟨find?_erase_self _ l, State.foldl_freeCore_queues l _ x.cores _, fun e he hl => ?_⟩
  exact State.freeCores_left _ l x e he hl

/-- A launch of a queue retires: the record and the interrupt come after it has left its cores, and then its queue goes on (R290). -/
theorem exec_launchRetire_queue (s : State) (l d q : Nat) (x : Launch) (hl : s.launch? l = some x) (ho : x.origin = .queue d q)
    (hm : s.mayRetire l x = true) (hs : s.sigWaits d x.vf x.packet = false) : ∃ st code cycles, exec (.launchRetire l) s =
      .next (((s.dropLaunch l x).rewatch (rectDies x.col0 x.row0 (x.wm1 + 1) (x.hm1 + 1))).itemDone x.vf (.queue d q) x.packet st code cycles) := by
  have hd : (s.sourceQueue x).1 = d := by
    unfold State.sourceQueue
    rw [ho]
  refine ⟨if x.aborted then .aborted else .done, if x.aborted then x.code else 0, s.launchCycles x, ?_⟩
  show execLaunchRetire l s = _
  unfold execLaunchRetire
  simp only [hl, hm, hd, hs, ho, Bool.not_true, Bool.or_self, Bool.false_eq_true, if_false]

/-- What the retirement of a launch of a queue leaves (R290). -/
theorem State.itemDone_queue_spec (s : State) (v d q : Nat) (p : Line) (st : Status) (code cycles : Nat)
    (hq : (find? s.queues (qKey d q)).isSome = true) (hi : (s.queue d q).idx = (s.queue d q).cons) :
    let t := s.itemDone v (.queue d q) p st code cycles
    (∀ n, t.core n = s.core n) ∧ t.launches = s.launches ∧ (t.queue d q).cons = (s.queue d q).cons + 1 ∧ (t.queue d q).hand = .none := by
  have hc := s.complete_signalled d v p (s.queue d q).vec.toNat st code cycles
  obtain ⟨hcore, hlaunch, hcons, hhand⟩ := State.queueNext_spec (s.complete d v p (s.queue d q).vec.toNat st code cycles) d q st code
    (by rw [hc.2.2]; exact hq) (by rw [hc.queue]; exact hi)
  exact ⟨fun n => (hcore n).trans (hc.core n), hlaunch.trans hc.2.1, hcons.trans (by rw [hc.queue]), hhand⟩

/-! ## Graphs -/

/-- A graph that passes the checks, in a version that its virtual function does not hold yet, is registered (R292). -/
theorem exec_graphRegister_of_ok (s : State) (die v id version : Nat) (nodes : List GraphNode)
    (hv : ([0, 1, 2, 3].find? (fun v => (s.vf v).dies.contains die)) = some v) (hok : graphOk id version nodes = true)
    (hn : s.graphOf v id version = none) : exec (.graphRegister die id version nodes) s = .next { s with
      out := { s.out with answers := true :: s.out.answers }, graphs := s.graphs ++ [⟨id, version, v, nodes⟩] } := by
  have h4 : v < 4 := by
    have := List.mem_of_find?_eq_some hv
    simp only [List.mem_cons, List.not_mem_nil, or_false] at this
    omega
  show execGraphRegister die id version nodes s = _
  unfold execGraphRegister
  simp only [hv, Option.getD_some, hok, hn, h4, decide_true, Option.isNone_none, Bool.and_self, if_true]

/-- A conditional node reads its word, retires, and activates the successor or arms its node once more (R294, log 27). -/
theorem exec_conditionalNode_eq (s : State) (rid k w succ : Nat) (r : GraphRun) (g : Graph) (p : Line)
    (hn : (nth ⟨0, []⟩ g.nodes k).packet = p) (hsucc : (if w ≠ 0 then cnThen p else cnElse p) = succ) (hr : find? s.runs rid = some r)
    (hg : s.graphOf (s.queue r.die r.q).vf r.id r.version = some g) (hp : pkType p = 4) (ha : nth .retired r.nodes k = .active)
    (hd : predsDone g.nodes r.nodes k = true) (hs : s.serves r.die = true) (hw : s.cpRead r.die (s.queue r.die r.q).vf (cnAddr p) 4 = some w) :
    exec (.conditionalNode rid k) s = .next ((State.graphAdvance { s with runs := put s.runs rid { r with
      nodes := if succ < 0xFFFE then setNth (retireNode g.nodes r.nodes k) succ .active else retireNode g.nodes r.nodes k
      rearms := r.rearms + b2n (decide (succ = 0xFFFF) && decide (r.rearms < cnRearmMax p))
      again := r.again || (decide (succ = 0xFFFF) && decide (r.rearms < cnRearmMax p)) } } rid).rewatch [r.die]) := by
  show execConditionalNode rid k s = _
  unfold execConditionalNode
  simp only [hr, hg, hn]
  rw [if_pos ⟨hp, ha, hd, hs⟩, hw]
  simp only [hsucc]

/-- The argument block is the one that the packet names (R287). -/
theorem State.argsOf_eq (s : State) (x : Launch) (args : Nat) (h0 : pkArgLen x.packet ≠ 0)
    (h : pkArgLen x.packet = 0 ∧ args = 0 ∨ s.vfRead x.vf (pkArgAddr x.packet) (pkArgLen x.packet) = some args) : s.argsOf x = args := by
  rcases h with ⟨h, -⟩ | h
  · exact absurd h h0
  · unfold State.argsOf
    rw [if_neg h0, h]
    rfl

/-- Settles O53: a start is the fold that prepares the cores, a retirement the fold that frees them, and a graph's step the model's own
equation. -/
theorem launchesRunAndGraphsBranch : Obligations.LaunchesRunAndGraphsBranch := by
  unfold Obligations.LaunchesRunAndGraphsBranch
  intro s l x hl
  refine ⟨?start, ?retire, ?register, ?choose⟩
  case start =>
    intro i m args hx hc hf hi hs hargs hw hk
    obtain ⟨y, t, hly, hst, hstart, ht, hmode, hcores, hrows, hya, hcore⟩ :=
      s.startLaunch_spec l { x with imode := m, cores := s.mapped x.col0 x.row0 (x.wm1 + 1) (x.hm1 + 1) } i hi (by rw [hx]; simp)
    refine ⟨_, y, t, exec_launchStart_of_ready s l x i m hl hx hc hf hi hs hw hk, hly, hst, hstart, ht, hmode, hcores, fun e he => ?_⟩
    have h := hcore e he
    obtain ⟨hlen, hval⟩ := Prod.ext_iff.mp hya
    have hwords : ∀ n, s.argsOf x % 2 ^ (8 * pkArgLen x.packet) / n = args % 2 ^ (8 * pkArgLen x.packet) / n := fun n => by
      by_cases h0 : pkArgLen x.packet = 0
      · rw [h0, Nat.mul_zero, pow_zero, Nat.mod_one, Nat.mod_one]
      · rw [s.argsOf_eq x args h0 hargs]
    have hargsOf : y.args.2 = s.argsOf x := hval
    refine ⟨h.launch, h.run, h.pc, h.loops, h.imode.trans hmode, h.bound, h.parkmap, h.templates, h.cycle, fun k h1 h2 => ?_, fun hbig j hj => ?_,
      by rw [h.rows, hrows], h.zero, fun j _ => h.cond j, h.slice, h.results, h.queue, h.hmver⟩
    · rw [h.args k h1 h2, hargsOf, hlen, hwords]
    · rw [h.block (by rw [hlen]; exact hbig) j (by rw [hlen]; exact hj), hargsOf, s.argsOf_eq x args (by omega) hargs]
  case retire =>
    intro d q ho hm hs hq hi
    obtain ⟨st, code, cycles, he⟩ := exec_launchRetire_queue s l d q x hl ho hm hs
    obtain ⟨hnone, hqueues, hleft⟩ := s.dropLaunch_spec l x
    have hqd : (s.dropLaunch l x).queue d q = s.queue d q := by rw [State.queue, hqueues]; rfl
    obtain ⟨b, hb⟩ := (s.dropLaunch l x).queue_rewatch (rectDies x.col0 x.row0 (x.wm1 + 1) (x.hm1 + 1)) d q
    rw [hqd] at hb
    obtain ⟨hcore, hlaunch, hcons, hhand⟩ := State.itemDone_queue_spec
      ((s.dropLaunch l x).rewatch (rectDies x.col0 x.row0 (x.wm1 + 1) (x.hm1 + 1))) x.vf d q x.packet st code cycles
      (by rw [State.find?_rewatch, Option.isSome_map, hqueues]; exact hq) (by rw [hb]; exact hi)
    refine ⟨_, he, ?_, by rw [hcons, hb], hhand, fun e hm' hl' => ?_⟩
    · rw [State.launch?, hlaunch]
      exact hnone
    · rw [hcore]
      exact hleft e hm' hl'
  case register => exact fun die v id version nodes hv hok hn => exec_graphRegister_of_ok s die v id version nodes hv hok hn
  case choose =>
    intro rid k w r g y p succ hr hg hp ha hd hs hw
    have h := exec_conditionalNode_eq s rid k w succ r g p rfl rfl hr hg hp ha hd hs hw
    have hmax : cnRearmMax p = pk p 223 192 := rfl
    rw [hmax] at h
    refine ⟨fun hlt => ?_, fun heq => ?_, fun heq hre => ?_⟩ <;> rw [h]
    · have hn : succ ≠ 0xFFFF := by omega
      simp only [hlt, hn, if_true, decide_false, Bool.false_and, b2n, Bool.false_eq_true, if_false, Nat.add_zero, Bool.or_false]
    · have hn : succ ≠ 0xFFFF := by omega
      have hge : ¬succ < 0xFFFE := by omega
      simp only [hge, hn, if_false, decide_false, Bool.false_and, b2n, Bool.false_eq_true, Nat.add_zero, Bool.or_false]
    · have hge : ¬succ < 0xFFFE := by omega
      rw [if_neg hge]
      simp only [heq, hre, decide_true, Bool.and_self, b2n, if_true, Bool.or_true]

end Sys2Proof.Machine
end

section
/-! PROOFS. The address faults of the load/store and fill slots, by the window of the first byte (R206 to R210, R231, R233). -/

open Sys2Proof Sys2Proof.Machine

namespace Sys2Proof.Machine

/-! ## The windows as a list -/

/-- All windows of R206. -/
def allWins : List Win := [.global, .a, .c, .w, .commons, .copyAp, .bankAp, .csr]

theorem mem_allWins (v : Win) : v ∈ allWins := by cases v <;> decide

/-- A window as its first byte, its bytes, and the sub-cause with which it refuses accesses that are not made for it. -/
def State.winEntry (s : State) (n : Nat) (v : Win) : Nat × Nat × Nat := (v.base, v.len (s.die (dieOf n)).hallmark.npresent, v.sub)

theorem State.forall_winEntry (s : State) (n : Nat) (p : Nat × Nat × Nat → Prop) :
    (∀ w ∈ allWins.map (s.winEntry n), p w) ↔ ∀ v, p (s.winEntry n v) :=
  ⟨fun h v => h _ (List.mem_map_of_mem (mem_allWins v)), fun h w hw => by
    obtain ⟨v, -, rfl⟩ := List.mem_map.mp hw
    exact h v⟩

theorem State.exists_winEntry (s : State) (n : Nat) (p : Nat × Nat × Nat → Prop) :
    (∃ w ∈ allWins.map (s.winEntry n), p w) ↔ ∃ v, p (s.winEntry n v) :=
  ⟨fun ⟨w, hw, h⟩ => by
    obtain ⟨v, -, rfl⟩ := List.mem_map.mp hw
    exact ⟨v, h⟩, fun ⟨v, h⟩ => ⟨_, List.mem_map_of_mem (mem_allWins v), h⟩⟩

/-- The first byte lies in no window, or the bytes pass the end of its window (R209). -/
def State.Outside (s : State) (n x len sub : Nat) : Prop :=
  (sub = 1 ∧ ∀ v, ¬ s.Holds n v x 1) ∨ (sub = 2 ∧ ∃ v, s.Holds n v x 1 ∧ ¬ s.Holds n v x len)

/-- A vector access of these bytes faults: they lie in no window, or in one that admits no vector access (R208, R209). -/
def State.BadBytes (s : State) (n x len sub : Nat) : Prop := s.Outside n x len sub ∨ ∃ v, s.Holds n v x len ∧ sub = v.sub ∧ sub ≠ 0

theorem State.Outside.sub_ne {s : State} {n x len sub : Nat} (h : s.Outside n x len sub) : sub ≠ 0 := by
  rcases h with ⟨rfl, -⟩ | ⟨rfl, -⟩ <;> decide

theorem State.BadBytes.sub_ne {s : State} {n x len sub : Nat} (h : s.BadBytes n x len sub) : sub ≠ 0 := by
  rcases h with h | ⟨v, -, -, h⟩
  · exact h.sub_ne
  · exact h

/-- A piece outside every window, or beyond the end of its own. -/
theorem State.groupSub_of_outside {s : State} {n sub : Nat} {p : Plan} {x : Piece} (hs : x.Sized) (h : s.Outside n x.addr x.len sub) :
    s.groupSub n p [x] = sub := by
  rcases h with ⟨rfl, h⟩ | ⟨rfl, v, h1, h2⟩
  · exact State.groupSub_unmapped h
  · exact State.groupSub_straddles h1 (List.forall_mem_singleton.mpr hs) ⟨x, List.mem_singleton_self x, h2⟩

theorem State.groupSub_of_badBytes {s : State} {n sub : Nat} {p : Plan} {x : Piece} (hs : x.Sized) (hc : p.cls = .vload ∨ p.cls = .vstore)
    (h : s.BadBytes n x.addr x.len sub) : s.groupSub n p [x] = sub := by
  rcases h with h | ⟨v, hv, rfl, hne⟩
  · exact State.groupSub_of_outside hs h
  · exact State.groupSub_vector (List.forall_mem_singleton.mpr hs) (List.forall_mem_singleton.mpr hv) hc (fun he => hne (by rw [he]; rfl))

/-- A well-formed instruction whose units serve takes an address trap with these fields (R210). -/
def State.FaultsWith (s : State) (i : Instr) (slots sub lane x : Nat) : Prop := WellFormed i → s.Serves i →
  exec i s = .next (s.takeTrap s.cur ⟨7, slots, sub + lane * 2 ^ 8, BitVec.ofNat 64 x, (s.core s.cur).regs.pc.toNat⟩)

/-! ## Accesses of one piece -/

/-- The instruction accesses `len` bytes at a, as one piece of lane 0. -/
structure State.OneAccess (s : State) (i : Instr) (p : Plan) (len a : Nat) : Prop where
  ls : LsInstr i
  plan : (s.core s.cur).plan i = some p
  one : ∃ v m, p.pieces = [⟨0, a, len, v, m⟩]
  byLane : p.byLane = false
  sized : 0 < len ∧ len ≤ 2 ^ 62
  cls : (p.cls == .pref || (p.cls == .vload || p.cls == .vstore)) = false

section OneAccess

variable {s : State} {i : Instr} {p : Plan} {len a sub : Nat}

/-- The fault of an access of one piece is that of its group. -/
theorem State.OneAccess.faults (h : s.OneAccess i p len a)
    (hsub : ∀ x : Piece, x.addr = a → x.len = len → (∀ y ∈ [x], y.Sized) → s.groupSub s.cur p [x] = sub) (hne : sub ≠ 0) :
    s.FaultsWith i 0x40 sub 0 a := by
  intro hw hs
  obtain ⟨v, m, hx⟩ := h.one
  obtain ⟨hpref, hlane⟩ := Bool.or_eq_false_iff.mp h.cls
  have hg : p.groups = [] ++ [⟨0, a, len, v, m⟩] :: [] := by
    unfold Plan.groups
    rw [h.byLane, if_neg Bool.false_ne_true, hx, if_neg (List.cons_ne_nil _ _)]
    rfl
  have hf := State.planFault_of_first (s := s) (n := s.cur) (by simpa using hpref) hg (by simp) (hsub _ rfl rfl (List.forall_mem_singleton.mpr h.sized)) hne
  rw [hlane, if_neg Bool.false_ne_true] at hf
  exact h.ls.exec_of_planFault hw hs h.plan hf

/-- Bytes that no window holds, or that pass the end of their window. -/
theorem State.OneAccess.faults_outside (h : s.OneAccess i p len a) (ho : s.Outside s.cur a len sub) : s.FaultsWith i 0x40 sub 0 a :=
  h.faults (fun x hx hl hs => State.groupSub_of_outside (hs x (List.mem_singleton_self x)) (by rw [hx, hl]; exact ho)) ho.sub_ne

theorem State.Holds.piece {v : Win} (hv : s.Holds s.cur v a len) (x : Piece) (hx : x.addr = a) (hl : x.len = len) :
    ∀ y ∈ [x], s.Holds s.cur v y.addr y.len :=
  List.forall_mem_singleton.mpr (by rw [hx, hl]; exact hv)

variable {v : Win} (h : s.OneAccess i p len a) (hv : s.Holds s.cur v a len)
include h hv

theorem State.OneAccess.faults_aperture (hc : p.cls = .sload ∨ p.cls = .sstore) (hw : v = .copyAp ∨ v = .bankAp)
    (hb : p.size ≠ 8 ∨ a % 0x1000 ≠ 0) : s.FaultsWith i 0x40 3 0 a :=
  h.faults (fun x hx hl hs => State.groupSub_scalar_aperture hs (hv.piece x hx hl) hc hw (by rw [hx]; exact hb)) (by decide)

theorem State.OneAccess.faults_csr (hc : p.cls = .sload ∨ p.cls = .sstore) (hw : v = .csr)
    (hb : ¬(p.size = 8 ∧ a % 8 = 0 ∧ (s.csrRead s.cur ((a - csrBase) / 8)).isSome = true ∧ (p.cls = .sload ∨ (a - csrBase) / 8 = 1))) :
    s.FaultsWith i 0x40 5 0 a :=
  h.faults (fun x hx hl hs => by rw [State.groupSub_scalar_csr hs (hv.piece x hx hl) hc hw, hx, if_neg hb]) (by decide)

theorem State.OneAccess.faults_commons (hc : p.cls = .sload ∨ p.cls = .sstore) (hw : v = .commons)
    (hr : s.regionAt s.cur (a - commonsBase) = none) : s.FaultsWith i 0x40 3 0 a :=
  h.faults (fun x hx hl hs => State.groupSub_scalar_commons hs (hv.piece x hx hl) hc hw (by rw [hx]; exact hr)) (by decide)

theorem State.OneAccess.faults_atomic (hc : p.cls = .atomic) (hw : v ≠ .global) : s.FaultsWith i 0x40 6 0 a :=
  h.faults (fun x hx hl hs => State.groupSub_atomic_of_ne hs (hv.piece x hx hl) hc hw) (by decide)

theorem State.OneAccess.faults_atomic_unaligned (hc : p.cls = .atomic) (hw : v = .global) (ha : a % p.size ≠ 0) : s.FaultsWith i 0x40 4 0 a :=
  h.faults (fun x hx hl hs => by rw [State.groupSub_atomic_global hs (hv.piece x hx hl) hc hw, hx, if_neg ha]) (by decide)

theorem State.OneAccess.faults_tx {init : Bool} (hc : p.cls = .tx init) (hw : v ≠ .a) : s.FaultsWith i 0x40 (max 3 v.sub) 0 a :=
  h.faults (fun x hx hl hs => State.groupSub_tx_of_ne hs (hv.piece x hx hl) hc hw) (by omega)

theorem State.OneAccess.faults_tx_unaligned {init : Bool} (hc : p.cls = .tx init) (hw : v = .a) (ha : a % 16 ≠ 0) : s.FaultsWith i 0x40 4 0 a :=
  h.faults (fun x hx hl hs => by rw [State.groupSub_tx_a hs (hv.piece x hx hl) hc hw, hx, if_pos ha]) (by decide)

theorem State.OneAccess.faults_tx_value {init : Bool} (hc : p.cls = .tx init) (hw : v = .a) (ha : a % 16 = 0)
    (hb : (s.core s.cur).txValueBad init a p.value = true) : s.FaultsWith i 0x40 8 0 a :=
  h.faults (fun x hx hl hs => by
    rw [State.groupSub_tx_a hs (hv.piece x hx hl) hc hw, hx, if_neg (not_not_intro ha), if_pos hb]) (by decide)

end OneAccess

/-! ## The scalar accesses, atomics and barrier updates -/

theorem LoadInstr.ls {i : Instr} (h : LoadInstr i) : LsInstr i where
  slot := (h.exec_eq State.reset).1
  uniform := (h.exec_eq State.reset).2.2
  exec := fun s => ⟨_, (h.exec_eq s).2.1⟩

theorem StoreInstr.ls {i : Instr} (h : StoreInstr i) : LsInstr i where
  slot := (h.exec_eq State.reset).1
  uniform := (h.exec_eq State.reset).2.2
  exec := fun s => ⟨_, (h.exec_eq s).2.1⟩

section Instructions

variable (s : State) (col : BitVec 3) (b d g : BitVec 6) (sz : BitVec 2) (sgn : Bool) (off : BitVec 32)

theorem State.oneAccess_lds : ∃ p, s.OneAccess (.lds b d sz sgn off) p (2 ^ sz.toNat) (effAddr ((s.core s.cur).sreg b.toNat) off) ∧
    p.cls = .sload ∧ p.size = 2 ^ sz.toNat :=
  ⟨_, ⟨LoadInstr.ls (.inl ⟨_, _, _, _, _, rfl⟩), rfl, ⟨_, _, rfl⟩, rfl, scalarPiece_sized 0 0 0 0 sz, rfl⟩, rfl, rfl⟩

theorem State.oneAccess_sts : ∃ p, s.OneAccess (.sts col b d sz off) p (2 ^ sz.toNat) (effAddr ((s.core s.cur).sreg b.toNat) off) ∧
    p.cls = .sstore ∧ p.size = 2 ^ sz.toNat :=
  ⟨_, ⟨StoreInstr.ls (.inl ⟨_, _, _, _, _, rfl⟩), rfl, ⟨_, _, rfl⟩, rfl, scalarPiece_sized 0 0 0 0 sz, rfl⟩, rfl, rfl⟩

/-- The atomics of which the statement speaks. -/
def AtomicForm (i : Instr) : Prop :=
  i = .atadd col b d sz off ∨ i = .atmaxu col b d sz off ∨ i = .atxch col b d sz off ∨ i = .atcas col b d g sz off

theorem AtomicForm.ls {i : Instr} (h : AtomicForm col b d g sz off i) : LsInstr i := by
  rcases h with rfl | rfl | rfl | rfl
  · exact ⟨rfl, fun _ => rfl, fun _ => ⟨fun z => z.lsAtomic z.cur (.atadd col b d sz off) .add 0, rfl⟩⟩
  · exact ⟨rfl, fun _ => rfl, fun _ => ⟨fun z => z.lsAtomic z.cur (.atmaxu col b d sz off) .maxu 0, rfl⟩⟩
  · exact ⟨rfl, fun _ => rfl, fun _ => ⟨fun z => z.lsAtomic z.cur (.atxch col b d sz off) .xchg 0, rfl⟩⟩
  · exact ⟨rfl, fun _ => rfl, fun _ => ⟨fun z => z.lsAtomic z.cur (.atcas col b d g sz off) .cas ((z.core z.cur).sreg g.toNat), rfl⟩⟩

theorem State.oneAccess_atomic (i : Instr) (h : AtomicForm col b d g sz off i) :
    ∃ p, s.OneAccess i p (2 ^ sz.toNat) (effAddr ((s.core s.cur).sreg b.toNat) off) ∧ p.cls = .atomic ∧ p.size = 2 ^ sz.toNat := by
  have hp : (s.core s.cur).plan i = some ((s.core s.cur).atomicPlan col b d sz off) := by rcases h with rfl | rfl | rfl | rfl <;> rfl
  exact ⟨_, ⟨h.ls, hp, ⟨_, _, rfl⟩, rfl, scalarPiece_sized 0 0 0 0 sz, rfl⟩, rfl, rfl⟩

theorem State.oneAccess_txinit : ∃ p, s.OneAccess (.txinit b d off) p 16 (effAddr ((s.core s.cur).sreg b.toNat) off) ∧
    p.cls = .tx true ∧ p.value = (s.core s.cur).sreg d.toNat :=
  ⟨_, ⟨⟨rfl, fun _ => rfl, fun _ => ⟨fun z => z.lsTx z.cur (.txinit b d off) true, rfl⟩⟩, rfl, ⟨_, _, rfl⟩, rfl, by decide, rfl⟩, rfl, rfl⟩

theorem State.oneAccess_txarv : ∃ p, s.OneAccess (.txarv b d off) p 16 (effAddr ((s.core s.cur).sreg b.toNat) off) ∧
    p.cls = .tx false ∧ p.value = (s.core s.cur).sreg d.toNat :=
  ⟨_, ⟨⟨rfl, fun _ => rfl, fun _ => ⟨fun z => z.lsTx z.cur (.txarv b d off) false, rfl⟩⟩, rfl, ⟨_, _, rfl⟩, rfl, by decide, rfl⟩, rfl, rfl⟩

end Instructions

/-! ## Accesses lane by lane (R209) -/

/-- The instruction accesses, for each of some lanes, the piece of that lane. -/
structure State.LaneAccess (s : State) (i : Instr) (p : Plan) (lanes : List Nat) (piece : Nat → Piece) : Prop where
  ls : LsInstr i
  plan : (s.core s.cur).plan i = some p
  cls : p.cls = .vload ∨ p.cls = .vstore
  pieces : p.pieces = lanes.map piece
  lane : ∀ l, (piece l).lane = l
  sized : ∀ l, (piece l).Sized

section LaneAccess

variable {s : State} {i : Instr} {p : Plan} {lanes : List Nat} {en : LaneMask} {piece : Nat → Piece} {l sub : Nat}

/-- The fault of a vector access whose group starts with the piece of lane l, behind groups that pass. -/
theorem State.LaneAccess.faults_group (h : s.LaneAccess i p lanes piece) {gs hs : List (List Piece)} {r : List Piece}
    (hg : p.groups = gs ++ (piece l :: r) :: hs) (h0 : ∀ g ∈ gs, s.groupSub s.cur p g = 0) (hsub : s.groupSub s.cur p (piece l :: r) = sub)
    (hne : sub ≠ 0) : s.FaultsWith i 0x40 sub l (piece l).addr := by
  intro hw hserve
  have hpref : p.cls ≠ .pref := by rcases h.cls with hc | hc <;> simp [hc]
  have hlane : (p.cls == .vload || p.cls == .vstore) = true := by rcases h.cls with hc | hc <;> simp [hc]
  have hf := State.planFault_of_first hpref hg h0 hsub hne
  rw [if_pos hlane, h.lane] at hf
  exact h.ls.exec_of_planFault hw hserve h.plan hf

/-- A strided or indexed access faults at its first enabled lane whose bytes are bad. -/
theorem State.LaneAccess.faults_lane (h : s.LaneAccess i p (enabled en) piece) (hb : p.byLane = true) (hl : l < 256) (he : en.getLsbD l = true)
    (hbad : s.BadBytes s.cur (piece l).addr (piece l).len sub)
    (hgood : ∀ k, k < l → en.getLsbD k = true → ∃ v, s.Holds s.cur v (piece k).addr (piece k).len ∧ v.sub = 0 ∧ v ≠ .commons) :
    s.FaultsWith i 0x40 sub l (piece l).addr := by
  obtain ⟨xs, ys, e, -⟩ := enabled_split en l hl he
  have hbefore : ∀ k ∈ xs, k < l ∧ en.getLsbD k = true := fun k hk => by
    have hp := enabled_pairwise en
    rw [e, List.pairwise_append] at hp
    exact ⟨hp.2.2 k hk l List.mem_cons_self, ((mem_enabled en k).mp (by rw [e]; simp [hk])).2⟩
  have hg : p.groups = (xs.map (fun k => [piece k])) ++ [piece l] :: ys.map (fun k => [piece k]) := by
    unfold Plan.groups
    rw [if_pos hb, h.pieces, e]
    simp only [List.map_append, List.map_cons, List.map_map]
    rfl
  refine h.faults_group hg (List.forall_mem_map.mpr fun k hk => ?_) (State.groupSub_of_badBytes (h.sized l) h.cls hbad) hbad.sub_ne
  obtain ⟨v, hv, h0, hn⟩ := hgood k (hbefore k hk).1 (hbefore k hk).2
  rw [State.groupSub_vector (List.forall_mem_singleton.mpr (h.sized k)) (List.forall_mem_singleton.mpr hv) h.cls hn, h0]

/-- An access that is judged as a whole faults by the window of its first byte. -/
theorem State.LaneAccess.faults_whole {ys : List Nat} (h : s.LaneAccess i p (l :: ys) piece) (hb : p.byLane = false)
    (hbad : (sub = 1 ∧ ∀ v, ¬ s.Holds s.cur v (piece l).addr 1) ∨
      (sub = 2 ∧ ∃ v, s.Holds s.cur v (piece l).addr 1 ∧ ∃ k ∈ l :: ys, ¬ s.Holds s.cur v (piece k).addr (piece k).len) ∨
      ∃ v, (∀ k ∈ l :: ys, s.Holds s.cur v (piece k).addr (piece k).len) ∧ sub = v.sub ∧ sub ≠ 0) :
    s.FaultsWith i 0x40 sub l (piece l).addr := by
  have hg : p.groups = [] ++ (piece l :: ys.map piece) :: [] := by
    unfold Plan.groups
    rw [hb, if_neg Bool.false_ne_true, h.pieces, List.map_cons, if_neg (List.cons_ne_nil _ _)]
    rfl
  have hsized : ∀ y ∈ piece l :: ys.map piece, y.Sized := by
    rw [← List.map_cons]
    exact List.forall_mem_map.mpr fun k _ => h.sized k
  rcases hbad with ⟨rfl, hn⟩ | ⟨rfl, v, hv, k, hk, hn⟩ | ⟨v, hv, rfl, hne⟩
  · exact h.faults_group hg (by simp) (State.groupSub_unmapped hn) (by decide)
  · refine h.faults_group hg (by simp) (State.groupSub_straddles hv hsized ⟨piece k, ?_, hn⟩) (by decide)
    rw [← List.map_cons]
    exact List.mem_map_of_mem hk
  · have hin : ∀ y ∈ piece l :: ys.map piece, s.Holds s.cur v y.addr y.len := by
      rw [← List.map_cons]
      exact List.forall_mem_map.mpr hv
    exact h.faults_group hg (by simp) (State.groupSub_vector hsized hin h.cls (fun he => hne (by rw [he]; rfl))) hne

/-- An access of one address, for its first enabled lane. -/
theorem State.LaneAccess.faults_one (h : s.LaneAccess i p [l] piece) (hb : p.byLane = false)
    (hbad : s.BadBytes s.cur (piece l).addr (piece l).len sub) : s.FaultsWith i 0x40 sub l (piece l).addr := by
  refine h.faults_whole hb ?_
  rcases hbad with (hn | ⟨h2, v, hv, hn⟩) | ⟨v, hv, hsub⟩
  · exact .inl hn
  · exact .inr (.inl ⟨h2, v, hv, l, List.mem_singleton_self l, hn⟩)
  · exact .inr (.inr ⟨v, List.forall_mem_singleton.mpr hv, hsub⟩)

end LaneAccess

/-- The first enabled lane. -/
theorem enabled_eq_cons (en : LaneMask) (l : Nat) (hl : l < 256) (he : en.getLsbD l = true) (hf : ∀ k, k < l → en.getLsbD k = false) :
    ∃ ys, enabled en = l :: ys := by
  obtain ⟨xs, ys, e, -⟩ := enabled_split en l hl he
  cases xs with
  | nil => exact ⟨ys, e⟩
  | cons k r =>
    have hp := enabled_pairwise en
    rw [e, List.pairwise_append] at hp
    have hk := ((mem_enabled en k).mp (by rw [e]; simp)).2
    rw [hf k (hp.2.2 k List.mem_cons_self l List.mem_cons_self)] at hk
    exact absurd hk Bool.false_ne_true

/-! ## The vector accesses -/

section VectorInstructions

variable (s : State) (col : BitVec 3) (b g : BitVec 6) (k : BitVec 4) (off : BitVec 21) (cl : Bool) (x o : SliceOp) (m : BitVec 6)

/-- An address of 64 bits as the address of a lane's piece. -/
theorem strideAddr_lt (ea : Nat) (g : Word) (l : Nat) : strideAddr ea g l < 2 ^ 64 := by
  unfold strideAddr
  omega

theorem Core.indexAddr_lt (c : Core) (b : Word) (cl : Bool) (x : SliceOp) (l : Nat) : c.indexAddr b cl x l < 2 ^ 64 := by
  unfold Core.indexAddr
  omega

/-- Strided accesses: the piece of lane l stands at its address, ceil(w/2) bytes long (R219). -/
theorem State.laneAccess_strided (i : Instr) (hi : i = .ldvs b g k off cl o ∨ i = .stvs col b g k off cl o) :
    ∃ p piece, s.LaneAccess i p (enabled ((s.core s.cur).mask cl k.toNat)) piece ∧ p.byLane = true ∧ ∀ l, l < 256 →
      (piece l).addr = strideAddr (effAddr ((s.core s.cur).sreg b.toNat) off) ((s.core s.cur).sreg g.toNat) l ∧ (piece l).len = (o.w + 1) / 2 := by
  have haddr : ∀ v l, l < 256 → (lanePiece (nth 0 (strideAddrs (effAddr ((s.core s.cur).sreg b.toNat) off) ((s.core s.cur).sreg g.toNat)) l)
      (o.wm1.toNat + 1) l v).addr = strideAddr (effAddr ((s.core s.cur).sreg b.toNat) off) ((s.core s.cur).sreg g.toNat) l := fun v l hl => by
    rw [nth_strideAddrs _ _ _ hl, lanePiece_addr _ _ _ _ (strideAddr_lt _ _ _)]
  rcases hi with rfl | rfl
  · exact ⟨_, _, ⟨LoadInstr.ls (.inr (.inr (.inl ⟨_, _, _, _, _, _, rfl⟩))), rfl, .inl rfl, rfl, fun _ => rfl, fun _ => lanePiece_sized ..⟩, rfl,
      fun l hl => ⟨haddr 0 l hl, rfl⟩⟩
  · exact ⟨_, _, ⟨StoreInstr.ls (.inr (.inr (.inl ⟨_, _, _, _, _, _, _, rfl⟩))), rfl, .inr rfl, rfl, fun _ => rfl, fun _ => lanePiece_sized ..⟩, rfl,
      fun l hl => ⟨haddr _ l hl, rfl⟩⟩

/-- Indexed accesses (R207, R219). -/
theorem State.laneAccess_indexed (i : Instr) (hi : i = .ldvx b k x cl o ∨ i = .stvx col b k x cl o) :
    ∃ p piece, s.LaneAccess i p (enabled ((s.core s.cur).mask cl k.toNat)) piece ∧ p.byLane = true ∧ ∀ l, l < 256 →
      (piece l).addr = (s.core s.cur).indexAddr ((s.core s.cur).sreg b.toNat) cl x l ∧ (piece l).len = (o.w + 1) / 2 := by
  have haddr : ∀ v l, l < 256 → (lanePiece (nth 0 (indexAddrs ((s.core s.cur).sreg b.toNat) (x.wm1.toNat + 1) ((s.core s.cur).lanes cl x)) l)
      (o.wm1.toNat + 1) l v).addr = (s.core s.cur).indexAddr ((s.core s.cur).sreg b.toNat) cl x l := fun v l hl => by
    rw [Core.nth_indexAddrs _ _ _ _ _ hl, lanePiece_addr _ _ _ _ (Core.indexAddr_lt ..)]
  rcases hi with rfl | rfl
  · exact ⟨_, _, ⟨LoadInstr.ls (.inr (.inr (.inr (.inl ⟨_, _, _, _, _, rfl⟩)))), rfl, .inl rfl, rfl, fun _ => rfl, fun _ => lanePiece_sized ..⟩, rfl,
      fun l hl => ⟨haddr 0 l hl, rfl⟩⟩
  · exact ⟨_, _, ⟨StoreInstr.ls (.inr (.inr (.inr (.inl ⟨_, _, _, _, _, _, rfl⟩)))), rfl, .inr rfl, rfl, fun _ => rfl, fun _ => lanePiece_sized ..⟩,
      rfl, fun l hl => ⟨haddr _ l hl, rfl⟩⟩

/-- A broadcast load reads for its first enabled lane (R222). -/
theorem State.laneAccess_ldvb (l : Nat) (ys : List Nat) (he : enabled ((s.core s.cur).mask cl k.toNat) = l :: ys) :
    ∃ p piece, s.LaneAccess (.ldvb b k off cl o) p [l] piece ∧ p.byLane = false ∧
      (piece l).addr = effAddr ((s.core s.cur).sreg b.toNat) off ∧ (piece l).len = (o.w + 1) / 2 := by
  refine ⟨_, fun l => lanePiece (effAddr ((s.core s.cur).sreg b.toNat) off) (o.wm1.toNat + 1) l 0,
    ⟨LoadInstr.ls (.inr (.inl ⟨_, _, _, _, _, .inr rfl⟩)), rfl, .inl rfl, ?_, fun _ => rfl, fun _ => lanePiece_sized ..⟩, rfl,
    lanePiece_addr _ _ _ _ (BitVec.isLt _), rfl⟩
  rw [loadPlan, LoadDest.pieces_broadcast, he]
  rfl

/-- Accesses of a mask half, 32 bytes for the first enabled lane (R223). -/
theorem State.laneAccess_maskHalf (i : Instr) (hi : i = .ldk b k off cl m ∨ i = .stk col b k off cl m) (l : Nat) (ys : List Nat)
    (he : enabled ((s.core s.cur).mask cl k.toNat) = l :: ys) : ∃ p piece, s.LaneAccess i p [l] piece ∧ p.byLane = false ∧
      (piece l).addr = effAddr ((s.core s.cur).sreg b.toNat) off ∧ (piece l).len = 32 := by
  have hsized : (0 : Nat) < 32 ∧ 32 ≤ 2 ^ 62 := by decide
  rcases hi with rfl | rfl
  · refine ⟨_, fun l => ⟨l, effAddr ((s.core s.cur).sreg b.toNat) off, 32, 0, 0⟩,
      ⟨LoadInstr.ls (.inr (.inr (.inr (.inr ⟨_, _, _, _, _, rfl⟩)))), rfl, .inl rfl, ?_, fun _ => rfl, fun _ => hsized⟩, rfl, rfl, rfl⟩
    rw [loadPlan, LoadDest.pieces_maskHalf, he]
    rfl
  · refine ⟨_, fun l => ⟨l, effAddr ((s.core s.cur).sreg b.toNat) off, 32, ((s.core s.cur).mask cl m.toNat).toNat, ((s.core s.cur).mask cl k.toNat).toNat⟩,
      ⟨StoreInstr.ls (.inr (.inr (.inr (.inr ⟨_, _, _, _, _, _, rfl⟩)))), rfl, .inr rfl, ?_, fun _ => rfl, fun _ => hsized⟩, rfl, rfl, rfl⟩
    show ((enabled ((s.core s.cur).mask cl k.toNat)).take 1).map _ = _
    rw [he]
    rfl

/-- Contiguous accesses, judged as a whole (R209, R219). -/
theorem State.laneAccess_contiguous (i : Instr) (hi : i = .ldv b k off cl o ∨ i = .stv col b k off cl o) :
    ∃ p piece, s.LaneAccess i p (enabled ((s.core s.cur).mask cl k.toNat)) piece ∧ p.byLane = false ∧ ∀ l,
      (piece l).addr = (effAddr ((s.core s.cur).sreg b.toNat) off + o.w * l / 2) % 2 ^ 64 ∧
      (piece l).len = (4 * (o.w * l % 2) + 4 * o.w + 7) / 8 := by
  have key : ∀ ea l v, (contiguousPiece ea (o.wm1.toNat + 1) l v).addr = (ea + o.w * l / 2) % 2 ^ 64 ∧
      (contiguousPiece ea (o.wm1.toNat + 1) l v).len = (4 * (o.w * l % 2) + 4 * o.w + 7) / 8 := fun ea l v => by
    have hw : o.wm1.toNat + 1 = o.w := rfl
    simp only [contiguousPiece, hw, Nat.mul_assoc]
    constructor <;> omega
  rcases hi with rfl | rfl
  · exact ⟨_, _, ⟨LoadInstr.ls (.inr (.inl ⟨_, _, _, _, _, .inl rfl⟩)), rfl, .inl rfl, rfl, fun _ => rfl, fun _ => contiguousPiece_sized ..⟩, rfl,
      fun l => key _ l 0⟩
  · exact ⟨_, _, ⟨StoreInstr.ls (.inr (.inl ⟨_, _, _, _, _, _, rfl⟩)), rfl, .inr rfl, rfl, fun _ => rfl, fun _ => contiguousPiece_sized ..⟩, rfl,
      fun l => key _ l _⟩

end VectorInstructions

/-! ## PARK and UNPK (R233) -/

section Park

variable (s : State) (coff : BitVec 12) (cl : Bool) (o : SliceOp)

theorem Core.parkBad_of_tile (c : Core) (i : Instr) (hi : i = .park coff cl o ∨ i = .unpk coff cl o) (t : Nat)
    (h1 : 128 * coff.toNat / 32768 ≤ t) (h2 : t ≤ (128 * (coff.toNat + o.w) - 1) / 32768) (ht : c.parkmap.getLsbD t = false) :
    c.parkBad i = some (cBase + 128 * coff.toNat) := by
  have hall : ((List.range ((128 * (coff.toNat + o.wm1.toNat + 1) - 1) / 32768 + 1 - 128 * coff.toNat / 32768)).all
      (fun j => c.parkmap.getLsbD (128 * coff.toNat / 32768 + j))) = false := by
    refine List.all_eq_false.mpr ⟨t - 128 * coff.toNat / 32768, List.mem_range.mpr ?_, ?_⟩
    · have hw : coff.toNat + o.wm1.toNat + 1 = coff.toNat + o.w := rfl
      rw [hw]
      omega
    · rw [Nat.add_sub_cancel' h1, ht]
      exact Bool.false_ne_true
  unfold Core.parkBad
  rcases hi with rfl | rfl <;> simp only [hall, Bool.false_eq_true, if_false]

/-- PARK and UNPK of a tile that is not free (R233). -/
theorem State.faults_parkTile (i : Instr) (hi : i = .park coff cl o ∨ i = .unpk coff cl o) (t : Nat)
    (h1 : 128 * coff.toNat / 32768 ≤ t) (h2 : t ≤ (128 * (coff.toNat + o.w) - 1) / 32768) (ht : (s.core s.cur).parkmap.getLsbD t = false) :
    s.FaultsWith i 0x80 7 0 (cBase + 128 * coff.toNat) := by
  intro hw hs
  have hslot : slotOf i = some .sf ∧ (s.core s.cur).plan i = none ∧ (∀ c : Core, c.nonUniform i = none) ∧ ∃ eff, exec i s = slotExec i s eff := by
    rcases hi with rfl | rfl
    · exact ⟨rfl, rfl, fun _ => rfl, (⟨_, rfl⟩ : ∃ eff, execPark coff cl o s = slotExec (.park coff cl o) s eff)⟩
    · exact ⟨rfl, rfl, fun _ => rfl, (⟨_, rfl⟩ : ∃ eff, execUnpk coff cl o s = slotExec (.unpk coff cl o) s eff)⟩
  obtain ⟨hslot, hplan, hu, eff, he⟩ := hslot
  have hc : s.controlFault s.cur i = none := by
    unfold State.controlFault
    rw [hslot]
  have hserve : s.outOfService s.cur i = none := hs
  have hform : instrReasons i = Reasons.none := hw
  rw [he]
  refine slotExec_of_fault s i eff _ ?_
  simp only [State.faultOf, State.illegalFault, hslot, hform, if_pos, State.serviceFault, hserve, hc, State.uniformFault, hu,
    State.addressFault, hplan, (s.core s.cur).parkBad_of_tile coff cl o i hi t h1 h2 ht, Option.map_some, Option.map_none]
  rfl

end Park

end Sys2Proof.Machine
end

section
/-! PROOFS. What stops a bundle at issue (R76): the reasons of the bundle as sets of bits, the verdict from a boundary on, and the trap or the
hold that follows from each reason (R42 to R45, R72 to R80, R210). -/

open Sys2Proof Sys2Proof.Machine
namespace Sys2Proof.Machine

/-! ### SLOTS and DETAIL as sets of bits -/

theorem slot_index_inj (a b : Slot) : a.index = b.index ↔ a = b := by
  cases a <;> cases b <;> decide

theorem testBit_slotBit (sl t : Slot) : (slotBit sl).testBit t.index = true ↔ t = sl := by
  rw [slotBit, Nat.testBit_two_pow, decide_eq_true_iff, slot_index_inj, eq_comm]

/-- A fold of disjunctions has the bits of its start and of every element. -/
theorem testBit_foldl_or {α : Type} (f : α → Nat) (l : List α) (m k : Nat) :
    (l.foldl (fun m e => m ||| f e) m).testBit k = true ↔ m.testBit k = true ∨ ∃ e ∈ l, (f e).testBit k = true := by
  induction l generalizing m with
  | nil => simp
  | cons x xs ih => simp [ih, Nat.testBit_or, or_assoc]

theorem slotMask_testBit (l : List Slot) (sl : Slot) : (slotMask l).testBit sl.index = true ↔ sl ∈ l := by
  rw [slotMask, testBit_foldl_or]
  simp [testBit_slotBit]

theorem ne_zero_of_testBit {m k : Nat} (h : m.testBit k = true) : m ≠ 0 := by
  rintro rfl
  simp at h

theorem slotMask_ne_zero {l : List Slot} {sl : Slot} (h : sl ∈ l) : slotMask l ≠ 0 :=
  ne_zero_of_testBit ((slotMask_testBit l sl).mpr h)

/-- Which bits of DETAIL the decode reasons of one slot give (R77). -/
theorem Reasons.detail_testBit (r : Reasons) :
    r.detail.testBit 0 = r.opcode ∧ r.detail.testBit 1 = r.type ∧ r.detail.testBit 2 = r.operand ∧ r.detail.testBit 3 = r.reserved ∧
      r.detail.testBit 9 = r.csr := by
  obtain ⟨o, t, p, v, c⟩ := r
  revert o t p v c
  decide

theorem Reasons.detail_ne_zero {r : Reasons} (h : r.any = true) : r.detail ≠ 0 := by
  obtain ⟨o, t, p, v, c⟩ := r
  revert o t p v c
  decide

/-! ### The reasons of step 2 -/

/-- The bit j of a reason, when some slot meets it. -/
def reasonBit (m j : Nat) : Nat := if m = 0 then 0 else 2 ^ j

theorem reasonBit_testBit {m : Nat} (h : m ≠ 0) (j : Nat) : (reasonBit m j).testBit j = true := by
  rw [reasonBit, if_neg h, Nat.testBit_two_pow_self]

theorem reasonBit_testBit_of_ne (m : Nat) {j k : Nat} (h : j ≠ k) : (reasonBit m j).testBit k = false := by
  rw [reasonBit, apply_ite (Nat.testBit · k), Nat.testBit_two_pow_of_ne h, Nat.zero_testBit, ite_self]

/-- DETAIL and SLOTS of the slots that have no instruction (R77). -/
def badDetail (b : Bundle) : Nat := b.bad.foldl (fun m e => m ||| e.2.detail) 0
def badSlots (b : Bundle) : Nat := b.bad.foldl (fun m e => m ||| slotBit e.1) 0

/-- SLOTS of the PORTS and TILES reasons between `mx` and `sf` (R76). -/
def portMask (b : Bundle) : Nat := if share (fixedPorts (b.at .mx)) (fixedPorts (b.at .sf)) then slotMask [.mx, .sf] else 0
def tileMask (b : Bundle) : Nat := if share (mxTiles (b.at .mx)) (sfTiles (b.at .sf)) then slotMask [.mx, .sf] else 0

theorem stepTwo_eq (b : Bundle) : stepTwo b =
    (badDetail b ||| reasonBit (slotMask (overlapSlots b.acts)) 4 ||| reasonBit (portMask b) 5 |||
      reasonBit (slotMask (creadSlots b.acts)) 6 ||| reasonBit (tileMask b) 7 ||| reasonBit (aloneMask b b.acts) 8,
      badSlots b ||| slotMask (overlapSlots b.acts) ||| slotMask (creadSlots b.acts) ||| aloneMask b b.acts ||| portMask b ||| tileMask b) := by
  have hpair : ∀ (l : List (Slot × Reasons)) (m : Nat × Nat), l.foldl (fun (m : Nat × Nat) e => (m.1 ||| e.2.detail, m.2 ||| slotBit e.1)) m =
      (l.foldl (fun m e => m ||| e.2.detail) m.1, l.foldl (fun m e => m ||| slotBit e.1) m.2) := by
    intro l
    induction l with
    | nil => exact fun _ => rfl
    | cons x xs ih => exact fun m => ih _
  rw [stepTwo, hpair]
  rfl

/-- A bundle meets a reason of step 2 on a slot: DETAIL and SLOTS have its bits. -/
def MeetsReason (b : Bundle) (reason : Nat) (sl : Slot) : Prop :=
  (stepTwo b).1.testBit reason = true ∧ (stepTwo b).2.testBit sl.index = true

theorem meetsReason_overlap {b : Bundle} {sl : Slot} (h : sl ∈ overlapSlots b.acts) : MeetsReason b 4 sl := by
  rw [MeetsReason, stepTwo_eq]
  simp [Nat.testBit_or, reasonBit_testBit (slotMask_ne_zero h), (slotMask_testBit _ _).mpr h]

theorem meetsReason_ports {b : Bundle} {sl : Slot} (h : share (fixedPorts (b.at .mx)) (fixedPorts (b.at .sf)) = true)
    (hs : sl ∈ [Slot.mx, .sf]) : MeetsReason b 5 sl := by
  have hm : portMask b = slotMask [.mx, .sf] := if_pos h
  rw [MeetsReason, stepTwo_eq, hm]
  simp [Nat.testBit_or, reasonBit_testBit (slotMask_ne_zero hs), (slotMask_testBit _ _).mpr hs]

theorem meetsReason_cread {b : Bundle} {sl : Slot} (h : sl ∈ creadSlots b.acts) : MeetsReason b 6 sl := by
  rw [MeetsReason, stepTwo_eq]
  simp [Nat.testBit_or, reasonBit_testBit (slotMask_ne_zero h), (slotMask_testBit _ _).mpr h]

theorem meetsReason_tiles {b : Bundle} {sl : Slot} (h : share (mxTiles (b.at .mx)) (sfTiles (b.at .sf)) = true)
    (hs : sl ∈ [Slot.mx, .sf]) : MeetsReason b 7 sl := by
  have hm : tileMask b = slotMask [.mx, .sf] := if_pos h
  rw [MeetsReason, stepTwo_eq, hm]
  simp [Nat.testBit_or, reasonBit_testBit (slotMask_ne_zero hs), (slotMask_testBit _ _).mpr hs]

theorem meetsReason_alone {b : Bundle} {sl : Slot} (h : (aloneMask b b.acts).testBit sl.index = true) : MeetsReason b 8 sl := by
  rw [MeetsReason, stepTwo_eq]
  simp [Nat.testBit_or, reasonBit_testBit (ne_zero_of_testBit h), h]

/-- The bits of DETAIL that only decode reasons give (R77). -/
theorem stepTwo_testBit_decode (b : Bundle) {k : Nat} (hk : k < 4 ∨ k = 9) :
    (stepTwo b).1.testBit k = true ↔ ∃ e ∈ b.bad, e.2.detail.testBit k = true := by
  have ho : ∀ m j, 4 ≤ j → j ≤ 8 → (reasonBit m j).testBit k = false := fun m j h1 h2 => reasonBit_testBit_of_ne m (by omega)
  rw [stepTwo_eq]
  simp only [Nat.testBit_or, ho _ 4, ho _ 5, ho _ 6, ho _ 7, ho _ 8, Nat.le_refl, Nat.reduceLeDiff, Bool.or_false]
  rw [badDetail, testBit_foldl_or]
  simp

theorem stepTwo_decode (b : Bundle) :
    ((stepTwo b).1.testBit 0 = true ↔ ∃ e ∈ b.bad, e.2.opcode = true) ∧ ((stepTwo b).1.testBit 1 = true ↔ ∃ e ∈ b.bad, e.2.type = true) ∧
      ((stepTwo b).1.testBit 2 = true ↔ ∃ e ∈ b.bad, e.2.operand = true) ∧
      ((stepTwo b).1.testBit 3 = true ↔ ∃ e ∈ b.bad, e.2.reserved = true) ∧
      ((stepTwo b).1.testBit 9 = true ↔ ∃ e ∈ b.bad, e.2.csr = true) := by
  have hlow : ∀ k, k < 4 → ((stepTwo b).1.testBit k = true ↔ ∃ e ∈ b.bad, e.2.detail.testBit k = true) :=
    fun k hk => stepTwo_testBit_decode b (.inl hk)
  simp only [hlow 0 (by decide), hlow 1 (by decide), hlow 2 (by decide), hlow 3 (by decide), stepTwo_testBit_decode b (.inr rfl),
    Reasons.detail_testBit, and_self]

theorem stepTwo_marks_bad {b : Bundle} {e : Slot × Reasons} (h : e ∈ b.bad) : (stepTwo b).2.testBit e.1.index = true := by
  have hb : (badSlots b).testBit e.1.index = true :=
    (testBit_foldl_or _ _ _ _).mpr (.inr ⟨e, h, (testBit_slotBit _ _).mpr rfl⟩)
  rw [stepTwo_eq]
  simp [Nat.testBit_or, hb]

theorem stepTwo_ne_zero_of_bad {b : Bundle} {e : Slot × Reasons} (h : e ∈ b.bad) (ha : e.2.any = true) : (stepTwo b).1 ≠ 0 := by
  obtain ⟨k, hk⟩ := Nat.exists_testBit_of_ne_zero (Reasons.detail_ne_zero ha)
  have hb : (badDetail b).testBit k = true := (testBit_foldl_or _ _ _ _).mpr (.inr ⟨e, h, hk⟩)
  refine ne_zero_of_testBit (k := k) ?_
  rw [stepTwo_eq]
  simp [Nat.testBit_or, hb]

theorem decodeLine_bad_any {l : Line} {e : Slot × Reasons} (h : e ∈ (decodeLine l).bad) : e.2.any = true :=
  (List.mem_filter.mp h).2

/-! ### When a bundle meets a reason -/

theorem LocRange.meets_comm (a b : LocRange) : a.meets b = b.meets a := by
  rw [LocRange.meets, LocRange.meets, Bool.beq_comm, Bool.and_assoc, Bool.and_assoc, Bool.and_comm (decide (a.lo < _))]

theorem locsMeet_comm (a b : List LocRange) : locsMeet a b = locsMeet b a := by
  rw [Bool.eq_iff_iff]
  simp only [locsMeet, List.any_eq_true]
  exact ⟨fun ⟨x, hx, y, hy, h⟩ => ⟨y, hy, x, hx, by rwa [LocRange.meets_comm]⟩,
    fun ⟨x, hx, y, hy, h⟩ => ⟨y, hy, x, hx, by rwa [LocRange.meets_comm]⟩⟩

theorem mem_overlapSlots {l : List (Slot × Instr)} {e f : Slot × Instr} (he : e ∈ l) (hf : f ∈ l) (hne : e.1 ≠ f.1)
    (h : locsMeet (destsOf e.2) (destsOf f.2) = true) : e.1 ∈ overlapSlots l :=
  List.mem_map.mpr ⟨e, List.mem_filter.mpr ⟨he, List.any_eq_true.mpr ⟨f, hf, by simp [hne, h]⟩⟩, rfl⟩

theorem mem_creadSlots {l : List (Slot × Instr)} {e : Slot × Instr} {cl : Bool} (he : e ∈ l) (hc : (cReads e.2).contains cl = true)
    (h : 4 < ((l.flatMap (fun e => cReads e.2)).filter (· == cl)).length) : e.1 ∈ creadSlots l :=
  List.mem_map.mpr ⟨e, List.mem_filter.mpr ⟨he, List.any_eq_true.mpr ⟨cl, by simpa using hc, decide_eq_true h⟩⟩, rfl⟩

/-- Reads that count have an instruction that makes them. -/
theorem exists_cRead {l : List (Slot × Instr)} {cl : Bool} (h : 4 < ((l.flatMap (fun e => cReads e.2)).filter (· == cl)).length) :
    ∃ e ∈ l, (cReads e.2).contains cl = true := by
  obtain ⟨x, hx⟩ := List.exists_mem_of_length_pos (Nat.lt_of_le_of_lt (Nat.zero_le 4) h)
  obtain ⟨hm, hxc⟩ := List.mem_filter.mp hx
  obtain ⟨e, he, hxe⟩ := List.mem_flatMap.mp hm
  exact ⟨e, he, by rw [← eq_of_beq hxc]; simpa using hxe⟩

theorem one_lt_length_of_ne {α : Type} {l : List α} {x y : α} (hx : x ∈ l) (hy : y ∈ l) (h : x ≠ y) : 1 < l.length := by
  match l, hx, hy with
  | [z], hx, hy => exact absurd ((List.mem_singleton.mp hx).trans (List.mem_singleton.mp hy).symm) h
  | _ :: _ :: _, _, _ => exact Nat.le_add_left 2 _

theorem aloneMask_testBit {b : Bundle} {e : Slot × Instr} (he : e ∈ b.acts) (ha : standsAlone e.2 = true)
    (h : (∃ f ∈ b.acts, f.1 ≠ e.1) ∨ b.mark = true ∨ b.segb = true) {sl : Slot}
    (hs : sl ∈ b.acts.map (fun f => f.1) ++ if b.mark || b.segb then [.ct] else []) : (aloneMask b b.acts).testBit sl.index = true := by
  have hcond : (b.acts.any (fun e => standsAlone e.2) && (decide (1 < b.acts.length) || b.mark || b.segb)) = true := by
    have hany : b.acts.any (fun e => standsAlone e.2) = true := List.any_eq_true.mpr ⟨e, he, ha⟩
    rcases h with ⟨f, hf, hne⟩ | h | h
    · simp [hany, one_lt_length_of_ne hf he (fun hfe => hne (congrArg Prod.fst hfe))]
    · simp [hany, h]
    · simp [hany, h]
  rw [aloneMask, if_pos hcond, Nat.testBit_or]
  rcases List.mem_append.mp hs with hs | hs
  · simp only [(slotMask_testBit _ _).mpr hs, Bool.true_or]
  · split at hs
    case isTrue hm => rw [List.mem_singleton.mp hs, if_pos hm]; simp [Slot.index]
    case isFalse => simp at hs

/-! ### From a boundary to the verdict -/

section
variable {s : State} {n : Nat} (hb : (s.core n).atBoundary s.now = true) (hp : (s.core n).pendNow = none) (hf : (s.core n).failed = false)
  (hs : (s.core n).stopNext = none)
include hb hp hf hs

/-- Nothing earlier stands at the boundary, so the bundle at the pc is attempted (R307). -/
theorem State.issueCore_eq_attempt : s.issueCore n = s.attempt n := by
  rw [State.issueCore, if_pos hb, State.boundary]
  simp only [hp, hf, hs, Bool.false_eq_true, if_false]

theorem State.issueCore_of_trap (hg : s.segmentStep n = s) {t : TrapRec} (hv : s.verdict n = .trap t) : s.issueCore n = s.takeTrap n t := by
  rw [State.issueCore_eq_attempt hb hp hf hs, State.attempt, hg]
  simp only [hv]

theorem State.issueCore_of_hold (hg : s.segmentStep n = s) {k : HoldCause} {a : Nat} (hv : s.verdict n = .hold k a) (hd : (s.core n).debugNow = false) :
    s.issueCore n = s.holdCycle n k a := by
  rw [State.issueCore_eq_attempt hb hp hf hs, State.attempt, hg]
  simp only [hv, hd, Bool.false_eq_true, if_false]

end

section
variable {s : State} {n : Nat}

theorem State.verdict_pool {l : Line} (hb : (s.core n).bound = 0) (hl : s.lineAt n (s.core n).regs.pc.toNat = .line l)
    (hp : s.poolLine n (s.core n).regs.pc.toNat = true) : s.verdict n = .trap ((s.core n).trapAt 2 0 0 0) := by
  simp [State.verdict, hl, hp, hb]

theorem State.verdict_broken {sub : Nat} (hb : (s.core n).bound = 0) (hl : s.lineAt n (s.core n).regs.pc.toNat = .broken sub) :
    s.verdict n = .trap ((s.core n).trapAt 12 0 sub (s.lineAddr n (s.core n).regs.pc.toNat)) := by
  simp [State.verdict, hl, hb]

theorem State.StandsAt.verdict {l : Line} (h : s.StandsAt n l) : s.verdict n = s.bundleVerdict n (decodeLine l) := by
  obtain ⟨-, -, -, -, -, hl, hp, hd⟩ := h
  have hlate : ¬((s.core n).bound ≠ 0 ∧ (s.core n).bound.toNat + 1 ≤ (s.core n).markDist) := by
    rintro ⟨h0, h1⟩
    rcases hd with hd | hd
    · exact h0 hd
    · omega
  simp only [State.verdict, hl, hp, Bool.false_eq_true, if_false, if_neg hlate]

theorem State.StandsAt.traps {l : Line} (h : s.StandsAt n l) {cause slots detail : Nat}
    (hv : s.bundleVerdict n (decodeLine l) = .trap ((s.core n).trapAt cause slots detail 0)) :
    s.issueCore n = s.takeTrap n ⟨cause, slots, detail, 0, (s.core n).regs.pc.toNat⟩ := by
  obtain ⟨hb, hp, hf, hs, hg, -⟩ := id h
  exact State.issueCore_of_trap hb hp hf hs hg (h.verdict.trans hv)

/-- The bundle at the pc is illegal for a reason on some slots: it traps with cause 0x01, the reason's bit and the slots' bits (R77). -/
def State.Illegal (s : State) (n : Nat) (reason : Nat) (sls : List Slot) : Prop :=
  ∃ r m, s.issueCore n = s.takeTrap n ⟨1, m, r, 0, (s.core n).regs.pc.toNat⟩ ∧ r.testBit reason = true ∧
    ∀ sl ∈ sls, m.testBit sl.index = true

/-- Step 2 of R76 comes before every other check of the bundle. -/
theorem State.bundleVerdict_stepTwo {b : Bundle} (h : (stepTwo b).1 ≠ 0) :
    s.bundleVerdict n b = .trap ((s.core n).trapAt 1 (stepTwo b).2 (stepTwo b).1 0) := by
  rw [State.bundleVerdict]
  exact if_pos h

theorem State.StandsAt.illegal {l : Line} (h : s.StandsAt n l) {reason : Nat} {sls : List Slot} (hn : sls ≠ [])
    (hm : ∀ sl ∈ sls, MeetsReason (decodeLine l) reason sl) : s.Illegal n reason sls := by
  obtain ⟨sl, hsl⟩ := List.exists_mem_of_ne_nil sls hn
  obtain ⟨hr, -⟩ := hm sl hsl
  exact ⟨_, _, h.traps (State.bundleVerdict_stepTwo (ne_zero_of_testBit hr)), hr, fun x hx => (hm x hx).2⟩

/-! ### Hazards -/

theorem firstHazard_eq_none (l : List Hazard) : firstHazard l = none ↔ l = [] := by
  have hsome : ∀ (l : List Hazard) (m : Hazard), (l.foldl (fun m h => match m with
      | none => some h
      | some x => if hazardLess h x then some h else some x) (some m)) ≠ none := by
    intro l
    induction l with
    | nil => simp
    | cons x xs ih =>
      intro m
      simp only [List.foldl_cons]
      split <;> exact ih _
  cases l with
  | nil => simp [firstHazard]
  | cons x xs => simp only [firstHazard, List.foldl_cons, reduceCtorEq, iff_false]; exact hsome xs x

theorem mem_hazards_of_regHazards {b : Bundle} {e : Slot × Instr} (he : e ∈ b.acts) (h : s.regHazards n e.2 ≠ []) :
    ∃ x, (e.1, x) ∈ s.hazards n b := by
  obtain ⟨x, hx⟩ := Option.ne_none_iff_exists'.mp fun h0 =>
    h (List.append_eq_nil_iff.mp ((firstHazard_eq_none (s.regHazards n e.2 ++ s.tileHazards n e.1 e.2)).mp h0)).1
  exact ⟨x, List.mem_filterMap.mpr ⟨e, he, by rw [hx]; rfl⟩⟩

theorem meetHazards_ne_nil {kind : Nat} {l : List LocRange} {r : Result} (h : locsMeet l r.locs = true) : meetHazards kind l r ≠ [] := by
  simp only [locsMeet, List.any_eq_true] at h
  obtain ⟨a, ha, y, hy, hm⟩ := h
  exact List.ne_nil_of_mem (List.mem_flatMap.mpr ⟨a, ha, List.mem_map.mpr ⟨y, List.mem_filter.mpr ⟨hy, hm⟩, rfl⟩⟩)

/-- A source of a result still in flight, or a destination that would land no later, is a hazard (R42). -/
theorem State.regHazards_ne_nil {i : Instr} {r : Result} (hr : r ∈ (s.core n).results) (hl : s.now < r.land)
    (h : locsMeet (sourcesOf i) r.locs = true ∨
      ∃ lat, s.latOf n i = some lat ∧ s.now + lat ≤ r.land ∧ locsMeet (destsOf i) r.locs = true) : s.regHazards n i ≠ [] := by
  rw [State.regHazards]
  refine fun h0 => ?_
  have hnil := List.append_eq_nil_iff.mp (List.flatMap_eq_nil_iff.mp h0 r (List.mem_filter.mpr ⟨hr, decide_eq_true hl⟩))
  rcases h with h | ⟨lat, hlat, hle, h⟩
  · exact meetHazards_ne_nil h hnil.1
  · have h2 := hnil.2
    simp only [hlat] at h2
    split at h2
    · exact meetHazards_ne_nil h h2
    · rw [if_pos (by omega)] at h2
      exact meetHazards_ne_nil h h2

/-- A hazard raises the shadow fault in native mode (R43). -/
theorem State.StandsAt.shadowFault {l : Line} (h : s.StandsAt n l) (h2 : stepTwo (decodeLine l) = (0, 0)) (hi : (s.core n).imode = false)
    {sl : Slot} {x : Hazard} (hx : (sl, x) ∈ s.hazards n (decodeLine l)) :
    ∃ m d, s.issueCore n = s.takeTrap n ⟨10, m, d, 0, (s.core n).regs.pc.toNat⟩ ∧ m.testBit sl.index = true := by
  cases hz : s.hazards n (decodeLine l) with
  | nil => rw [hz] at hx; simp at hx
  | cons y rest =>
    refine ⟨slotMask (y.1 :: rest.map (fun e => e.1)), hazardDetail y.2, h.traps ?_, (slotMask_testBit _ _).mpr ?_⟩
    · simp [State.bundleVerdict, h2, hz, hi]
    · rw [hz] at hx
      exact List.mem_map.mpr ⟨(sl, x), hx, rfl⟩

/-- A hazard holds the bundle in interlocked mode (R44, R46). -/
theorem State.StandsAt.shadowHold {l : Line} (h : s.StandsAt n l) (h2 : stepTwo (decodeLine l) = (0, 0)) (hi : (s.core n).imode = true)
    (hz : s.hazards n (decodeLine l) ≠ []) (hb : s.bankHold n (decodeLine l) = false) (hl : (s.core n).late s.now (decodeLine l).ct = false)
    (hd : (s.core n).debugNow = false) : s.issueCore n = s.holdCycle n .shadow 0 := by
  have hhold : s.holdOf n (decodeLine l) true = some (.shadow, 0) := by simp [State.holdOf, hb, hl]
  obtain ⟨ha, hp, hf, hs, hg, -⟩ := id h
  refine State.issueCore_of_hold ha hp hf hs hg (h.verdict.trans ?_) hd
  have hne : (!(s.hazards n (decodeLine l)).isEmpty) = true := by simpa using hz
  simp [State.bundleVerdict, h2, hi, hne, hhold]

/-! ### The checks of the issue cycle -/

/-- Nothing before the checks of the issue cycle stops the bundle: no hazard, no MARKBUSY and no hold. -/
def State.Unheld (s : State) (n : Nat) (b : Bundle) : Prop :=
  stepTwo b = (0, 0) ∧ s.hazards n b = [] ∧ (b.mark = true → (s.core n).busy s.now = false) ∧ s.holdOf n b false = none

theorem State.Unheld.verdict {b : Bundle} (h : s.Unheld n b) {t : TrapRec} (ht : s.issueChecks n b = some t) : s.bundleVerdict n b = .trap t := by
  obtain ⟨h2, hz, hm, hh⟩ := h
  have hmark : (b.mark && !(s.core n).imode && (s.core n).busy s.now) = false := by
    cases hb : b.mark with
    | false => rfl
    | true => rw [hm hb, Bool.and_false]
  simp [State.bundleVerdict, h2, hz, hmark, hh, ht]

theorem State.issueChecks_stepFour {b : Bundle} (h : ((s.core n).stepFour b).1 ≠ 0) :
    s.issueChecks n b = some ((s.core n).trapAt 1 ((s.core n).stepFour b).2 ((s.core n).stepFour b).1 0) := by
  simp [State.issueChecks, h]

theorem State.StandsAt.illegal_stepFour {l : Line} (h : s.StandsAt n l) (hu : s.Unheld n (decodeLine l)) {reason : Nat} {sls : List Slot}
    (hr : ((s.core n).stepFour (decodeLine l)).1.testBit reason = true)
    (hm : ∀ x ∈ sls, ((s.core n).stepFour (decodeLine l)).2.testBit x.index = true) : s.Illegal n reason sls :=
  ⟨_, _, h.traps (hu.verdict (State.issueChecks_stepFour (ne_zero_of_testBit hr))), hr, hm⟩

section
variable {c : Core} {b : Bundle} {q : Plan} (hq : c.plan (b.at .ls) = some q)
include hq

theorem Core.stepFour_mxPort (h : share q.ports (fixedPorts (b.at .mx)) = true) :
    (c.stepFour b).1.testBit 5 = true ∧ ∀ sl ∈ [Slot.mx, .ls], (c.stepFour b).2.testBit sl.index = true := by
  have hm := fun sl => (slotMask_testBit [.mx, .ls] sl).mpr
  simp only [Core.stepFour, hq, h, Nat.testBit_or]
  exact ⟨by simp [Nat.testBit], fun sl hs => by simp [hm sl hs]⟩

theorem Core.stepFour_sfPort (h : share q.ports (fixedPorts (b.at .sf)) = true) :
    (c.stepFour b).1.testBit 5 = true ∧ ∀ sl ∈ [Slot.ls, .sf], (c.stepFour b).2.testBit sl.index = true := by
  have hm := fun sl => (slotMask_testBit [.ls, .sf] sl).mpr
  simp only [Core.stepFour, hq, h, Nat.testBit_or]
  exact ⟨by simp [Nat.testBit], fun sl hs => by simp [hm sl hs]⟩

theorem Core.stepFour_tiles (hc : q.ports.contains .cAccess = true) (h : share q.tiles (mxTiles (b.at .mx)) = true) :
    (c.stepFour b).1.testBit 7 = true ∧ ∀ sl ∈ [Slot.mx, .ls], (c.stepFour b).2.testBit sl.index = true := by
  have hm := fun sl => (slotMask_testBit [.mx, .ls] sl).mpr
  simp only [Core.stepFour, hq, hc, h, Nat.testBit_or]
  exact ⟨by simp [Nat.testBit], fun sl hs => by simp [hm sl hs]⟩

end

/-- Address faults on `ls` and `sf` together mark both slots and give the `ls` fault (R210, log 16). -/
theorem State.StandsAt.bothAddresses {l : Line} (h : s.StandsAt n l) (hu : s.Unheld n (decodeLine l))
    (h4 : ((s.core n).stepFour (decodeLine l)).1 = 0) (hv : s.bundleService n (decodeLine l) = none)
    (hm : (s.core n).markBad (decodeLine l) = false) (hc : s.controlFault n (decodeLine l).ct = none)
    (hn : (s.core n).uniformCheck (decodeLine l) = none) {t u : TrapRec} (ht : s.addressFault n ((decodeLine l).at .ls) = some t)
    (hsf : s.addressFault n ((decodeLine l).at .sf) = some u) : s.issueCore n = s.takeTrap n { t with slots := 0xC0 } := by
  have hmask : slotMask [.ls, .sf] = 0xC0 := by decide
  obtain ⟨ha, hp, hf, hs, hg, -⟩ := id h
  refine State.issueCore_of_trap ha hp hf hs hg (h.verdict.trans (hu.verdict ?_))
  simp [State.issueChecks, State.addressCheck, h4, hv, hm, hc, hn, ht, hsf, hmask]

end

end Sys2Proof.Machine
end

section
/-! PROOFS. Address faults, illegal bundles, pool lines and early reads of pending results. -/

open Sys2Proof Sys2Proof.Machine

namespace Sys2Proof.Machine

/-! ## The windows of the statement -/

theorem State.csrRead_isSome_iff (s : State) (n idx : Nat) : (s.csrRead n idx).isSome = true ↔ idx < 7 ∨ (8 ≤ idx ∧ idx < 12) := by
  by_cases h : idx < 12
  · interval_cases idx <;> simp [State.csrRead]
  · obtain ⟨m, rfl⟩ := Nat.exists_eq_add_of_le (Nat.le_of_not_lt h)
    rw [Nat.add_comm 12 m]
    simp [State.csrRead]

theorem two_pow_size_eq_eight_iff (sz : BitVec 2) : 2 ^ sz.toNat = 8 ↔ sz = 3 := by
  revert sz
  decide

theorem Win.sub_eq_three_iff (v : Win) : v.sub = 3 ↔ v = .copyAp ∨ v = .bankAp := by cases v <;> simp [Win.sub]

theorem Win.sub_eq_five_iff (v : Win) : v.sub = 5 ↔ v = .csr := by cases v <;> simp [Win.sub]

theorem Win.base_eq_commons_iff (v : Win) : v.base = commonsBase ↔ v = .commons := by
  obtain ⟨ha, hc, hw, hb, h1, h2, h3⟩ := window_bases
  cases v <;> simp only [Win.base, reduceCtorEq, iff_false] <;> omega

/-- A barrier value that R231 refuses. -/
theorem Core.txValueBad_init (c : Core) (a : Nat) (x : Word) (h : x = 0 ∨ 2 ^ 20 ≤ x.toNat) : c.txValueBad true a x = true := by
  unfold Core.txValueBad
  rcases h with rfl | h
  · simp
  · have : 2 ^ 20 - 1 < x.toNat := by omega
    simp only [if_true, this, decide_true, Bool.or_true]

/-- An arrival whose count R231 refuses, or at a barrier that awaits none. -/
theorem Core.txValueBad_arv (c : Core) (a : Nat) (x : Word) (h : x.toInt < -(2 ^ 39 : Nat) ∨ (2 ^ 39 : Nat) ≤ x.toInt ∨
    c.bufRead .a (a - aBase) 16 / 16 % 2 ^ 20 = 0) : c.txValueBad false a x = true := by
  have harr : txArrivals (c.bufRead .a (a - aBase) 16) = c.bufRead .a (a - aBase) 16 / 16 % 2 ^ 20 := bits_eq_div_mod _ 23 4
  unfold Core.txValueBad
  rw [if_neg Bool.false_ne_true, harr]
  rcases h with h | h | h
  · simp only [h, decide_true, Bool.true_or]
  · have : ((2 ^ 39 - 1 : Nat) : Int) < x.toInt := by omega
    simp only [this, decide_true, Bool.true_or, Bool.or_true]
  · simp only [h, decide_true, Bool.or_true]

/-- Settles O44. The address half: every form that accesses memory is one access, or a group of lanes, at a known address, and the windows of the
statement are the windows of the model, so that each fault is a case of the checks on such an access. The issue half: from a boundary on, the verdict of
R76 meets the reasons in their order, and the first that stands decides. -/
theorem addressFaultsAndIssueTraps : Obligations.AddressFaultsAndIssueTraps := by
  unfold Obligations.AddressFaultsAndIssueTraps
  refine ⟨?address, ?issue⟩
  case address =>
    intro s col b d g sz sgn off k voff cl o idx m coff c n a commons wins holds outside bad good traps faults en ea strided indexed bytes byLane
    have hwins : wins = allWins.map (s.winEntry s.cur) := rfl
    have ha : effAddr (c.sreg b.toNat) off = a := effAddr_toNat ..
    have hea : effAddr (c.sreg b.toNat) voff = ea := effAddr_toNat ..
    have hsz : n = 8 ↔ sz = 3 := two_pow_size_eq_eight_iff sz
    have houtside : ∀ x len sub, outside x len sub → s.Outside s.cur x len sub := by
      rintro x len sub (⟨rfl, h⟩ | ⟨rfl, h⟩)
      · exact .inl ⟨rfl, (s.forall_winEntry s.cur fun w => ¬ holds w x 1).mp h⟩
      · exact .inr ⟨rfl, (s.exists_winEntry s.cur fun w => holds w x 1 ∧ ¬ holds w x len).mp h⟩
    have hbad : ∀ x len sub, bad x len sub → s.BadBytes s.cur x len sub := by
      rintro x len sub (h | h)
      · exact .inl (houtside x len sub h)
      · exact .inr ((s.exists_winEntry s.cur fun w => holds w x len ∧ sub = w.2.2 ∧ sub ≠ 0).mp h)
    have hgood : ∀ x len, good x len → ∃ v, s.Holds s.cur v x len ∧ v.sub = 0 ∧ v ≠ .commons := by
      intro x len h
      obtain ⟨v, hv, h0, hn⟩ := (s.exists_winEntry s.cur fun w => holds w x len ∧ w.2.2 = 0 ∧ w.1 ≠ commons).mp h
      exact ⟨v, hv, h0, fun he => hn (by rw [he]; rfl)⟩
    have hlane : ∀ (i : Instr) (addr : Nat → Nat), (∃ p piece, s.LaneAccess i p (enabled en) piece ∧ p.byLane = true ∧
        ∀ l, l < 256 → (piece l).addr = addr l ∧ (piece l).len = bytes) → byLane i addr := by
      rintro i addr ⟨p, piece, hp, hb, hpiece⟩ l sub hl he hb' hg
      obtain ⟨haddr, hlen⟩ := hpiece l hl
      refine haddr ▸ hp.faults_lane hb hl he (by rw [haddr, hlen]; exact hbad _ _ _ hb') fun h hh hhe => ?_
      obtain ⟨haddr', hlen'⟩ := hpiece h (hh.trans hl)
      rw [haddr', hlen']
      exact hgood _ _ (hg h hh hhe)
    have hstrided : ∀ i, i = .ldvs b g k voff cl o ∨ i = .stvs col b g k voff cl o → byLane i strided := fun i hi => by
      have h := s.laneAccess_strided col b g k voff cl o i hi
      rw [hea] at h
      exact hlane _ _ h
    obtain ⟨pl, hl, hlc, hls⟩ := s.oneAccess_lds b d sz sgn off
    obtain ⟨ps, hs, hsc, hss⟩ := s.oneAccess_sts col b d sz off
    obtain ⟨pi, hi, hic, hiv⟩ := s.oneAccess_txinit b d off
    obtain ⟨pa, hx, hxc, hxv⟩ := s.oneAccess_txarv b d off
    have hat := s.oneAccess_atomic col b d g sz off
    rw [ha] at hl hs hi hx hat
    refine ⟨?outside, ?aperture, ?csr, ?commons, ?atomic, ?txOutside, ?txWindow, ?txA, ?park, ?strided, ?strided', ?indexed, ?indexed', ?first⟩
    case outside => exact fun sub h => ⟨hl.faults_outside (houtside _ _ _ h), hs.faults_outside (houtside _ _ _ h)⟩
    case aperture =>
      refine (s.forall_winEntry s.cur fun w => w.2.2 = 3 → holds w a n → (sz ≠ 3 ∨ a % 0x1000 ≠ 0) → _).mpr fun v h3 hv hbad3 => ?_
      have hw := v.sub_eq_three_iff.mp h3
      exact ⟨hl.faults_aperture hv (.inl hlc) hw (hbad3.imp_left fun h he => h (hsz.mp (hls.symm.trans he))),
        hs.faults_aperture hv (.inr hsc) hw (hbad3.imp_left fun h he => h (hsz.mp (hss.symm.trans he)))⟩
    case csr =>
      refine (s.forall_winEntry s.cur fun w => w.2.2 = 5 → holds w a n → let index := (a - w.1) / 8
        let listed := sz = 3 ∧ a % 8 = 0 ∧ (index < 7 ∨ (8 ≤ index ∧ index < 12)); _ ∧ _).mpr fun v h5 hv => ?_
      have hw := v.sub_eq_five_iff.mp h5
      subst hw
      have hlisted : ∀ {size : Nat}, size = 2 ^ sz.toNat → size = 8 ∧ a % 8 = 0 ∧ (s.csrRead s.cur ((a - csrBase) / 8)).isSome = true →
          sz = 3 ∧ a % 8 = 0 ∧ ((a - csrBase) / 8 < 7 ∨ (8 ≤ (a - csrBase) / 8 ∧ (a - csrBase) / 8 < 12)) := fun hsize h =>
        ⟨hsz.mp (hsize.symm.trans h.1), h.2.1, (s.csrRead_isSome_iff s.cur _).mp h.2.2⟩
      have hin : s.Holds s.cur .csr a n := hv
      refine ⟨fun hn => hl.faults_csr hin (.inl hlc) rfl fun h => hn (hlisted hls ⟨h.1, h.2.1, h.2.2.1⟩),
        fun hn => hs.faults_csr hin (.inr hsc) rfl fun h => ?_⟩
      rcases hn with hn | hn
      · exact hn (hlisted hss ⟨h.1, h.2.1, h.2.2.1⟩)
      · exact hn (h.2.2.2.resolve_left (by rw [hsc]; decide))
    case commons =>
      refine (s.forall_winEntry s.cur fun w => w.1 = commons → holds w a n → s.regionAt s.cur (a - commons) = none → _).mpr fun v hc hv hr => ?_
      have hw := v.base_eq_commons_iff.mp hc
      exact ⟨hl.faults_commons hv (.inl hlc) hw hr, hs.faults_commons hv (.inr hsc) hw hr⟩
    case atomic =>
      intro _
      obtain ⟨p1, h1, hc1, hs1⟩ := hat _ (.inl rfl)
      obtain ⟨p2, h2, hc2, hs2⟩ := hat _ (.inr (.inl rfl))
      obtain ⟨p3, h3, hc3, -⟩ := hat _ (.inr (.inr (.inl rfl)))
      obtain ⟨p4, h4, hc4, -⟩ := hat _ (.inr (.inr (.inr rfl)))
      refine ⟨fun sub h => h1.faults_outside (houtside _ _ _ h), ?_, fun hin hal => ?_⟩
      · refine (s.forall_winEntry s.cur fun w => w.1 ≠ 0 → holds w a n → _).mpr fun v h0 hv => ?_
        have hw : v ≠ .global := fun he => h0 (by rw [he]; rfl)
        exact ⟨h1.faults_atomic hv hc1 hw, h3.faults_atomic hv hc3 hw, h4.faults_atomic hv hc4 hw⟩
      · have hv := (s.holds_global s.cur a n).mpr hin
        exact ⟨h1.faults_atomic_unaligned hv hc1 rfl (by rw [hs1]; exact hal), h2.faults_atomic_unaligned hv hc2 rfl (by rw [hs2]; exact hal)⟩
    case txOutside => exact fun sub h => ⟨hi.faults_outside (houtside _ _ _ h), hx.faults_outside (houtside _ _ _ h)⟩
    case txWindow =>
      refine (s.forall_winEntry s.cur fun w => w.1 ≠ aBase → holds w a 16 → _).mpr fun v h0 hv => ?_
      have hw : v ≠ .a := fun he => h0 (by rw [he]; rfl)
      exact ⟨hi.faults_tx hv hic hw, hx.faults_tx hv hxc hw⟩
    case txA =>
      intro h1 h2
      have hv : s.Holds s.cur .a a 16 := ⟨h1, h2⟩
      exact ⟨fun hal => ⟨hi.faults_tx_unaligned hv hic rfl hal, hx.faults_tx_unaligned hv hxc rfl hal⟩,
        fun hal hval => hi.faults_tx_value hv hic rfl hal (by rw [hiv]; exact Core.txValueBad_init _ _ _ hval),
        fun hal hval => hx.faults_tx_value hv hxc rfl hal (by rw [hxv]; exact Core.txValueBad_arv _ _ _ hval)⟩
    case park => exact fun t h1 h2 ht => ⟨s.faults_parkTile coff cl o _ (.inl rfl) t h1 h2 ht, s.faults_parkTile coff cl o _ (.inr rfl) t h1 h2 ht⟩
    case strided => exact hstrided _ (.inl rfl)
    case strided' => exact hstrided _ (.inr rfl)
    case indexed => exact hlane _ _ (s.laneAccess_indexed col b k cl idx o _ (.inl rfl))
    case indexed' => exact hlane _ _ (s.laneAccess_indexed col b k cl idx o _ (.inr rfl))
    case first =>
      intro l hl256 hle hfirst sub
      obtain ⟨ys, he⟩ := enabled_eq_cons en l hl256 hle hfirst
      refine ⟨fun h => ?_, fun h => ?_, ?_⟩
      · obtain ⟨p, piece, hp, hb, haddr, hlen⟩ := s.laneAccess_ldvb b k voff cl o l ys he
        rw [hea] at haddr
        exact haddr ▸ hp.faults_one hb (by rw [haddr, hlen]; exact hbad _ _ _ h)
      · have hmask : ∀ i, i = .ldk b k voff cl m ∨ i = .stk col b k voff cl m → s.FaultsWith i 0x40 sub l ea := fun i hi => by
          obtain ⟨p, piece, hp, hb, haddr, hlen⟩ := s.laneAccess_maskHalf col b k voff cl m i hi l ys he
          rw [hea] at haddr
          exact haddr ▸ hp.faults_one hb (by rw [haddr, hlen]; exact hbad _ _ _ h)
        exact ⟨hmask _ (.inl rfl), hmask _ (.inr rfl)⟩
      · intro first whole h
        have hcont : ∀ i, i = .ldv b k voff cl o ∨ i = .stv col b k voff cl o → s.FaultsWith i 0x40 sub l first := fun i hi => by
          obtain ⟨p, piece, hp, hb, hpiece⟩ := s.laneAccess_contiguous col b k voff cl o i hi
          rw [hea] at hpiece
          obtain ⟨haddr, -⟩ := hpiece l
          have hfirst' : (piece l).addr = first := haddr
          have hwhole : ∀ v, (∀ j ∈ l :: ys, s.Holds s.cur v (piece j).addr (piece j).len) ↔ whole (s.winEntry s.cur v) := fun v => by
            rw [← he]
            simp only [mem_enabled, and_imp, hpiece]
            rfl
          have hp' : s.LaneAccess i p (l :: ys) piece := he ▸ hp
          refine hfirst' ▸ hp'.faults_whole hb ?_
          rw [hfirst']
          rcases h with ⟨h1, h⟩ | ⟨h2, h⟩ | h
          · exact .inl ⟨h1, (s.forall_winEntry s.cur fun w => ¬ holds w first 1).mp h⟩
          · obtain ⟨v, hv, hn⟩ := (s.exists_winEntry s.cur fun w => holds w first 1 ∧ ¬ whole w).mp h
            rw [← hwhole] at hn
            push Not at hn
            exact .inr (.inl ⟨h2, v, hv, hn⟩)
          · obtain ⟨v, hv, hsub⟩ := (s.exists_winEntry s.cur fun w => whole w ∧ sub = w.2.2 ∧ sub ≠ 0).mp h
            exact .inr (.inr ⟨v, (hwhole v).mpr hv, hsub⟩)
        exact ⟨hcont _ (.inl rfl), hcont _ (.inr rfl)⟩
  case issue =>
    intro s n c p traps
    refine ⟨fun hb hp hf hs hg hbound => ⟨fun l hl hpool => ?_, fun sub hl => ?_⟩, ?_⟩
    · exact State.issueCore_of_trap hb hp hf hs hg (State.verdict_pool hbound hl hpool)
    · exact State.issueCore_of_trap hb hp hf hs hg (State.verdict_broken hbound hl)
    intro l h b marks illegal
    refine ⟨?decode, ?overlap, ?ports, ?tiles, ?cread, ?alone, fun h2 => ⟨?hazard, fun hz hm hh => ⟨?stepFour, ?both⟩⟩⟩
    case decode =>
      intro hne
      obtain ⟨e, he⟩ := List.exists_mem_of_ne_nil _ hne
      refine ⟨_, _, h.traps (State.bundleVerdict_stepTwo (stepTwo_ne_zero_of_bad he (decodeLine_bad_any he))),
        fun e he => stepTwo_marks_bad he, stepTwo_decode _⟩
    case overlap =>
      intro e he f hf hne hmeet
      refine h.illegal (by simp) fun sl hsl => meetsReason_overlap ?_
      rcases List.mem_pair.mp hsl with rfl | rfl
      · exact mem_overlapSlots he hf hne hmeet
      · exact mem_overlapSlots hf he hne.symm ((locsMeet_comm _ _).trans hmeet)
    case ports => exact fun hp => h.illegal (by simp) fun sl hsl => meetsReason_ports hp hsl
    case tiles => exact fun ht => h.illegal (by simp) fun sl hsl => meetsReason_tiles ht hsl
    case cread =>
      intro cl hcount
      obtain ⟨e, he, hec⟩ := exists_cRead hcount
      refine h.illegal (List.ne_nil_of_mem (List.mem_map.mpr ⟨e, List.mem_filter.mpr ⟨he, hec⟩, rfl⟩)) fun sl hsl => ?_
      obtain ⟨f, hf, rfl⟩ := List.mem_map.mp hsl
      obtain ⟨hf, hfc⟩ := List.mem_filter.mp hf
      exact meetsReason_cread (mem_creadSlots hf hfc hcount)
    case alone =>
      intro e he ha hwith
      have hmem : e.1 ∈ b.acts.map (fun f => f.1) ++ if b.mark || b.segb then [Slot.ct] else [] :=
        List.mem_append_left _ (List.mem_map.mpr ⟨e, he, rfl⟩)
      exact h.illegal (List.ne_nil_of_mem hmem) fun sl hsl => meetsReason_alone (aloneMask_testBit he ha hwith hsl)
    case hazard =>
      intro e he r hr hland hmeet
      obtain ⟨x, hx⟩ := mem_hazards_of_regHazards he (State.regHazards_ne_nil hr hland hmeet)
      exact ⟨fun hi => h.shadowFault h2 hi hx, fun hi hb hl hd => h.shadowHold h2 hi (List.ne_nil_of_mem hx) hb hl hd⟩
    case stepFour =>
      intro q hq
      have hu : s.Unheld n b := ⟨h2, hz, hm, hh⟩
      refine ⟨fun hp => ?_, fun hp => ?_, fun hc ht => ?_⟩
      · obtain ⟨hr, hmask⟩ := Core.stepFour_mxPort hq hp
        exact h.illegal_stepFour hu hr hmask
      · obtain ⟨hr, hmask⟩ := Core.stepFour_sfPort hq hp
        exact h.illegal_stepFour hu hr hmask
      · obtain ⟨hr, hmask⟩ := Core.stepFour_tiles hq hc ht
        exact h.illegal_stepFour hu hr hmask
    case both => exact fun h4 hv hmb hc hn t u ht hf => h.bothAddresses ⟨h2, hz, hm, hh⟩ h4 hv hmb hc hn ht hf

end Sys2Proof.Machine
end

section
/-! PROOFS. The fields of a packed word: which field stands at a bit position (R52, R63 to R67). -/

open Sys2Proof Sys2Proof.Machine

namespace Sys2Proof.Machine

/-! ## A field of a packed word -/

/-- Past its first field a packed word is the rest. -/
theorem pack_cons_div {w k : Nat} (v : Nat) (r : List (Nat × Nat)) (h : w ≤ k) : pack ((w, v) :: r) / 2 ^ k = pack r / 2 ^ (k - w) := by
  have hv : v % 2 ^ w / 2 ^ w = 0 := Nat.div_eq_of_lt (Nat.mod_lt v (Nat.two_pow_pos w))
  obtain ⟨j, rfl⟩ := Nat.exists_eq_add_of_le h
  rw [Nat.add_sub_cancel_left, Nat.pow_add, ← Nat.div_div_eq_div_mul, pack, Nat.add_mul_div_left _ _ (Nat.two_pow_pos w), hv, Nat.zero_add]

/-- The bits k to k + n - 1 of x are kept when x is cut to w bits. -/
theorem mod_div_mod_two_pow {k n w : Nat} (x : Nat) (h : k + n ≤ w) : x % 2 ^ w / 2 ^ k % 2 ^ n = x / 2 ^ k % 2 ^ n := by
  apply Nat.eq_of_testBit_eq
  intro i
  simp only [Nat.testBit_mod_two_pow, Nat.testBit_div_two_pow]
  by_cases hi : i < n
  · have hw : k + i < w := by omega
    simp [hi, Nat.add_comm i k, hw]
  · simp [hi]

/-- Within its first field a packed word has the bits of that field's value. -/
theorem pack_cons_div_mod {w k n : Nat} (v : Nat) (r : List (Nat × Nat)) (h : k + n ≤ w) :
    pack ((w, v) :: r) / 2 ^ k % 2 ^ n = v / 2 ^ k % 2 ^ n := by
  have hw : pack ((w, v) :: r) % 2 ^ w = v % 2 ^ w := by rw [pack, Nat.add_mul_mod_self_left, Nat.mod_mod]
  rw [← mod_div_mod_two_pow _ h, hw, mod_div_mod_two_pow _ h]

theorem pack_cons_mod {w n : Nat} (v : Nat) (r : List (Nat × Nat)) (h : n ≤ w) : pack ((w, v) :: r) % 2 ^ n = v % 2 ^ n := by
  simpa using pack_cons_div_mod (k := 0) v r (by simpa using h)

theorem ofNat_pack_cons_div {w k n : Nat} (v : Nat) (r : List (Nat × Nat)) (h : k + n ≤ w) :
    BitVec.ofNat n (pack ((w, v) :: r) / 2 ^ k) = BitVec.ofNat n (v / 2 ^ k) :=
  BitVec.eq_of_toNat_eq (by simpa using pack_cons_div_mod v r h)

theorem ofNat_pack_cons {w n : Nat} (v : Nat) (r : List (Nat × Nat)) (h : n ≤ w) :
    BitVec.ofNat n (pack ((w, v) :: r)) = BitVec.ofNat n v :=
  BitVec.eq_of_toNat_eq (by simpa using pack_cons_mod v r h)

theorem flag_pack_cons_div {w k : Nat} (v : Nat) (r : List (Nat × Nat)) (h : k + 1 ≤ w) :
    pack ((w, v) :: r) / 2 ^ k % 2 = v / 2 ^ k % 2 := by
  simpa using pack_cons_div_mod v r h

/-- The opcode is the last field of a slot word (R53). -/
theorem pack_opcode (op : Nat) : pack [(7, op)] % 128 = op % 128 := by simp [pack]

/-- A packed word ends with its last field. -/
theorem pack_lt (l : List (Nat × Nat)) : pack l < 2 ^ (l.map Prod.fst).sum := by
  induction l with
  | nil => simp [pack]
  | cons e r ih =>
    obtain ⟨w, x⟩ := e
    have hx : x % 2 ^ w < 2 ^ w := Nat.mod_lt x (Nat.two_pow_pos w)
    calc pack ((w, x) :: r) = x % 2 ^ w + 2 ^ w * pack r := rfl
      _ < 2 ^ w * (pack r + 1) := by rw [Nat.mul_add]; omega
      _ ≤ 2 ^ w * 2 ^ (r.map Prod.fst).sum := Nat.mul_le_mul_left _ ih
      _ = 2 ^ (((w, x) :: r).map Prod.fst).sum := by rw [← Nat.pow_add]; rfl

/-! ## Values of fields -/

/-- The 16 bits of a slice operand field name the operand (R56). -/
theorem sliceField_word (o : SliceOp) : sliceField (o.word % 2 ^ 16) = o := by
  obtain ⟨s, w⟩ := o
  have hs := s.isLt
  have hw := w.isLt
  have hsum : (w.toNat + 16 * s.toNat) % 2 ^ 16 = w.toNat + 16 * s.toNat := Nat.mod_eq_of_lt (by omega)
  have hstart : BitVec.ofNat 12 ((w.toNat + 16 * s.toNat) / 16) = s := by
    apply BitVec.eq_of_toNat_eq
    rw [BitVec.toNat_ofNat]
    omega
  have hwm1 : BitVec.ofNat 4 (w.toNat + 16 * s.toNat) = w := by
    apply BitVec.eq_of_toNat_eq
    rw [BitVec.toNat_ofNat]
    omega
  rw [SliceOp.word, hsum, sliceField, hstart, hwm1]

/-- A one-bit field (R56, R64, R66). -/
theorem pack_flag_mod (b : Bool) (r : List (Nat × Nat)) : (pack ((1, b2n b) :: r) % 2 == 1) = b := by cases b <;> simp [pack, b2n]

theorem pack_flag_div (v : Nat) (r : List (Nat × Nat)) : pack ((1, v) :: r) / 2 = pack r := by
  simpa using pack_cons_div v r (k := 1) (Nat.le_refl 1)

/-! ## The formats (R62 to R67) -/

theorem encSR_op (op : Nat) (d x y z : BitVec 6) : encSR op d x y z / 2 ^ 57 % 128 = op % 128 := by
  simp [-Nat.reducePow, encSR, pack_cons_div, pack_opcode]

theorem encSR_fields (op : Nat) (d x y z : BitVec 6) :
    BitVec.ofNat 6 (encSR op d x y z / 2 ^ 51) = d ∧ BitVec.ofNat 6 (encSR op d x y z / 2 ^ 45) = x ∧
    BitVec.ofNat 6 (encSR op d x y z / 2 ^ 39) = y ∧ BitVec.ofNat 6 (encSR op d x y z / 2 ^ 33) = z := by
  simp [-Nat.reducePow, encSR, pack_cons_div, ofNat_pack_cons]

theorem encSI_op (op : Nat) (d x : BitVec 6) (imm : Nat) : encSI op d x imm / 2 ^ 57 % 128 = op % 128 := by
  simp [-Nat.reducePow, encSI, pack_cons_div, pack_opcode]

/-- An immediate of 32 bits, or a shift amount of 6, stands in the low bits. -/
theorem encSI_fields (op : Nat) (d x : BitVec 6) (imm : Nat) :
    BitVec.ofNat 6 (encSI op d x imm / 2 ^ 51) = d ∧
    BitVec.ofNat 6 (encSI op d x imm / 2 ^ 45) = x ∧ BitVec.ofNat 32 (encSI op d x imm) = BitVec.ofNat 32 imm ∧
    BitVec.ofNat 6 (encSI op d x imm) = BitVec.ofNat 6 imm := by
  simp [-Nat.reducePow, encSI, pack_cons_div, ofNat_pack_cons]

theorem encSL_op (op : Nat) (d : BitVec 6) (imm : BitVec 48) : encSL op d imm / 2 ^ 57 % 128 = op % 128 := by
  simp [-Nat.reducePow, encSL, pack_cons_div, pack_opcode]

theorem encSL_fields (op : Nat) (d : BitVec 6) (imm : BitVec 48) :
    BitVec.ofNat 6 (encSL op d imm / 2 ^ 51) = d ∧ BitVec.ofNat 48 (encSL op d imm) = imm := by
  simp [-Nat.reducePow, encSL, pack_cons_div, ofNat_pack_cons]

theorem encV_op (op : Nat) (ty k : BitVec 4) (sat : Bool) (d x y : Nat) : encV op ty k sat d x y / 2 ^ 57 % 128 = op % 128 := by
  simp [-Nat.reducePow, encV, pack_cons_div, pack_opcode]

theorem encV_fields (op : Nat) (ty k : BitVec 4) (sat : Bool) (d x y : Nat) :
    BitVec.ofNat 4 (encV op ty k sat d x y / 2 ^ 53) = ty ∧
    BitVec.ofNat 4 (encV op ty k sat d x y / 2 ^ 49) = k ∧ (encV op ty k sat d x y / 2 ^ 48 % 2 == 1) = sat ∧
    encV op ty k sat d x y / 2 ^ 32 % 2 ^ 16 = d % 2 ^ 16 ∧ encV op ty k sat d x y / 2 ^ 16 % 2 ^ 16 = x % 2 ^ 16 ∧
    encV op ty k sat d x y % 2 ^ 16 = y % 2 ^ 16 := by
  simp [-Nat.reducePow, encV, pack_cons_div, pack_flag_div, pack_flag_mod, pack_cons_mod, ofNat_pack_cons]

/-- The TY field of a vector word as a number (R64). -/
theorem encV_ty (op : Nat) (ty k : BitVec 4) (sat : Bool) (d x y : Nat) : encV op ty k sat d x y / 2 ^ 53 % 16 = ty.toNat := by
  obtain ⟨hty, -⟩ := encV_fields op ty k sat d x y
  simpa [-Nat.reducePow] using congrArg BitVec.toNat hty

theorem encMx_op (op : Nat) (af bf : BitVec 5) (t : BitVec 4) (low : Nat) : encMx op af bf t low / 2 ^ 57 % 128 = op % 128 := by
  simp [-Nat.reducePow, encMx, pack_cons_div, pack_opcode]

theorem encMx_fields (op : Nat) (af bf : BitVec 5) (t : BitVec 4) (low : Nat) :
    BitVec.ofNat 5 (encMx op af bf t low / 2 ^ 52) = af ∧
    BitVec.ofNat 5 (encMx op af bf t low / 2 ^ 47) = bf ∧ BitVec.ofNat 4 (encMx op af bf t low / 2 ^ 43) = t := by
  simp [-Nat.reducePow, encMx, pack_cons_div, ofNat_pack_cons]

/-- The tile offsets of an array instruction or of MSTC within bits [42:0]. -/
theorem encMx_mmLow (op : Nat) (af bf : BitVec 5) (t : BitVec 4) (ao : BitVec 11) (wo : BitVec 12) :
    BitVec.ofNat 11 (encMx op af bf t (mmLow ao wo) / 2 ^ 32) = ao ∧ BitVec.ofNat 12 (encMx op af bf t (mmLow ao wo) / 2 ^ 20) = wo := by
  simp [-Nat.reducePow, encMx, mmLow, ofNat_pack_cons_div, pack_cons_div, ofNat_pack_cons]

/-- The slice operand of MCVT, MLDC and MBIAS within bits [42:0]. -/
theorem encMx_sopLow (op : Nat) (af bf : BitVec 5) (t : BitVec 4) (cl : Bool) (o : SliceOp) :
    (encMx op af bf t (sopLow cl o) / 2 ^ 16 % 2 == 1) = cl ∧ sliceField (encMx op af bf t (sopLow cl o) % 2 ^ 16) = o := by
  constructor
  · rw [encMx, flag_pack_cons_div _ _ (by decide), sopLow, pack_cons_div _ _ (by decide), Nat.sub_self, Nat.pow_zero, Nat.div_one, pack_flag_mod]
  · rw [encMx, pack_cons_mod _ _ (by decide), sopLow, pack_cons_mod _ _ (by decide), sliceField_word]

/-- The second tile of MADDC within bits [42:0]. -/
theorem encMx_maddc (op : Nat) (af bf : BitVec 5) (t u : BitVec 4) :
    BitVec.ofNat 4 (encMx op af bf t (pack [(39, 0), (4, u.toNat)]) / 2 ^ 39) = u := by
  simp [-Nat.reducePow, encMx, ofNat_pack_cons_div, pack_cons_div, ofNat_pack_cons]

theorem encLM_op (op : Nat) (col : BitVec 3) (b d c : BitVec 6) (sz : BitVec 2) (sgn : Bool) (off : BitVec 32) :
    encLM op col b d c sz sgn off / 2 ^ 57 % 128 = op % 128 := by
  simp [-Nat.reducePow, encLM, pack_cons_div, pack_opcode]

theorem encLM_fields (op : Nat) (col : BitVec 3) (b d c : BitVec 6) (sz : BitVec 2) (sgn : Bool) (off : BitVec 32) :
    BitVec.ofNat 3 (encLM op col b d c sz sgn off / 2 ^ 54) = col ∧
    BitVec.ofNat 6 (encLM op col b d c sz sgn off / 2 ^ 48) = b ∧ BitVec.ofNat 6 (encLM op col b d c sz sgn off / 2 ^ 42) = d ∧
    BitVec.ofNat 6 (encLM op col b d c sz sgn off / 2 ^ 36) = c ∧ BitVec.ofNat 2 (encLM op col b d c sz sgn off / 2 ^ 34) = sz ∧
    (encLM op col b d c sz sgn off / 2 ^ 33 % 2 == 1) = sgn ∧ BitVec.ofNat 32 (encLM op col b d c sz sgn off) = off := by
  simp [-Nat.reducePow, encLM, pack_cons_div, pack_flag_div, pack_flag_mod, ofNat_pack_cons]

theorem encLV_op (op : Nat) (col : BitVec 3) (b g : BitVec 6) (k : BitVec 4) (off : BitVec 21) (cl : Bool) (sop : Nat) :
    encLV op col b g k off cl sop / 2 ^ 57 % 128 = op % 128 := by
  simp [-Nat.reducePow, encLV, pack_cons_div, pack_opcode]

theorem encLV_fields (op : Nat) (col : BitVec 3) (b g : BitVec 6) (k : BitVec 4) (off : BitVec 21) (cl : Bool) (sop : Nat) :
    BitVec.ofNat 3 (encLV op col b g k off cl sop / 2 ^ 54) = col ∧
    BitVec.ofNat 6 (encLV op col b g k off cl sop / 2 ^ 48) = b ∧ BitVec.ofNat 6 (encLV op col b g k off cl sop / 2 ^ 42) = g ∧
    BitVec.ofNat 4 (encLV op col b g k off cl sop / 2 ^ 38) = k ∧ BitVec.ofNat 21 (encLV op col b g k off cl sop / 2 ^ 17) = off ∧
    (encLV op col b g k off cl sop / 2 ^ 16 % 2 == 1) = cl ∧ encLV op col b g k off cl sop % 2 ^ 16 = sop % 2 ^ 16 ∧
    BitVec.ofNat 6 (encLV op col b g k off cl sop) = BitVec.ofNat 6 sop := by
  simp [-Nat.reducePow, encLV, pack_cons_div, pack_flag_div, pack_flag_mod, pack_cons_mod, ofNat_pack_cons]

theorem encLX_op (op : Nat) (col : BitVec 3) (b : BitVec 6) (k : BitVec 4) (idx : SliceOp) (cl : Bool) (o : SliceOp) :
    encLX op col b k idx cl o / 2 ^ 57 % 128 = op % 128 := by
  simp [-Nat.reducePow, encLX, pack_cons_div, pack_opcode]

theorem encLX_fields (op : Nat) (col : BitVec 3) (b : BitVec 6) (k : BitVec 4) (idx : SliceOp) (cl : Bool) (o : SliceOp) :
    BitVec.ofNat 3 (encLX op col b k idx cl o / 2 ^ 54) = col ∧
    BitVec.ofNat 6 (encLX op col b k idx cl o / 2 ^ 48) = b ∧ BitVec.ofNat 4 (encLX op col b k idx cl o / 2 ^ 38) = k ∧
    sliceField (encLX op col b k idx cl o / 2 ^ 22 % 2 ^ 16) = idx ∧ (encLX op col b k idx cl o / 2 ^ 16 % 2 == 1) = cl ∧
    sliceField (encLX op col b k idx cl o % 2 ^ 16) = o := by
  simp [-Nat.reducePow, encLX, pack_cons_div, pack_flag_mod, pack_cons_mod, ofNat_pack_cons, sliceField_word]

theorem encPark_op (op : Nat) (co : BitVec 12) (cl : Bool) (o : SliceOp) : encPark op co cl o / 2 ^ 57 % 128 = op % 128 := by
  simp [-Nat.reducePow, encPark, pack_cons_div, pack_opcode]

theorem encPark_fields (op : Nat) (co : BitVec 12) (cl : Bool) (o : SliceOp) :
    BitVec.ofNat 12 (encPark op co cl o / 2 ^ 20) = co ∧
    (encPark op co cl o / 2 ^ 16 % 2 == 1) = cl ∧ sliceField (encPark op co cl o % 2 ^ 16) = o := by
  simp [-Nat.reducePow, encPark, pack_cons_div, pack_flag_mod, pack_cons_mod, ofNat_pack_cons, sliceField_word]

theorem encSld_op (op : Nat) (sel : BitVec 4) (ao : BitVec 15) : encSld op sel ao / 2 ^ 57 % 128 = op % 128 := by
  simp [-Nat.reducePow, encSld, pack_cons_div, pack_opcode]

theorem encSld_fields (op : Nat) (sel : BitVec 4) (ao : BitVec 15) :
    BitVec.ofNat 4 (encSld op sel ao / 2 ^ 53) = sel ∧
    BitVec.ofNat 15 (encSld op sel ao / 2 ^ 17) = ao := by
  simp [-Nat.reducePow, encSld, pack_cons_div, ofNat_pack_cons]

/-- A control word: the opcode, and every field within bits [54:0]. -/
theorem encCt_op (op low : Nat) : encCt op low / 2 ^ 57 % 128 = op % 128 := by
  simp [-Nat.reducePow, encCt, pack_cons_div, pack_opcode]

theorem ofNat_encCt_div {k n : Nat} (op low : Nat) (h : k + n ≤ 55) : BitVec.ofNat n (encCt op low / 2 ^ k) = BitVec.ofNat n (low / 2 ^ k) :=
  ofNat_pack_cons_div low _ h

theorem ofNat_encCt {n : Nat} (op low : Nat) (h : n ≤ 55) : BitVec.ofNat n (encCt op low) = BitVec.ofNat n low :=
  ofNat_pack_cons low _ h

end Sys2Proof.Machine
end

section
/-! PROOFS. The word that the encoder writes for a slot instruction, and what it reads as (R53 to R71). -/

open Sys2Proof Sys2Proof.Machine

namespace Sys2Proof.Machine

theorem decodeRaw_scalar (u : ScalarSlot) (w : Nat) : decodeRaw u.slot w = decodeScalar u w := by cases u <;> rfl

theorem decodeRaw_vector (u : VectorSlot) (w : Nat) : decodeRaw u.slot w = decodeVector u w := by cases u <;> rfl

/-- Word w names instruction i in slot sl: it has 64 bits, its MARK and SEGB bits are clear, and it reads as i. -/
structure NamesIn (sl : Slot) (w : Nat) (i : Instr) : Prop where
  bound : w < 2 ^ 64
  body : slotBody sl w = w
  reads : decodeRaw sl w = some i

theorem slotBody_scalar (u : ScalarSlot) (w : Nat) : slotBody u.slot w = w := by cases u <;> rfl

theorem slotBody_vector (u : VectorSlot) (w : Nat) : slotBody u.slot w = w := by cases u <;> rfl

/-- A control word of the encoder has its MARK and SEGB bits clear (R54, R62). -/
theorem slotBody_encCt (op low : Nat) : slotBody .ct (encCt op low) = encCt op low := by
  simp only [slotBody, encCt, pack]
  omega

theorem namesIn_nop (sl : Slot) : NamesIn sl 0 (.nop sl) := ⟨Nat.two_pow_pos 64, by cases sl <;> rfl, by cases sl <;> rfl⟩

theorem NamesIn.ct {op low : Nat} {i : Instr} (h : decodeCt (encCt op low) = some i) : NamesIn .ct (encCt op low) i :=
  ⟨pack_lt _, slotBody_encCt op low, h⟩

theorem NamesIn.scalar {u : ScalarSlot} {w : Nat} {i : Instr} (hb : w < 2 ^ 64) (h : decodeScalar u w = some i) : NamesIn u.slot w i :=
  ⟨hb, slotBody_scalar u w, (decodeRaw_scalar u w).trans h⟩

theorem NamesIn.vector {u : VectorSlot} {w : Nat} {i : Instr} (hb : w < 2 ^ 64) (h : decodeVector u w = some i) : NamesIn u.slot w i :=
  ⟨hb, slotBody_vector u w, (decodeRaw_vector u w).trans h⟩

/-- What the encoder writes for an instruction names it in its slot, field by field of its format (R62 to R71). -/
theorem namesIn_encodeWord {i : Instr} {sl : Slot} (h : slotOf i = some sl) : NamesIn sl (encodeWord i) i := by
  cases i
  case nop =>
    obtain rfl := Option.some.inj h
    exact namesIn_nop _
  case ret | lexit | halt =>
    obtain rfl := Option.some.inj h
    exact NamesIn.ct rfl
  case prep | br | brn | jmp | call | calli | loop | loopi | step | bari | bara | baraw | barw | fence | txwait | trap
      | csrr | csrw | pool =>
    obtain rfl := Option.some.inj h
    refine NamesIn.ct ?_
    rw [decodeCt, encCt_op]
    change some _ = some _
    simp [-Nat.reducePow, ofNat_encCt_div, ofNat_encCt, pack_cons_div, ofNat_pack_cons]
  case add | sub | mul | mulh | mulhu | div | divu | rem | remu | and | or | xor | shl | shr | sra | min | max | minu | maxu | ceq | cne | clt
      | cltu | sel | clz | ctz | popc | agen | rdli | rdjt | rdxy =>
    obtain rfl := Option.some.inj h
    refine NamesIn.scalar (w := encSR _ _ _ _ _) (pack_lt _) ?_
    rw [decodeScalar, encSR_op]
    change some _ = some _
    simp only [encSR_fields]
  case addi | andi | ori | xori | shli | shri | srai | ceqi | clti =>
    obtain rfl := Option.some.inj h
    refine NamesIn.scalar (w := encSI _ _ _ _) (pack_lt _) ?_
    rw [decodeScalar, encSI_op]
    change some _ = some _
    simp only [encSI_fields, BitVec.ofNat_toNat, BitVec.setWidth_eq]
  case movi | movih =>
    obtain rfl := Option.some.inj h
    refine NamesIn.scalar (w := encSL _ _ _) (pack_lt _) ?_
    rw [decodeScalar, encSL_op]
    change some _ = some _
    simp only [encSL_fields]
  case vadd | vsub | vmul | vfma | vfms | vmin | vmax | vabs | vneg | vaddi | vmuli | vand | vor | vxor | vnot | vshl | vshr | vsra | vshli | vshri
      | vsrai | vclz | vpop | vcvt | vmov | vbri | vsplat | vsel | vceq | vcne | vclt | vcle | vcmpu | kand | kor | kxor | kandn | knot | vredadd
      | vredmax | vredmin | vperm | vrot | vlane | xmov | vpack | vunpk | vsumx =>
    obtain rfl := Option.some.inj h
    refine NamesIn.vector (w := encV _ _ _ _ _ _ _) (pack_lt _) ?_
    rw [decodeVector, encV_op]
    change some _ = some _
    simp [-Nat.reducePow, encV_fields, sliceField_word]
  case vdiv | vsqrt | vrcp | vrsq | vexp2 | vlog2 | vrcpl =>
    obtain rfl := Option.some.inj h
    refine ⟨pack_lt _, rfl, (?_ : decodeVector .vb (encV _ _ _ _ _ _ _) = _)⟩
    rw [decodeVector, encV_op]
    change some _ = some _
    simp only [encV_fields, sliceField_word]
  case mma | mmz | mmat | mmzt | mclr | maddc | mcvt | mldc | mbias | mstc =>
    obtain rfl := Option.some.inj h
    refine ⟨pack_lt _, rfl, (?_ : decodeMatrix (encMx _ _ _ _ _) = _)⟩
    rw [decodeMatrix, encMx_op]
    change some _ = some _
    simp only [encMx_fields, encMx_mmLow, encMx_sopLow, encMx_maddc]
  case lds | sts | atadd | atmin | atmax | atminu | atmaxu | atand | ator | atxch | atcas | pref | txinit | txarv =>
    obtain rfl := Option.some.inj h
    refine ⟨pack_lt _, rfl, (?_ : decodeLs (encLM _ _ _ _ _ _ _ _) = _)⟩
    rw [decodeLs, encLM_op]
    change some _ = some _
    simp only [encLM_fields]
  case ldv | stv | ldvs | stvs | ldvb | ldk | stk =>
    obtain rfl := Option.some.inj h
    refine ⟨pack_lt _, rfl, (?_ : decodeLs (encLV _ _ _ _ _ _ _ _) = _)⟩
    rw [decodeLs, encLV_op]
    change some _ = some _
    simp [-Nat.reducePow, encLV_fields, sliceField_word]
  case ldvx | stvx =>
    obtain rfl := Option.some.inj h
    refine ⟨pack_lt _, rfl, (?_ : decodeLs (encLX _ _ _ _ _ _ _) = _)⟩
    rw [decodeLs, encLX_op]
    change some _ = some _
    simp only [encLX_fields]
  case slda | sldb =>
    obtain rfl := Option.some.inj h
    refine ⟨pack_lt _, rfl, (?_ : decodeSf (encSld _ _ _) = _)⟩
    rw [decodeSf, encSld_op]
    change some _ = some _
    simp only [encSld_fields]
  case park | unpk =>
    obtain rfl := Option.some.inj h
    refine ⟨pack_lt _, rfl, (?_ : decodeSf (encPark _ _ _ _) = _)⟩
    rw [decodeSf, encPark_op]
    change some _ = some _
    simp only [encPark_fields]
  case fill x n ao =>
    obtain rfl := Option.some.inj h
    refine ⟨pack_lt _, rfl, (?_ : decodeSf (pack [(15, ao.toNat), (25, 0), (11, n.toNat), (6, x.toNat), (7, 0x01)]) = _)⟩
    simp [-Nat.reducePow, decodeSf, pack_cons_div, pack_opcode, ofNat_pack_cons]
  all_goals cases h

end Sys2Proof.Machine
end

section
/-! PROOFS. Encoding and decoding: an encoded instruction reads back alone, and a word has one meaning (R52 to R72). -/

open Sys2Proof Sys2Proof.Machine

namespace Sys2Proof.Machine

/-! ## The slot word of an instruction -/

/-- An instruction without a type has a clear TY field (R155). -/
theorem typeField_of_takesNoType {i : Instr} (h : takesNoType i = true) : encodeWord i / 2 ^ 53 % 16 = 0 := by
  unfold takesNoType at h
  split at h
  case h_8 => cases h
  all_goals exact encV_ty _ _ _ _ _ _ _

theorem slotReasons_encodeWord {i : Instr} {sl : Slot} (h : slotOf i = some sl) (hw : WellFormed i) :
    slotReasons sl (encodeWord i) = Reasons.none := by
  obtain ⟨-, hbody, hreads⟩ := namesIn_encodeWord h
  have hty : (if takesNoType i then encodeWord i / 2 ^ 53 % 16 else 0) = 0 := by
    split
    case isTrue ht => exact typeField_of_takesNoType ht
    case isFalse => rfl
  have hi : instrReasons i = Reasons.none := hw
  simp only [slotReasons, hbody, hreads, hty, hi]
  simp [Reasons.none, Reasons.or]

theorem decodeSlot_encodeWord {i : Instr} {sl : Slot} (h : slotOf i = some sl) (hw : WellFormed i) : decodeSlot sl (encodeWord i) = some i := by
  obtain ⟨-, hbody, hreads⟩ := namesIn_encodeWord h
  rw [decodeSlot, slotReasons_encodeWord h hw, hbody, hreads]
  rfl

/-! ## The line of an instruction -/

theorem slot_index_lt (x : Slot) : x.index < 8 := by cases x <;> decide

/-- Group j of 64 bits of a number that stands in group k. -/
theorem group_of_shifted {v : Nat} (hv : v < 2 ^ 64) (j k : Nat) :
    v * 2 ^ (64 * k) / 2 ^ (64 * j) % 2 ^ 64 = if j = k then v else 0 := by
  rcases Nat.lt_trichotomy j k with h | rfl | h
  · obtain ⟨d, rfl⟩ := Nat.exists_eq_add_of_lt h
    have he : 64 * (j + d + 1) = 64 * j + (64 * d + 64) := by omega
    rw [if_neg (by omega), he, Nat.pow_add, Nat.mul_left_comm, Nat.mul_div_cancel_left _ (Nat.two_pow_pos _), Nat.pow_add, ← Nat.mul_assoc,
      Nat.mul_mod_left]
  · rw [if_pos rfl, Nat.mul_div_cancel _ (Nat.two_pow_pos _), Nat.mod_eq_of_lt hv]
  · have hlt : v * 2 ^ (64 * k) < 2 ^ (64 * j) :=
      calc v * 2 ^ (64 * k) < 2 ^ 64 * 2 ^ (64 * k) := Nat.mul_lt_mul_of_pos_right hv (Nat.two_pow_pos _)
        _ = 2 ^ (64 + 64 * k) := (Nat.pow_add ..).symm
        _ ≤ 2 ^ (64 * j) := Nat.pow_le_pow_right (by decide) (by omega)
    rw [if_neg (by omega), Nat.div_eq_of_lt hlt, Nat.zero_mod]

/-- The line of an instruction holds its word in its slot and the word of NOP in every other (R52, R55). -/
theorem lineWord_encode {i : Instr} {sl : Slot} (h : slotOf i = some sl) (x : Slot) :
    lineWord (encode i) x = encodeWord (if x = sl then i else .nop x) := by
  obtain ⟨hbound, -, -⟩ := namesIn_encodeWord h
  have hfits : encodeWord i * 2 ^ (64 * sl.index) < 2 ^ (64 + 64 * sl.index) := by
    rw [Nat.pow_add]
    exact Nat.mul_lt_mul_of_pos_right hbound (Nat.two_pow_pos _)
  have hwidth : 64 + 64 * sl.index ≤ 512 := by
    have hs := slot_index_lt sl
    omega
  have hline : (encode i).toNat = encodeWord i * 2 ^ (64 * sl.index) := by
    simp only [encode, h, BitVec.toNat_ofNat, Nat.mod_eq_of_lt (Nat.lt_of_lt_of_le hfits (Nat.pow_le_pow_right Nat.two_pos hwidth))]
  rw [lineWord, hline, group_of_shifted hbound]
  by_cases hx : x = sl
  · rw [if_pos hx, if_pos (congrArg Slot.index hx)]
  · rw [if_neg hx, if_neg (fun he => hx ((slot_index_inj x sl).mp he))]
    rfl

theorem wellFormed_nop (sl : Slot) : WellFormed (.nop sl) := rfl

/-- A control word that is its own body has its MARK and SEGB bits clear (R54). -/
theorem bits_of_slotBody_ct {w : Nat} (h : slotBody .ct w = w) : bit w 55 = false ∧ bit w 56 = false := by
  have h2 : w / 2 ^ 55 % 4 = 0 := by
    simp only [slotBody] at h
    omega
  simp only [bit, Nat.testBit_eq_decide_div_mod_eq]
  constructor <;> simp <;> omega

/-- Settles O2: each slot of the line holds the word of the instruction, or of NOP, and each of these words names its instruction. -/
theorem encodedInstructionsDecodeBack : Obligations.EncodedInstructionsDecodeBack := by
  unfold Obligations.EncodedInstructionsDecodeBack
  intro i sl h hw
  have hslot : ∀ x : Slot, slotOf (if x = sl then i else .nop x) = some x := by
    intro x
    split
    case isTrue hx => rw [hx, h]
    case isFalse => rfl
  have hformed : ∀ x : Slot, WellFormed (if x = sl then i else .nop x) := by
    intro x
    split
    case isTrue => exact hw
    case isFalse => exact wellFormed_nop x
  have hreads : ∀ x : Slot, decodeSlot x (lineWord (encode i) x) = some (if x = sl then i else .nop x) := fun x => by
    rw [lineWord_encode h x, decodeSlot_encodeWord (hslot x) (hformed x)]
  have hreasons : ∀ x : Slot, slotReasons x (lineWord (encode i) x) = Reasons.none := fun x => by
    rw [lineWord_encode h x, slotReasons_encodeWord (hslot x) (hformed x)]
  obtain ⟨hsegb, hmark⟩ := bits_of_slotBody_ct (namesIn_encodeWord (hslot .ct)).body
  rw [← lineWord_encode h .ct] at hsegb hmark
  rw [decodeLine, hsegb, hmark]
  simp only [hreads, hreasons]
  rfl

/-! ## The meaning of a word -/

theorem slotOf_of_decodeCt {w : Nat} {i : Instr} (h : decodeCt w = some i) : slotOf i = some .ct := by
  unfold decodeCt at h
  split at h
  all_goals cases h <;> rfl

theorem slotOf_of_decodeScalar {u : ScalarSlot} {w : Nat} {i : Instr} (h : decodeScalar u w = some i) : slotOf i = some u.slot := by
  unfold decodeScalar at h
  split at h
  all_goals cases h <;> rfl

theorem slotOf_of_decodeVector {u : VectorSlot} {w : Nat} {i : Instr} (h : decodeVector u w = some i) : slotOf i = some u.slot := by
  unfold decodeVector at h
  cases u
  all_goals
    dsimp only at h
    split at h
  all_goals cases h <;> rfl

theorem slotOf_of_decodeMatrix {w : Nat} {i : Instr} (h : decodeMatrix w = some i) : slotOf i = some .mx := by
  unfold decodeMatrix at h
  split at h
  all_goals cases h <;> rfl

theorem slotOf_of_decodeLs {w : Nat} {i : Instr} (h : decodeLs w = some i) : slotOf i = some .ls := by
  unfold decodeLs at h
  split at h
  all_goals cases h <;> rfl

theorem slotOf_of_decodeSf {w : Nat} {i : Instr} (h : decodeSf w = some i) : slotOf i = some .sf := by
  unfold decodeSf at h
  split at h
  all_goals cases h <;> rfl

/-- An instruction that is read from a word stands in the word's slot. -/
theorem slotOf_of_decodeRaw {sl : Slot} {w : Nat} {i : Instr} (h : decodeRaw sl w = some i) : slotOf i = some sl := by
  cases sl with
  | ct => exact slotOf_of_decodeCt h
  | sa => exact slotOf_of_decodeScalar h
  | sb => exact slotOf_of_decodeScalar h
  | va => exact slotOf_of_decodeVector h
  | vb => exact slotOf_of_decodeVector h
  | mx => exact slotOf_of_decodeMatrix h
  | ls => exact slotOf_of_decodeLs h
  | sf => exact slotOf_of_decodeSf h

theorem reasons_none_of_any {r : Reasons} (h : r.any = false) : r = Reasons.none := by
  obtain ⟨a, b, c, d, e⟩ := r
  simp only [Reasons.any, Bool.or_eq_false_iff] at h
  obtain ⟨⟨⟨⟨rfl, rfl⟩, rfl⟩, rfl⟩, rfl⟩ := h
  rfl

theorem reasons_or_any (a b : Reasons) : (a.or b).any = (a.any || b.any) := by
  simp only [Reasons.any, Reasons.or]
  ac_rfl

/-- A word is read as an instruction when it names one that meets no decode reason and whose own word it is (R72). -/
theorem decodeSlot_eq_some {sl : Slot} {w : Nat} {i : Instr} (h : decodeSlot sl w = some i) :
    decodeRaw sl (slotBody sl w) = some i ∧ WellFormed i ∧ encodeWord i = slotBody sl w := by
  rw [decodeSlot] at h
  split at h
  case isTrue => cases h
  case isFalse hany =>
    refine ⟨h, ?_⟩
    simp only [slotReasons, h, reasons_or_any, Bool.not_eq_true, Bool.or_eq_false_iff] at hany
    obtain ⟨hinstr, hword⟩ := hany
    simp only [Reasons.any, Bool.false_or, Bool.or_false, Bool.or_eq_false_iff, bne_eq_false_iff_eq] at hword
    obtain ⟨hty, henc⟩ := hword
    rw [hty, Nat.zero_mul, Nat.sub_zero] at henc
    exact ⟨reasons_none_of_any hinstr, henc⟩

/-- The control slot lists no code above 0x16 (R62). -/
theorem decodeCt_unlisted {w : Nat} (h : 0x16 < w / 2 ^ 57 % 128) : decodeCt w = none := by
  unfold decodeCt
  split
  case h_24 => rfl
  all_goals omega

/-- Settles O3: a word without a decode reason is its instruction's own word (`decodeSlot_eq_some`), and the control map ends at 0x16. -/
theorem everyWordHasOneMeaning : Obligations.EveryWordHasOneMeaning := by
  unfold Obligations.EveryWordHasOneMeaning
  refine ⟨fun sl w i _ h => ?_, fun w hw hcode => ?_⟩
  · obtain ⟨hraw, hformed, henc⟩ := decodeSlot_eq_some h
    exact ⟨slotOf_of_decodeRaw hraw, hformed, henc⟩
  · have hbody : slotBody .ct w / 2 ^ 57 = w / 2 ^ 57 := by simp only [slotBody]; omega
    have hraw : decodeRaw .ct (slotBody .ct w) = none := decodeCt_unlisted (by rw [hbody]; omega)
    have hreasons : slotReasons .ct w = { opcode := true } := by rw [slotReasons, hraw]
    rw [decodeSlot, hreasons]
    exact ⟨rfl, rfl⟩

/-- Settles O1: each word is what the encoder writes for its instruction, which is well formed. -/
theorem manualWordsDecode : Obligations.ManualWordsDecode := by
  unfold Obligations.ManualWordsDecode
  exact ⟨decodeSlot_encodeWord (i := .prep 2 64) rfl rfl, decodeSlot_encodeWord (i := .add .sa 3 4 5) rfl rfl,
    decodeSlot_encodeWord (i := .vfma .va 9 0 false ⟨0, 7⟩ ⟨8, 7⟩ ⟨16, 7⟩) rfl rfl,
    decodeSlot_encodeWord (i := .vdiv 9 0 ⟨0, 7⟩ ⟨8, 7⟩ ⟨16, 7⟩) rfl rfl,
    decodeSlot_encodeWord (i := .ldv 10 0 0x1000 false ⟨0, 15⟩) rfl rfl, decodeSlot_encodeWord (i := .fill 4 3 0x180) rfl rfl⟩

end Sys2Proof.Machine
end

section
/-! PROOFS. A bundle that nothing stops issues (R57, R76, R307). -/

open Sys2Proof Sys2Proof.Machine

namespace Sys2Proof.Machine

theorem State.run_of_next {i : Instr} {t t' : State} (h : exec i t = .next t') : t.run i = t' := by rw [State.run, h]

/-- With no decode reason, hazard, busy mark, hold or trap at issue the verdict on a bundle is to issue it (R76). -/
theorem State.bundleVerdict_issue {s : State} {n : Nat} {b : Bundle} (h2 : (stepTwo b).1 = 0) (hz : s.hazards n b = [])
    (hm : b.mark = false ∨ (s.core n).busy s.now = false) (hh : s.holdOf n b false = none) (hc : s.issueChecks n b = none) :
    s.bundleVerdict n b = .issue b := by
  have hmark : (b.mark && !(s.core n).imode && (s.core n).busy s.now) = false := by
    rcases hm with hm | hm <;> simp [hm]
  simp [State.bundleVerdict, h2, hz, hmark, hh, hc]

/-- A bundle whose verdict is to issue does so unless a debug stop or a breakpoint stands (R335). -/
theorem State.attempt_issue {s : State} {n : Nat} {b : Bundle} (hg : s.segmentStep n = s) (hv : s.verdict n = .issue b)
    (hd : (s.core n).debugNow = false) (hb : (s.core n).breakHits = 0) : s.attempt n = s.issue n b := by
  rw [State.attempt, hg]
  simp [hv, hd, hb]

/-- Settles O5: nothing stands at the boundary, the verdict is to issue, and `State.issue` is what the statement writes out. -/
theorem stepIssuesTheDecodedBundle : Obligations.StepIssuesTheDecodedBundle := by
  unfold Obligations.StepIssuesTheDecodedBundle
  intro s n l hbd hp hf hs hg hl hpool hdist _ h2 hz hm hh hc hd hb
  have hstands : s.StandsAt n l := ⟨hbd, hp, hf, hs, hg, hl, hpool, hdist⟩
  have hv : s.verdict n = .issue (decodeLine l) := hstands.verdict.trans (State.bundleVerdict_issue h2 hz hm hh hc)
  refine ⟨?_, fun i t t' => State.run_of_next⟩
  rw [State.issueCore_eq_attempt hbd hp hf hs, State.attempt_issue hg hv hd hb]
  rfl

end Sys2Proof.Machine
end

section
/-! PROOFS. The next bundle of NOP, LOOP and LOOPI (R55, R112, R118, R119). -/

open Sys2Proof Sys2Proof.Machine

namespace Sys2Proof.Machine

/-! ## The loop step -/

theorem stepOn_nil (p : Nat) : stepOn p [] = (p + 1, []) := rfl

theorem stepOn_inside {p : Nat} {e : LoopEntry} (r : List LoopEntry) (h : e.last.toNat ≠ p) : stepOn p (e :: r) = (p + 1, e :: r) := if_neg h

/-- At the END of the innermost loop the loop step decides (R119). -/
theorem stepOn_end {p : Nat} {e : LoopEntry} (r : List LoopEntry) (h : e.last.toNat = p) : stepOn p (e :: r) = loopStep p (e :: r) := if_pos h

theorem loopStep_again {p : Nat} {e : LoopEntry} (r : List LoopEntry) (h : e.iter.toNat + 1 < e.trip.toNat) :
    loopStep p (e :: r) = (e.first.toNat, { e with iter := e.iter + 1 } :: r) := by
  rw [loopStep.eq_def]
  exact if_pos h

theorem loopStep_last {p : Nat} {e : LoopEntry} (h : e.trip.toNat ≤ e.iter.toNat + 1) : loopStep p [e] = (p + 1, []) := by
  rw [loopStep.eq_def]
  exact if_neg (Nat.not_lt.mpr h)

/-- The innermost loop is over: its entry is popped, and the entry below it takes the step at p (R119). -/
theorem loopStep_pop {p : Nat} {e f : LoopEntry} (r : List LoopEntry) (h : e.trip.toNat ≤ e.iter.toNat + 1) :
    loopStep p (e :: f :: r) = stepOn p (f :: r) := by
  have hstep : loopStep p (e :: f :: r) = if f.last.toNat ≠ p then (p + 1, f :: r) else loopStep p (f :: r) := by
    rw [loopStep.eq_def]
    exact if_neg (Nat.not_lt.mpr h)
  rw [hstep]
  by_cases hf : f.last.toNat = p
  · rw [stepOn_end r hf, if_neg (not_not.mpr hf)]
  · rw [stepOn_inside r hf, if_pos hf]

/-! ## NOP -/

/-- NOP in `ct` moves to the bundle that the loop stack selects (R55, R112). -/
theorem exec_nop_ct {s : State} {q : Nat} {loops : List LoopEntry}
    (h : stepOn (s.core s.cur).regs.pc.toNat (s.core s.cur).regs.loops = (q, loops)) (hq : q < s.imageLen s.cur) :
    exec (.nop .ct) s = .next (s.movedTo q loops) := by
  have hn : (s.core s.cur).nextOf (.nop .ct) = (some q, loops) := by rw [nextOf_nop, Core.stepped, h]
  have hc : s.ctSub s.cur (.nop .ct) = none := by rw [ctSub_nop, hn, targetSub_of_lt hq]
  exact ctExec_moves s (.nop .ct) q loops ctPlain_nop (by simp) hc hn

/-- NOP outside `ct` has no effect (R55). -/
theorem exec_nop_other {sl : Slot} (h : sl ≠ .ct) (s : State) : exec (.nop sl) s = .next s := by
  have hslot : exec (.nop sl) s = slotExec (.nop sl) s id := by
    cases sl
    case ct => exact absurd rfl h
    all_goals rfl
  rw [hslot]
  exact slotExec_plain s (.nop sl) id sl rfl h rfl (fun _ => rfl) (fun _ => rfl) rfl rfl (fun _ => rfl) (fun _ => rfl) rfl

/-! ## LOOP and LOOPI -/

/-- A body that ends behind p and within the innermost loop meets no LOOPEND (R118). -/
theorem loopEnd_eq_false {p : Nat} {loops : List LoopEntry} {last : BitVec 24} (hp : p < last.toNat)
    (hl : ∀ e r, loops = e :: r → last.toNat ≤ e.last.toNat ∧ p ≠ e.last.toNat) : loopEnd p loops last = false := by
  have hlt : decide (last.toNat ≤ p) = false := decide_eq_false (Nat.not_le.mpr hp)
  cases loops with
  | nil => simp [loopEnd, hlt]
  | cons e r =>
    obtain ⟨hin, hne⟩ := hl e r rfl
    simp [loopEnd, hlt, hne, Nat.not_lt.mpr hin]

theorem openLoop_skip (p : Nat) (last : BitVec 24) (loops : List LoopEntry) : openLoop p 0 last loops = (last.toNat + 1, loops) := rfl

theorem openLoop_push (p : Nat) {n : Nat} (last : BitVec 24) (loops : List LoopEntry) (h : n ≠ 0) :
    openLoop p n last loops = (p + 1, ⟨BitVec.ofNat 32 n, 0, last, BitVec.ofNat 24 (p + 1)⟩ :: loops) := if_neg h

/-- An instruction without an effect of its own whose only condition is the TARGET of the bundle that it selects: it moves there, or that bundle
lies outside the image (R110, R112). -/
theorem ctExec_selects {s : State} {i : Instr} {q : Nat} {loops : List LoopEntry} (hi : CtPlain i) (ht : ∀ code, i ≠ .trap code)
    (hn : (s.core s.cur).nextOf i = (some q, loops)) (hc : s.ctSub s.cur i = targetSub (s.imageLen s.cur) (some q)) :
    (q < s.imageLen s.cur → ctExec i s id = .next (s.movedTo q loops)) ∧
    (s.imageLen s.cur ≤ q → ctExec i s id = .next (s.takeTrap s.cur ⟨3, 1, 5, 0, (s.core s.cur).regs.pc.toNat⟩)) :=
  ⟨fun h => ctExec_moves s i q loops hi ht (hc.trans (targetSub_of_lt h)) hn,
    fun h => ctExec_faults s i id 5 0 hi ht (hc.trans (targetSub_of_le h))⟩

section Open

variable {s : State} {last : BitVec 24} {q : Nat} {loops : List LoopEntry}
  (hend : loopEnd (s.core s.cur).regs.pc.toNat (s.core s.cur).regs.loops last = false)
include hend

/-- LOOP with a body at a legal END, a count of 32 bits and room on the stack opens its loop or skips it (R118). -/
theorem exec_loop_opens {x : BitVec 6} {n : Nat} (hn : ((s.core s.cur).sreg x.toNat).toNat = n) (h32 : n < 2 ^ 32)
    (hd : n ≠ 0 → (s.core s.cur).regs.loops.length < 6)
    (ho : openLoop (s.core s.cur).regs.pc.toNat n last (s.core s.cur).regs.loops = (q, loops)) :
    (q < s.imageLen s.cur → exec (.loop x last) s = .next (s.movedTo q loops)) ∧
    (s.imageLen s.cur ≤ q → exec (.loop x last) s = .next (s.takeTrap s.cur ⟨3, 1, 5, 0, (s.core s.cur).regs.pc.toNat⟩)) := by
  have hnext : (s.core s.cur).nextOf (.loop x last) = (some q, loops) := by rw [nextOf_loop, hn, ho]
  have hcount : decide (2 ^ 32 ≤ n) = false := decide_eq_false (Nat.not_le.mpr h32)
  have hroom : (decide (n ≠ 0) && decide (6 ≤ (s.core s.cur).regs.loops.length)) = false := by
    simpa [Bool.and_eq_false_imp] using hd
  refine ctExec_selects (ctPlain_loop x last) (by simp) hnext ?_
  rw [ctSub_loop, hnext, hn, hend, hcount, hroom, firstSub_false, firstSub_false, firstSub_false, firstSub_nil]

/-- The same for LOOPI, whose count is an immediate (R118). -/
theorem exec_loopi_opens {trip : BitVec 24} (hd : trip.toNat ≠ 0 → (s.core s.cur).regs.loops.length < 6)
    (ho : openLoop (s.core s.cur).regs.pc.toNat trip.toNat last (s.core s.cur).regs.loops = (q, loops)) :
    (q < s.imageLen s.cur → exec (.loopi trip last) s = .next (s.movedTo q loops)) ∧
    (s.imageLen s.cur ≤ q → exec (.loopi trip last) s = .next (s.takeTrap s.cur ⟨3, 1, 5, 0, (s.core s.cur).regs.pc.toNat⟩)) := by
  have hnext : (s.core s.cur).nextOf (.loopi trip last) = (some q, loops) := by rw [nextOf_loopi, ho]
  have hroom : (decide (trip.toNat ≠ 0) && decide (6 ≤ (s.core s.cur).regs.loops.length)) = false := by
    simpa [Bool.and_eq_false_imp] using hd
  refine ctExec_selects (ctPlain_loopi trip last) (by simp) hnext ?_
  rw [ctSub_loopi, hnext, hend, hroom, firstSub_false, firstSub_false, firstSub_nil]

end Open

/-- Settles O15: NOP by the loop step of each shape of the stack, and LOOP and LOOPI by what `openLoop` selects for their count. -/
theorem loopsOpenAndStep : Obligations.LoopsOpenAndStep := by
  unfold Obligations.LoopsOpenAndStep
  intro s p goes
  have hgoes : ∀ q loops, stepOn p (s.core s.cur).regs.loops = (q, loops) → goes q loops := fun _ _ h hq => exec_nop_ct h hq
  refine ⟨fun h => ?_, fun e r h he => ?_, fun e r h he hi => ?_, fun e h he hi => ?_, fun e f r h he hi hf => ?_, fun e f r h he hi _ => ?_,
    fun sl h => exec_nop_other h s, ?_⟩
  case refine_1 => exact hgoes _ _ (by rw [h, stepOn_nil])
  case refine_2 => exact hgoes _ _ (by rw [h, stepOn_inside r he])
  case refine_3 => exact hgoes _ _ (by rw [h, stepOn_end r he, loopStep_again r hi])
  case refine_4 => exact hgoes _ _ (by rw [h, stepOn_end [] he, loopStep_last hi])
  case refine_5 => exact hgoes _ _ (by rw [h, stepOn_end _ he, loopStep_pop r hi, stepOn_inside r hf])
  case refine_6 => exact hgoes _ _ (by rw [h, stepOn_end _ he, loopStep_pop r hi])
  case refine_7 =>
    intro x trip last loops n out hp hl
    have hend : loopEnd p loops last = false := loopEnd_eq_false hp hl
    have hskip := fun h0 : n = 0 => exec_loop_opens hend (x := x) h0 (by decide) (fun h => absurd rfl h) (openLoop_skip p last loops)
    have hskipi := exec_loopi_opens hend (trip := 0) (fun h => absurd rfl h) (openLoop_skip p last loops)
    refine ⟨fun hlen => ⟨fun h0 => (hskip h0).1 hlen, fun h0 => h0 ▸ hskipi.1 hlen⟩,
      fun hlen => ⟨fun h0 => (hskip h0).2 hlen, fun h0 => h0 ▸ hskipi.2 hlen⟩,
      fun h0 h32 hd hlen => (exec_loop_opens hend rfl h32 (fun _ => hd) (openLoop_push p last loops h0)).1 hlen,
      fun h0 hd hlen => (exec_loopi_opens hend (fun _ => hd) (openLoop_push p last loops (toNat_ne_zero_of_ne h0))).1 hlen⟩

end Sys2Proof.Machine
end

section
/-! PROOFS. Every instruction and every event answers a next state (R76). -/

open Sys2Proof Sys2Proof.Machine

namespace Sys2Proof.Machine

/-! ## What comes over a link, and the service by default -/

/-- An event over a link acts, is lost or waits, and has a next state when its act has one (R410). -/
theorem State.viaPort_next (s : State) (p : Nat) (i : Instr) {act : Host.Outcome State Fault Refusal} (h : ∃ t, act = .next t) :
    ∃ t, s.viaPort p i act = .next t := by
  unfold State.viaPort
  split
  · exact h
  · split <;> exact ⟨_, rfl⟩

theorem State.viaHost_next (s : State) (v : Nat) (i : Instr) {act : Host.Outcome State Fault Refusal} (h : ∃ t, act = .next t) :
    ∃ t, s.viaHost v i act = .next t := s.viaPort_next _ i h

theorem execAbort_next (l : Nat) (s : State) : ∃ t, execAbort l s = .next t := by
  unfold execAbort
  repeat' split
  all_goals exact ⟨_, rfl⟩

/-- The default answer to a stop (R390). -/
theorem State.defaultService_next (s : State) (n : Nat) : ∃ t, s.defaultService n = .next t := by
  unfold State.defaultService
  dsimp only
  split
  · split
    · exact ⟨_, rfl⟩
    · split
      · exact ⟨_, rfl⟩
      · split
        · exact ⟨_, rfl⟩
        · exact execAbort_next ..
  · exact ⟨_, rfl⟩

/-! ## The register page and the debug registers -/

theorem execDoorbell_next (v d q : Nat) (prod : BitVec 32) (s : State) : ∃ t, execDoorbell v d q prod s = .next t := by
  refine s.viaHost_next v _ ?_
  repeat' split
  all_goals exact ⟨_, rfl⟩

theorem execQueueEnable_next (v d q : Nat) (s : State) : ∃ t, execQueueEnable v d q s = .next t := by
  refine s.viaHost_next v _ ?_
  split <;> exact ⟨_, rfl⟩

theorem execQueueDisable_next (v d q : Nat) (s : State) : ∃ t, execQueueDisable v d q s = .next t := by
  refine s.viaHost_next v _ ?_
  split <;> exact ⟨_, rfl⟩

theorem execQueueErrorClear_next (v d q : Nat) (cons : BitVec 32) (s : State) : ∃ t, execQueueErrorClear v d q cons s = .next t := by
  refine s.viaHost_next v _ ?_
  split <;> exact ⟨_, rfl⟩

/-- A host write to a queue register is one of the queue's events, or has no effect (R383, R384). -/
theorem State.hostQueueWrite_next (s : State) (v d q reg : Nat) (x : Word) : ∃ t, s.hostQueueWrite v d q reg x = .next t := by
  unfold State.hostQueueWrite
  dsimp only
  split
  case isTrue => exact ⟨_, rfl⟩
  case isFalse =>
    split
    case h_1 => split <;> exact ⟨_, rfl⟩
    case h_2 =>
      split
      · exact execQueueEnable_next ..
      · exact execQueueDisable_next ..
    case h_3 => exact execDoorbell_next ..
    case h_4 =>
      split
      · exact execQueueErrorClear_next ..
      · exact ⟨_, rfl⟩

theorem State.hostWrite_next (s : State) (v off : Nat) (x : Word) : ∃ t, s.hostWrite v off x = .next t := by
  unfold State.hostWrite
  split
  case h_1 => exact s.hostQueueWrite_next ..
  case h_2 =>
    repeat' split
    all_goals exact ⟨_, rfl⟩

theorem State.pluginWrite_next (s : State) (v off : Nat) (x : Word) : ∃ t, s.pluginWrite v off x = .next t := by
  unfold State.pluginWrite
  dsimp only [execVecctlWrite]
  repeat' split
  all_goals exact ⟨_, rfl⟩

theorem State.writeDbgctl_next (s : State) (n : Nat) (x : Word) : ∃ t, s.writeDbgctl n x = .next t := by
  unfold State.writeDbgctl
  dsimp only [execDebugStopRequest, execDebugResume]
  repeat' split
  all_goals exact ⟨_, rfl⟩

theorem execRegisterWrite_next (r : RegTarget) (v : Word) (s : State) : ∃ t, execRegisterWrite r v s = .next t := by
  cases r with
  | host vf off => exact s.viaHost_next vf _ (s.hostWrite_next vf off v)
  | plugin vf off => exact s.pluginWrite_next vf off v
  | trcctl | trcsize | trg | trgr => exact ⟨_, rfl⟩
  | dbgctl n => exact s.writeDbgctl_next n v
  | dbgbrk n k =>
    unfold execRegisterWrite
    dsimp only
    split <;> exact ⟨_, rfl⟩

/-! ## Events of several branches -/

theorem execForwardedPacket_next (d q : Nat) (seq : BitVec 32) (packet : Line) (s : State) :
    ∃ t, execForwardedPacket d q seq packet s = .next t := by
  refine s.viaPort_next rackLink _ ?_
  dsimp only
  repeat' split
  all_goals exact ⟨_, rfl⟩

theorem execFlitReceive_next (stream src secret epoch pn : Nat) (s : State) : ∃ t, execFlitReceive stream src secret epoch pn s = .next t := by
  unfold execFlitReceive
  dsimp only
  split
  · exact ⟨_, rfl⟩
  · refine s.viaPort_next _ _ ?_
    split <;> exact ⟨_, rfl⟩

theorem execEvidenceRequest_next (v : Nat) (nonce : BitVec 256) (s : State) : ∃ t, execEvidenceRequest v nonce s = .next t := by
  unfold execEvidenceRequest
  split
  · exact ⟨_, rfl⟩
  · exact s.viaPort_next _ _ ⟨_, rfl⟩

/-- A service that firmware may refuse answers by itself or by default (R308, R390). -/
theorem execServiceResume_next (n : Nat) (s : State) : ∃ t, execServiceResume n s = .next t := by
  unfold execServiceResume
  dsimp only
  split
  · split
    · exact ⟨_, rfl⟩
    · exact s.defaultService_next n
  · exact ⟨_, rfl⟩

theorem execSkip_next (n : Nat) (s : State) : ∃ t, execSkip n s = .next t := by
  unfold execSkip
  dsimp only
  split
  · split
    · exact ⟨_, rfl⟩
    · exact s.defaultService_next n
  · exact ⟨_, rfl⟩

theorem execRollback_next (n : Nat) (s : State) : ∃ t, execRollback n s = .next t := by
  unfold execRollback
  split
  · split <;> exact ⟨_, rfl⟩
  · exact s.defaultService_next n

theorem execPolicyDeadline_next (n : Nat) (s : State) : ∃ t, execPolicyDeadline n s = .next t := by
  unfold execPolicyDeadline
  split
  · exact ⟨_, rfl⟩
  · exact s.defaultService_next n

/-! ## Every instruction and event -/

/-- An event acts in every branch of its meaning, and without its condition it leaves the state. -/
theorem exec_next_of_event {i : Instr} (h : slotOf i = none) (s : State) : ∃ t, exec i s = .next t := by
  cases i
  case resultLanding | correctedEvent | graphRegister | slotInstall | vecctlWrite | vectorAgeExpiry | worldKeyInstall | timeSync | grandmasterLoss =>
    exact ⟨_, rfl⟩
  case longPendingLanding | globalLoadRead | tileLanding | mstcLanding | scaleLanding | fillComplete | parkWrite | markOverdue | drainComplete
      | pageWalk | translate =>
    delta exec
    dsimp only [execLongPendingLanding, execGlobalLoadRead, execTileLanding, execMstcLanding, execScaleLanding, execFillComplete, execParkWrite,
      execMarkOverdue, execDrainComplete, execPageWalk, execTranslate]
    repeat' split
    all_goals exact ⟨_, rfl⟩
  case dataError | jobBegin | copySector | bankProductSector | jobFault | wake | txwake | release =>
    delta exec
    dsimp only [execDataError, execJobBegin, execCopySector, execBankProductSector, execJobFault, execWake, execTxwake, execRelease]
    repeat' split
    all_goals exact ⟨_, rfl⟩
  case queueCreate | waitWordPoll | nopPacket | unassignedPacket | launchPacket | launchStart | launchRetire | graphPacket | conditionalNode
      | copySubmission | copySubmissionRetire =>
    delta exec
    dsimp only [execQueueCreate, execWaitWordPoll, execNopPacket, execUnassignedPacket, execLaunchPacket, execLaunchStart, execLaunchRetire,
      execGraphPacket, execConditionalNode, execCopySubmission, execCopySubmissionRetire]
    repeat' split
    all_goals exact ⟨_, rfl⟩
  case slotOpen | slotOverrun | segmentLineArrival | instructionLineRefetch | saveRecord | resume | shootdown | shootdownComplete | imageLoad =>
    delta exec
    dsimp only [execSlotOpen, execSlotOverrun, execSegmentLineArrival, execInstructionLineRefetch, execSaveRecord, execResume, execShootdown,
      execShootdownComplete, execImageLoad]
    repeat' split
    all_goals exact ⟨_, rfl⟩
  case claim | testStart | testEnd | evacuationTimeout | mapChange | recompileDone | debugStopRequest | debugStop | debugResume | debugStateWrite =>
    delta exec
    dsimp only [execClaim, execTestStart, execTestEnd, execEvacuationTimeout, execMapChange, execRecompileDone, execDebugStopRequest,
      execDebugStop, execDebugResume, execDebugStateWrite]
    repeat' split
    all_goals exact ⟨_, rfl⟩
  case firmwareStaged | handover | alive | probationDeadline | firmwareRollback | partitionChange | pageAllocation | boot | pkgstatUpdate =>
    delta exec
    dsimp only [execFirmwareStaged, execHandover, execAlive, execProbationDeadline, execFirmwareRollback, execPartitionChange, execPageAllocation,
      execBoot, execPkgstatUpdate]
    repeat' split
    all_goals exact ⟨_, rfl⟩
  case frameTableWrite | frameOpen | frameClose | clear | keySlotWrite | flitGroupSeal | keyExhaustedTimeout | pendingKeyProgram | portRetrain
      | fabricKeyHandover =>
    delta exec
    dsimp only [execFrameTableWrite, execFrameOpen, execFrameClose, execClear, execKeySlotWrite, execFlitGroupSeal, execKeyExhaustedTimeout,
      execPendingKeyProgram, execPortRetrain, execFabricKeyHandover]
    repeat' split
    all_goals exact ⟨_, rfl⟩
  case doorbell => exact execDoorbell_next ..
  case queueEnable => exact execQueueEnable_next ..
  case queueDisable => exact execQueueDisable_next ..
  case queueErrorClear => exact execQueueErrorClear_next ..
  case forwardedPacket => exact execForwardedPacket_next ..
  case serviceResume => exact execServiceResume_next ..
  case skip => exact execSkip_next ..
  case rollback => exact execRollback_next ..
  case abort => exact execAbort_next ..
  case policyDeadline => exact execPolicyDeadline_next ..
  case registerWrite => exact execRegisterWrite_next ..
  case evidenceRequest => exact execEvidenceRequest_next ..
  case flitReceive => exact execFlitReceive_next ..
  all_goals cases h

theorem ctExec_next (i : Instr) (s : State) (eff : State → State) : ∃ t, ctExec i s eff = .next t := slotExec_next i s _

/-- A slot instruction takes its trap or its effect (`slotExec_next`). -/
theorem exec_next (i : Instr) (s : State) : ∃ t, exec i s = .next t := by
  cases i
  case nop sl =>
    delta exec
    dsimp only [execNop]
    split
    · exact ctExec_next ..
    · exact slotExec_next ..
  case prep | br | brn | jmp | call | calli | ret | loop | loopi | lexit | step | bari | bara | baraw | barw | fence | txwait | trap | halt
      | csrr | csrw | pool =>
    delta exec
    dsimp only [execPrep, execBr, execBrn, execJmp, execCall, execCalli, execRet, execLoop, execLoopi, execLexit, execStep, execBari, execBara,
      execBaraw, execBarw, execFence, execTxwait, execTrap, execHalt, execCsrr, execCsrw, execPool]
    exact ctExec_next ..
  case add | sub | mul | mulh | mulhu | div | divu | rem | remu | and | or | xor | shl | shr | sra | min | max | minu | maxu | ceq | cne | clt
      | cltu | sel | clz | ctz | popc | agen | rdli | rdjt | rdxy | addi | andi | ori | xori | shli | shri | srai | ceqi | clti | movi | movih
      | vadd | vsub | vmul | vfma | vfms | vmin | vmax | vabs | vneg | vaddi | vmuli | vand | vor | vxor | vnot | vshl | vshr | vsra | vshli
      | vshri | vsrai | vclz | vpop | vcvt | vmov | vbri | vsplat | vsel | vceq | vcne | vclt | vcle | vcmpu | kand | kor | kxor | kandn | knot
      | vredadd | vredmax | vredmin | vperm | vrot | vlane | xmov | vpack | vunpk | vsumx | vdiv | vsqrt | vrcp | vrsq | vexp2 | vlog2 | vrcpl
      | mma | mmz | mmat | mmzt | mclr | maddc | mcvt | mldc | mbias | mstc | lds | sts | atadd | atmin | atmax | atminu | atmaxu | atand | ator
      | atxch | atcas | pref | txinit | txarv | ldv | stv | ldvs | stvs | ldvb | ldk | stk | ldvx | stvx | slda | sldb | park | unpk | fill =>
    delta exec
    dsimp only
    exact slotExec_next ..
  all_goals exact exec_next_of_event rfl s

/-- Settles O6: `exec_next`. -/
theorem everyInstructionHasANextState : Obligations.EveryInstructionHasANextState := by
  unfold Obligations.EveryInstructionHasANextState
  exact exec_next

end Sys2Proof.Machine
end

section
/-! PROOFS. The E8M0 scale of a matrix element (R89, R92). -/

open Sys2Proof Sys2Proof.Machine

namespace Sys2Proof.Machine

/-- Refutes O13 in its clause on E8M0 scales, which the statement makes of every floating format: an element of the matrix unit in E8M10 stands in
the high 19 bits of a 32-bit container (R92), so that the canonical NaN of E8M10, taken as a container, holds a subnormal number. The formats that
R89 scales are the MX ones, and E8M10 is not among them. -/
theorem not_numberFormatsRoundAndPlace : ¬ Obligations.NumberFormatsRoundAndPlace := by
  unfold Obligations.NumberFormatsRoundAndPlace
  rintro ⟨-, -, -, -, hscale, -⟩
  have hbyte : (0 : BitVec 2048).toNat = 0 := BitVec.toNat_zero
  have hnan : FFmt.e8m10.value 0x3FE00 = .nan := by decide
  have hcontainer : scaledElem (.num (.flt .e8m10)) .mx 0 0 0 0x3FE00 = .fin false 31 (-263) := by
    simp only [scaledElem, hbyte]
    decide
  have hscaled := (hscale .e8m10 0 0 0 0x3FE00 (by decide)).2 (by rw [hbyte]; decide)
  rw [hscaled.1 hnan] at hcontainer
  cases hcontainer

end Sys2Proof.Machine
end

section
/-! PROOFS. The patterns that rounding and conversion give fit their format (R82, R95, R99). -/

open Sys2Proof Sys2Proof.Machine

namespace Sys2Proof.Machine

theorem FFmt.maxFinite_lt (f : FFmt) : f.maxFinite < 2 ^ (f.width - 1) := by cases f <;> decide

theorem FFmt.infPattern_lt (f : FFmt) : f.infPattern < 2 ^ (f.width - 1) := by cases f <;> decide

theorem FFmt.canonicalNaN_lt (f : FFmt) : f.canonicalNaN < 2 ^ f.width := by cases f <;> decide

theorem FFmt.roundMag_lt (f : FFmt) (num den : Nat) (e : Int) : f.roundMag num den e < 2 ^ (f.width - 1) := by
  have hmax := f.maxFinite_lt
  have hinf := f.infPattern_lt
  simp only [FFmt.roundMag]
  split
  · exact Nat.two_pow_pos _
  · split
    · omega
    · split <;> assumption

theorem FFmt.signed_lt (f : FFmt) (neg : Bool) {mag : Nat} (h : mag < 2 ^ (f.width - 1)) : f.signed neg mag < 2 ^ f.width := by
  have hw : 2 ^ f.width = 2 * 2 ^ (f.width - 1) := (Nat.pow_succ' : 2 ^ (f.width - 1 + 1) = _)
  have hsign : b2n neg ≤ 1 := by cases neg <;> decide
  have hbit : b2n neg * 2 ^ (f.width - 1) ≤ 1 * 2 ^ (f.width - 1) := Nat.mul_le_mul_right _ hsign
  rw [FFmt.signed, Nat.shiftLeft_eq]
  omega

/-- A rounded value is a pattern of its format. -/
theorem FFmt.round_lt (f : FFmt) (v : FVal) : f.round v < 2 ^ f.width := by
  cases v with
  | nan => exact f.canonicalNaN_lt
  | inf neg =>
    refine f.signed_lt neg ?_
    split
    · exact f.infPattern_lt
    · exact f.maxFinite_lt
  | fin neg m e => exact f.signed_lt neg (f.roundMag_lt m 1 e)

theorem convFF_lt (v : FVal) (f : FFmt) (sat : Bool) : convFF v f sat < 2 ^ f.width := by
  have hround := f.round_lt v
  simp only [convFF, FFmt.satPattern]
  split
  · split
    · exact f.signed_lt _ f.maxFinite_lt
    · exact hround
  · exact hround

theorem toPattern_lt (n : Nat) (x : Int) : toPattern n x < 2 ^ n := by
  have h := Int.emod_lt_of_pos x (Int.natCast_pos.mpr (Nat.two_pow_pos n))
  have h0 := Int.emod_nonneg x (Int.natCast_pos.mpr (Nat.two_pow_pos n)).ne'
  unfold toPattern
  omega

/-- A conversion gives a pattern of the target format. -/
theorem convertPattern_lt (v : Val) (t : NumFmt) (sat : Bool) : convertPattern v t sat < 2 ^ t.width := by
  cases t with
  | int s n => cases v <;> exact toPattern_lt _ _
  | flt f => cases v <;> exact convFF_lt _ _ _

theorem AccFmt.num_width (a : AccFmt) : a.num.width = 8 * a.bytes := by cases a <;> rfl

end Sys2Proof.Machine
end

section
/-! PROOFS. Elements of packed arrays, and sums of products over groups (R92, R105, R106). -/

open Sys2Proof Sys2Proof.Machine

namespace Sys2Proof.Machine

/-! ## Elements -/

theorem elemAt_eq (b v k : Nat) : elemAt b v k = v / 2 ^ (b * k) % 2 ^ b := by rw [elemAt, Nat.shiftRight_eq_div_pow]

/-- An element of an array packed from a list whose element fits. -/
theorem packBits_elem_of_lt {b : Nat} {l : List Nat} {k x : Nat} (h : nth 0 l k = x) (hx : x < 2 ^ b) :
    packBits b l / 2 ^ (b * k) % 2 ^ b = x := by
  rw [packBits_elem, h, Nat.mod_eq_of_lt hx]

/-- Rows of equal length one after another: element k of row l. -/
theorem nth_flatMap {α β : Type} (d : β) (e : α) {F : α → List β} {g : Nat} {rows : List α} {l k : Nat} (hF : ∀ x ∈ rows, (F x).length = g)
    (hl : l < rows.length) (hk : k < g) : nth d (rows.flatMap F) (g * l + k) = nth d (F (nth e rows l)) k := by
  induction rows generalizing l with
  | nil => cases hl
  | cons x rows ih =>
    have hx : (F x).length = g := hF x (by simp)
    rw [List.flatMap_cons]
    cases l with
    | zero => simp [nth, List.getElem?_append_left (hx ▸ hk)]
    | succ l =>
      have hrest := ih (fun y hy => hF y (List.mem_cons_of_mem _ hy)) (Nat.lt_of_succ_lt_succ hl)
      have hpos : g * (l + 1) + k - (F x).length = g * l + k := by rw [hx, Nat.mul_succ]; omega
      have happ : nth d (F x ++ rows.flatMap F) (g * (l + 1) + k) = nth d (rows.flatMap F) (g * l + k) := by
        simp only [nth]
        rw [List.getElem?_append_right (by rw [hx, Nat.mul_succ]; omega), hpos]
      rw [happ, hrest]
      simp [nth]

/-- The same for rows and columns given by number. -/
theorem nth_flatMap_range {β : Type} (d : β) (F : Nat → Nat → β) {r g l k : Nat} (hl : l < r) (hk : k < g) :
    nth d ((List.range r).flatMap (fun l => (List.range g).map (F l))) (g * l + k) = F l k := by
  rw [nth_flatMap d 0 (g := g) (by simp) (by simpa using hl) hk, nth_map_range _ _ _ _ hk, nth_eq_getElem _ _ _ (by simpa using hl)]
  simp

/-! ## Groups -/

/-- A list of q groups of n, cut into its groups. -/
theorem chunks_range_mul {α : Type} {n : Nat} (hn : 0 < n) (q fuel : Nat) (F : Nat → α) (hq : q ≤ fuel) :
    chunks n fuel ((List.range (n * q)).map F) = (List.range q).map (fun j => (List.range n).map (fun k => F (n * j + k))) := by
  induction q generalizing fuel F with
  | zero => cases fuel <;> simp [chunks]
  | succ q ih =>
    obtain ⟨fuel, rfl⟩ : ∃ m, fuel = m + 1 := ⟨fuel - 1, by omega⟩
    have hsplit : (List.range (n * (q + 1))).map F =
        (List.range n).map F ++ (List.range (n * q)).map (fun k => F (n + k)) := by
      rw [Nat.mul_succ, Nat.add_comm, List.range_add, List.map_append, List.map_map]; rfl
    have hlen : ((List.range n).map F).length = n := by simp
    have hne : ((List.range n).map F ++ (List.range (n * q)).map (fun k => F (n + k))).isEmpty = false := by
      rw [List.isEmpty_eq_false_iff, ← List.length_pos_iff, List.length_append]; omega
    rw [hsplit, chunks, hne, if_neg Bool.false_ne_true, List.take_left' hlen, List.drop_left' hlen, ih fuel _ (by omega),
      List.range_succ_eq_map, List.map_cons, List.map_map]
    simp only [Nat.mul_zero, Nat.zero_add, Function.comp_def, Nat.mul_succ]
    congr 1
    refine List.map_congr_left fun j _ => List.map_congr_left fun k _ => congrArg F ?_
    omega

/-- A grouped sum over q groups of n products: one exact group sum and one rounding for each (R105, R106). -/
theorem groupedSum_range_mul {n : Nat} (hn : 0 < n) (acc : FFmt) (q start : Nat) (P : Nat → FVal) :
    groupedSum acc n start ((List.range (n * q)).map P) = (List.range q).foldl
      (fun c j => acc.round ((acc.value c).add (exactSum ((List.range n).map (fun k => P (n * j + k)))))) start := by
  have hq : q ≤ ((List.range (n * q)).map P).length := by simpa using Nat.le_mul_of_pos_left q hn
  rw [groupedSum, chunks_range_mul hn q _ P hq, List.foldl_map]
  rfl

end Sys2Proof.Machine
end

section
/-! PROOFS. The accumulators of array products, element by element (R89, R90, R105 to R107, R189 to R192, R200). -/

open Sys2Proof Sys2Proof.Machine

namespace Sys2Proof.Machine

/-! ## Any product -/

/-- An FP32 accumulator: from `start` on, one exact sum of g products and one rounding for each of the groups (R105, R106). -/
def dotFp32 (g groups start : Nat) (A B : Nat → FVal) : Nat :=
  (List.range groups).foldl (fun acc j => FFmt.f32.round
    ((FFmt.f32.value acc).add (exactSum ((List.range g).map (fun k => (A (g * j + k)).mul (B (g * j + k))))))) start

/-- A dot product in FP32 groups is `dotFp32`. -/
theorem dotAcc_fp32 {s : Shape} {groups : Nat} (hacc : s.acc = .fp32) (hg : 0 < s.group) (hk : s.k = s.group * groups) (start : Nat)
    (A B : Nat → FVal) (ai bi : List Int) :
    dotAcc s start ((List.range s.k).map A) ((List.range s.k).map B) ai bi = dotFp32 s.group groups start A B := by
  rw [dotAcc, hacc, List.zipWith_map, List.zipWith_self, hk]
  exact groupedSum_range_mul hg .f32 groups start (fun k => (A k).mul (B k))

theorem dotFp32_lt (g groups start : Nat) (A B : Nat → FVal) : dotFp32 g (groups + 1) start A B < 2 ^ 32 := by
  rw [dotFp32, List.range_succ, List.foldl_append]
  exact FFmt.f32.round_lt _

/-- A dot product of integers is their sum of products modulo 2^32 (R107). -/
theorem dotAcc_int32 {s : Shape} (hacc : s.acc = .int32) (a b : List FVal) (A B : Nat → Int) :
    dotAcc s 0 a b ((List.range s.k).map A) ((List.range s.k).map B) =
      toPattern 32 (((List.range s.k).map (fun k => A k * B k)).foldr (· + ·) 0) := by
  rw [dotAcc, hacc, List.zipWith_map, List.zipWith_self, ← List.foldl_eq_foldr]
  simp

/-- Position of element (k, n) of B in its packed array: by columns, or by rows in the T forms (R190). -/
def Shape.posB (s : Shape) (trans : Bool) (n k : Nat) : Nat := if trans then s.n * k + n else s.k * n + k

section Product
variable {s : Shape} {fa fb : MFmt} {a b m n : Nat} {sa sb : BitVec 2048} {trans : Bool} {src : Nat → Nat}

/-- Accumulator (m, n) of an FP32 product. -/
theorem matProduct_fp32 {groups : Nat} (hacc : s.acc = .fp32) (hg : 0 < s.group) (hk : s.k = s.group * (groups + 1)) (hm : m < s.m)
    (hn : n < s.n) : matProduct s fa fb a b sa sb trans src / 2 ^ (32 * (s.n * m + n)) % 2 ^ 32 =
      dotFp32 s.group (groups + 1) (src (s.n * m + n)) (fun k => scaledElem fa s.scaling sa m k (elemAt fa.storeWidth a (s.k * m + k)))
        (fun k => scaledElem fb s.scaling sb n k (elemAt fb.storeWidth b (s.posB trans n k))) := by
  have hint : (s.acc == AccFmt.int32) = false := by rw [hacc]; rfl
  have hbits : 8 * s.acc.bytes = 32 := by rw [hacc]; rfl
  simp only [matProduct, hint, hbits, Bool.false_eq_true, if_false, ← List.map_prod_left_eq_zip, List.flatMap_map, List.map_map,
    Function.comp_def]
  refine packBits_elem_of_lt ?_ (dotFp32_lt ..)
  rw [nth_flatMap_range _ _ hm hn, dotAcc_fp32 hacc hg hk]
  simp only [Shape.posB, Nat.mul_comm m, Nat.mul_comm n, Nat.mul_comm _ s.n]

/-- Accumulator (m, n) of an integer product that starts at 0. -/
theorem matProduct_int32 (hacc : s.acc = .int32) (hm : m < s.m) (hn : n < s.n) (hsrc : src (s.n * m + n) = 0) :
    matProduct s fa fb a b sa sb trans src / 2 ^ (32 * (s.n * m + n)) % 2 ^ 32 =
      toPattern 32 (((List.range s.k).map (fun k => storedInt fa (elemAt fa.storeWidth a (s.k * m + k)) *
        storedInt fb (elemAt fb.storeWidth b (s.posB trans n k)))).foldr (· + ·) 0) := by
  have hint : (s.acc == AccFmt.int32) = true := by rw [hacc]; rfl
  have hbits : 8 * s.acc.bytes = 32 := by rw [hacc]; rfl
  simp only [matProduct, hint, hbits, if_true, ← List.map_prod_left_eq_zip, List.flatMap_map, List.map_map, Function.comp_def]
  refine packBits_elem_of_lt ?_ (toPattern_lt ..)
  rw [nth_flatMap_range _ _ hm hn, Nat.mul_comm m, hsrc, dotAcc_int32 hacc]
  simp only [Shape.posB, Nat.mul_comm m, Nat.mul_comm n, Nat.mul_comm _ s.n]

end Product

end Sys2Proof.Machine
end

section
/-! PROOFS. The elements of each matrix format and the array products of the manual's pairings (R89, R90, R189 to R192, R200). -/

open Sys2Proof Sys2Proof.Machine

namespace Sys2Proof.Machine

/-! ## Stored elements -/

/-- The number of an E8M0 pattern (R88). -/
def e8m0Value (e : Nat) : FVal := if e = 255 then .nan else .fin false 1 ((e : Int) - 127)

/-- A power of two scales as a factor. -/
theorem FVal.mul_pow (v : FVal) (k : Int) : v.mul (.fin false 1 k) = v.scale k := by
  cases v <;> simp [FVal.mul, FVal.scale]

@[simp] theorem FVal.mul_nan (v : FVal) : v.mul .nan = .nan := by cases v <;> rfl

@[simp] theorem FVal.scale_zero (v : FVal) : v.scale 0 = v := by cases v <;> simp [FVal.scale]

/-- The scale byte E acts as the factor 2^(E − 127), and 0xFF as NaN (R88, R89). -/
theorem FVal.mul_e8m0Value (v : FVal) (e : Nat) :
    v.mul (e8m0Value e) = if ((e : Int) == 0xFF) = true then .nan else v.scale ((e : Int) - 127) := by
  by_cases h : e = 255
  · simp [e8m0Value, h]
  · have hInt : ((e : Int) == 0xFF) = false := beq_false_of_ne (by omega)
    rw [e8m0Value, if_neg h, FVal.mul_pow, hInt]
    rfl

theorem scaledElem_plain (f : MFmt) (scale : BitVec 2048) (row k x : Nat) : scaledElem f .plain scale row k x = storedElem f x := by
  change (storedElem f x).scale 0 = _
  exact FVal.scale_zero _

theorem scaledElem_mx (f : MFmt) (scale : BitVec 2048) (row k x : Nat) :
    scaledElem f .mx scale row k x = (storedElem f x).mul (e8m0Value (scale.toNat / 2 ^ (8 * row) % 256)) := by
  rw [FVal.mul_e8m0Value, scaledElem, elemAt_eq]
  rfl

theorem scaledElem_bfp (f : MFmt) (scale : BitVec 2048) (row k x : Nat) :
    scaledElem f .bfp scale row k x = (storedElem f x).mul (e8m0Value (scale.toNat / 2 ^ (8 * (2 * row + k / 16)) % 256)) := by
  rw [FVal.mul_e8m0Value, scaledElem, elemAt_eq]
  rfl

/-- A byte as two's complement (R11). -/
theorem toSigned_byte {x : Nat} (h : x < 256) : toSigned 8 x = if x < 128 then (x : Int) else (x : Int) - 256 := by
  simp [toSigned, Nat.mod_eq_of_lt h]

/-- A mantissa of BFP8 (R90). -/
theorem storedElem_bfp8 {x : Nat} (h : x < 256) :
    storedElem (.bfp 8) x = .fin (decide (128 ≤ x)) (if x < 128 then x else 256 - x) (-6) := by
  have hsign : (toSigned 8 x < 0) = (128 ≤ x) := by rw [toSigned_byte h, eq_iff_iff]; split <;> omega
  have hmag : (toSigned 8 x).natAbs = if x < 128 then x else 256 - x := by rw [toSigned_byte h]; split <;> omega
  simp only [storedElem, hsign, hmag]
  rfl

/-! ## The products of a core -/

/-- The start of accumulator i: −0 or 0 for MMZ, the tile's or a forwarded one for MMA (R196, R200). -/
def Core.productStart (c : Core) (acc : AccFmt) (now t : Nat) (zero : Bool) (i : Nat) : Nat :=
  if zero then zeroStart acc else elemAt (8 * acc.bytes) (c.startBytes now t) i

/-- With nothing pending MMA starts from the tile. -/
theorem Core.startBytes_of_tiles_nil {c : Core} (h : c.tiles = []) (now t : Nat) : c.startBytes now t = c.tileBytes t := by
  simp [Core.startBytes, Core.lastOn, Core.pendingOn, h]

section Product
variable {c : Core} {now : Nat} {af bf : BitVec 5} {t : BitVec 4} {aoff : BitVec 11} {woff : BitVec 12} {zero trans : Bool}
  {fa fb : MFmt} {s : Shape} {m n : Nat}

theorem Core.arrayResult_of_shape (hfa : mfmt af.toNat = some fa) (hfb : mfmt bf.toNat = some fb) (hs : shapeOf fa fb = some s) :
    (c.arrayResult now af bf t aoff woff zero trans).1 =
      matProduct s fa fb (c.bufRead .a (256 * aoff.toNat) (s.aBytes fa)) (c.bufRead .w (256 * woff.toNat) (s.bBytes fb))
        c.regs.scaleA c.regs.scaleB trans (c.productStart s.acc now t.toNat zero) := by
  simp only [Core.arrayResult, hfa, hfb, hs]
  cases zero <;> rfl

/-- Accumulator (m, n) of a product with FP32 accumulators, from the elements A of the row and B of the column. -/
theorem Core.arrayResult_fp32 {start groups : Nat} {A B : Nat → FVal} (hfa : mfmt af.toNat = some fa) (hfb : mfmt bf.toNat = some fb)
    (hs : shapeOf fa fb = some s) (hacc : s.acc = .fp32) (hg : 0 < s.group) (hk : s.k = s.group * (groups + 1)) (hm : m < s.m) (hn : n < s.n)
    (hstart : c.productStart s.acc now t.toNat zero (s.n * m + n) = start)
    (hA : ∀ k, scaledElem fa s.scaling c.regs.scaleA m k
      (c.bufRead .a (256 * aoff.toNat) (s.aBytes fa) / 2 ^ (fa.storeWidth * (s.k * m + k)) % 2 ^ fa.storeWidth) = A k)
    (hB : ∀ k, scaledElem fb s.scaling c.regs.scaleB n k
      (c.bufRead .w (256 * woff.toNat) (s.bBytes fb) / 2 ^ (fb.storeWidth * s.posB trans n k) % 2 ^ fb.storeWidth) = B k) :
    (c.arrayResult now af bf t aoff woff zero trans).1 / 2 ^ (32 * (s.n * m + n)) % 2 ^ 32 = dotFp32 s.group (groups + 1) start A B := by
  rw [Core.arrayResult_of_shape hfa hfb hs, matProduct_fp32 hacc hg hk hm hn, ← hstart, ← funext hA, ← funext hB]
  simp only [elemAt_eq]

/-- Accumulator (m, n) of an integer product of MMZ, from the elements A of the row and B of the column. -/
theorem Core.arrayResult_int32 {A B : Nat → Int} (hfa : mfmt af.toNat = some fa) (hfb : mfmt bf.toNat = some fb)
    (hs : shapeOf fa fb = some s) (hacc : s.acc = .int32) (hm : m < s.m) (hn : n < s.n)
    (hA : ∀ k, storedInt fa (c.bufRead .a (256 * aoff.toNat) (s.aBytes fa) / 2 ^ (fa.storeWidth * (s.k * m + k)) % 2 ^ fa.storeWidth) = A k)
    (hB : ∀ k, storedInt fb (c.bufRead .w (256 * woff.toNat) (s.bBytes fb) / 2 ^ (fb.storeWidth * s.posB trans n k) % 2 ^ fb.storeWidth) =
      B k) :
    (c.arrayResult now af bf t aoff woff true trans).1 / 2 ^ (32 * (s.n * m + n)) % 2 ^ 32 =
      toPattern 32 (((List.range s.k).map (fun k => A k * B k)).foldr (· + ·) 0) := by
  have hsrc : c.productStart s.acc now t.toNat true (s.n * m + n) = 0 := by rw [hacc]; rfl
  rw [Core.arrayResult_of_shape hfa hfb hs, matProduct_int32 hacc hm hn hsrc, ← funext hA, ← funext hB]
  simp only [elemAt_eq]

end Product

/-! ## The products of four formats -/

section Formats
variable (c : Core) (now : Nat) (t : BitVec 4) (aoff : BitVec 11) (woff : BitVec 12) (zero trans : Bool) {m n : Nat}

/-- A byte of an operand as an INT8 element. -/
def signedByte (x : Nat) : Int := if x < 128 then (x : Int) else (x : Int) - 256

/-- INT8 by INT8: the sum of 32 products modulo 2^32. -/
theorem Core.arrayResult_int8 (hm : m < 32) (hn : n < 64) :
    (c.arrayResult now 19 19 t aoff woff true trans).1 / 2 ^ (32 * (64 * m + n)) % 2 ^ 32 = toPattern 32 (((List.range 32).map (fun k =>
      signedByte (c.bufRead .a (256 * aoff.toNat) 1024 / 2 ^ (8 * (32 * m + k)) % 256) *
      signedByte (c.bufRead .w (256 * woff.toNat) 2048 / 2 ^ (8 * (if trans then 64 * k + n else 32 * n + k)) % 256))).foldr (· + ·) 0) :=
  Core.arrayResult_int32 (s := ⟨32, 64, 32, 16, .int32, .plain, 0⟩) rfl rfl rfl rfl hm hn
    (fun k => toSigned_byte (Nat.mod_lt _ (by decide))) (fun k => toSigned_byte (Nat.mod_lt _ (by decide)))

/-- BF16 by BF16: four groups of eight products. -/
theorem Core.arrayResult_bf16 (hm : m < 32) (hn : n < 32) :
    (c.arrayResult now 3 3 t aoff woff zero trans).1 / 2 ^ (32 * (32 * m + n)) % 2 ^ 32 =
      dotFp32 8 4 (c.productStart .fp32 now t.toNat zero (32 * m + n))
        (fun k => FFmt.bf16.value (c.bufRead .a (256 * aoff.toNat) 2048 / 2 ^ (16 * (32 * m + k)) % 2 ^ 16))
        (fun k => FFmt.bf16.value (c.bufRead .w (256 * woff.toNat) 2048 / 2 ^ (16 * (if trans then 32 * k + n else 32 * n + k)) % 2 ^ 16)) :=
  Core.arrayResult_fp32 (s := ⟨32, 32, 32, 16, .fp32, .plain, 8⟩) rfl rfl rfl rfl (by decide) rfl hm hn rfl
    (fun k => scaledElem_plain (.num (.flt .bf16)) ..) (fun k => scaledElem_plain (.num (.flt .bf16)) ..)

/-- E4M3 by E4M3: four groups of eight products, each element under the scale byte of its row or column. -/
theorem Core.arrayResult_e4m3 (hm : m < 32) (hn : n < 64) :
    (c.arrayResult now 5 5 t aoff woff true trans).1 / 2 ^ (32 * (64 * m + n)) % 2 ^ 32 = dotFp32 8 4 (2 ^ 31)
      (fun k => (FFmt.e4m3.value (c.bufRead .a (256 * aoff.toNat) 1024 / 2 ^ (8 * (32 * m + k)) % 256)).mul
        (e8m0Value (c.regs.scaleA.toNat / 2 ^ (8 * m) % 256)))
      (fun k => (FFmt.e4m3.value (c.bufRead .w (256 * woff.toNat) 2048 / 2 ^ (8 * (if trans then 64 * k + n else 32 * n + k)) % 256)).mul
        (e8m0Value (c.regs.scaleB.toNat / 2 ^ (8 * n) % 256))) :=
  Core.arrayResult_fp32 (s := ⟨32, 64, 32, 16, .fp32, .mx, 8⟩) rfl rfl rfl rfl (by decide) rfl hm hn rfl
    (fun k => scaledElem_mx (.num (.flt .e4m3)) ..) (fun k => scaledElem_mx (.num (.flt .e4m3)) ..)

/-- The value of a BFP8 mantissa before its block's exponent (R90). -/
def bfp8Mantissa (x : Nat) : FVal := .fin (decide (128 ≤ x)) (if x < 128 then x else 256 - x) (-6)

/-- A mantissa of BFP8 under the exponent of its block (R90). -/
theorem scaledElem_bfp8 {scale : BitVec 2048} {row k x : Nat} (h : x < 256) : scaledElem (.bfp 8) .bfp scale row k x =
    (bfp8Mantissa x).mul (e8m0Value (scale.toNat / 2 ^ (8 * (2 * row + k / 16)) % 256)) := by
  rw [scaledElem_bfp, storedElem_bfp8 h, bfp8Mantissa]

/-- BFP8 by BFP8: two groups of sixteen products, each mantissa under the exponent of its block. -/
theorem Core.arrayResult_bfp8 (hm : m < 64) (hn : n < 128) :
    (c.arrayResult now 16 16 t aoff woff true trans).1 / 2 ^ (32 * (128 * m + n)) % 2 ^ 32 = dotFp32 16 2 (2 ^ 31)
      (fun k => (bfp8Mantissa (c.bufRead .a (256 * aoff.toNat) 2048 / 2 ^ (8 * (32 * m + k)) % 256)).mul
        (e8m0Value (c.regs.scaleA.toNat / 2 ^ (8 * (2 * m + k / 16)) % 256)))
      (fun k => (bfp8Mantissa (c.bufRead .w (256 * woff.toNat) 4096 / 2 ^ (8 * (if trans then 128 * k + n else 32 * n + k)) % 256)).mul
        (e8m0Value (c.regs.scaleB.toNat / 2 ^ (8 * (2 * n + k / 16)) % 256))) :=
  Core.arrayResult_fp32 (s := ⟨64, 128, 32, 32, .fp32, .bfp, 16⟩) rfl rfl rfl rfl (by decide) rfl hm hn rfl
    (fun k => scaledElem_bfp8 (Nat.mod_lt _ (by decide))) (fun k => scaledElem_bfp8 (Nat.mod_lt _ (by decide)))

end Formats

end Sys2Proof.Machine
end

section
/-! PROOFS. The values of the tile instructions MCVT, MADDC, MLDC, MBIAS and MSTC (R92, R188, R202 to R204). -/

open Sys2Proof Sys2Proof.Machine

namespace Sys2Proof.Machine

/-- A read-out accumulator: integers saturate, and only they (R203). -/
theorem readout_eq (acc : AccFmt) (f : NumFmt) (x : Nat) : readout acc f x = convertPattern (acc.num.value x) f (acc == .int32) := by
  cases acc <;> rfl

section Tile
variable (c : Core) (f : NumFmt) (t : Nat) {o : SliceOp} {l k : Nat}

/-- MCVT leaves a lane's bits above its elements zero (R203). -/
theorem Core.cvtLanes_lt (hl : l < 256) : nth 0 (c.cvtLanes f t o) l < 2 ^ (f.width * tileG f o) := by
  rw [Core.cvtLanes, nth_map 0 0 _ _ _ (by simpa using hl)]
  refine lt_of_lt_of_eq (packBits_lt ..) ?_
  rw [List.length_map, List.length_range]

/-- Element k of lane l after MCVT is an accumulator read out (R203). -/
theorem Core.cvtLanes_elem (hl : l < 256) (hk : k < tileG f o) :
    nth 0 (c.cvtLanes f t o) l / 2 ^ (f.width * k) % 2 ^ f.width = convertPattern ((accOf f).num.value
      (c.tileBytes t / 2 ^ (8 * (accOf f).bytes * (tileG f o * l + k)) % 2 ^ (8 * (accOf f).bytes))) f (accOf f == .int32) := by
  rw [Core.cvtLanes, nth_map 0 0 _ _ _ (by simpa using hl), nth_allLanes l hl]
  refine packBits_elem_of_lt ?_ (convertPattern_lt ..)
  rw [nth_map_range _ _ _ _ hk, readout_eq, elemAt_eq]

/-- Word i after MADDC is the rounded sum of the words of the two tiles (R202). -/
theorem Core.addTiles_elem (u : Nat) {i : Nat} (hi : i < 8192) : c.addTiles t u / 2 ^ (32 * i) % 2 ^ 32 =
    FFmt.f32.round ((FFmt.f32.value (c.tileBytes t / 2 ^ (32 * i) % 2 ^ 32)).add (FFmt.f32.value (c.tileBytes u / 2 ^ (32 * i) % 2 ^ 32))) := by
  refine packBits_elem_of_lt ?_ (FFmt.round_lt .f32 _)
  rw [nth_map_range _ _ _ _ hi, elemAt_eq, elemAt_eq]

/-- Accumulator x plus the value v in the accumulator's format (R203). -/
def AccFmt.addTo (a : AccFmt) (x v : Nat) : Nat :=
  match a with
  | .int32 => (x + v) % 2 ^ 32
  | .fp32 => FFmt.f32.round ((FFmt.f32.value x).add (FFmt.f32.value v))
  | .fp64 => FFmt.f64.round ((FFmt.f64.value x).add (FFmt.f64.value v))

theorem AccFmt.addTo_lt (a : AccFmt) (x v : Nat) : a.addTo x v < 2 ^ (8 * a.bytes) := by
  cases a with
  | fp64 => exact FFmt.round_lt .f64 _
  | fp32 => exact FFmt.round_lt .f32 _
  | int32 => exact Nat.mod_lt _ (by decide)

theorem convertPattern_acc_lt (a : AccFmt) (v : Val) : convertPattern v a.num false < 2 ^ (8 * a.bytes) :=
  a.num_width ▸ convertPattern_lt v a.num false

/-- Accumulator g·l + k after MLDC is element k of lane l, converted; after MBIAS it is added to the tile's (R203). -/
theorem Core.ldcBytes_elem (cl bias : Bool) (hl : l < 256) (hk : k < tileG f o) :
    (c.ldcBytes f t cl o bias).1 / 2 ^ (8 * (accOf f).bytes * (tileG f o * l + k)) % 2 ^ (8 * (accOf f).bytes) =
      (let v := convertPattern (f.value (laneOf (c.sliceLines cl o.start.toNat o.w) l / 2 ^ (f.width * k) % 2 ^ f.width)) (accOf f).num false
      if bias then (accOf f).addTo (c.tileBytes t / 2 ^ (8 * (accOf f).bytes * (tileG f o * l + k)) % 2 ^ (8 * (accOf f).bytes)) v else v) := by
  simp only [Core.ldcBytes, allLanes]
  refine packBits_elem_of_lt ?_ ?_
  · rw [nth_flatMap_range _ _ hl hk, nth_lanes _ _ _ _ hl, elemAt_eq, elemAt_eq]
    cases accOf f <;> rfl
  · split
    · exact AccFmt.addTo_lt ..
    · exact convertPattern_acc_lt ..

/-- The elements of MSTC, packed in their width (R204). -/
theorem Core.stcBytes_elem {i : Nat} (hf : f ≠ .flt .e8m10) (hi : i < 32768 / (accOf f).bytes) :
    c.stcBytes f t / 2 ^ (f.width * i) % 2 ^ f.width = convertPattern ((accOf f).num.value
      (c.tileBytes t / 2 ^ (8 * (accOf f).bytes * i) % 2 ^ (8 * (accOf f).bytes))) f (accOf f == .int32) := by
  have hpacked : c.stcBytes f t = packBits f.width ((List.range (32768 / (accOf f).bytes)).map
      (fun i => readout (accOf f) f (elemAt (8 * (accOf f).bytes) (c.tileBytes t) i))) := by
    unfold Core.stcBytes
    split
    · exact absurd rfl hf
    · rfl
  rw [hpacked]
  refine packBits_elem_of_lt ?_ (convertPattern_lt ..)
  rw [nth_map_range _ _ _ _ hi, readout_eq, elemAt_eq]

/-- E8M10 elements of MSTC stand in the high bits of 32-bit containers (R92, R204). -/
theorem Core.stcBytes_elem_e8m10 {i : Nat} (hi : i < 8192) : c.stcBytes (.flt .e8m10) t / 2 ^ (32 * i) % 2 ^ 32 =
    convertPattern (AccFmt.fp32.num.value (c.tileBytes t / 2 ^ (32 * i) % 2 ^ 32)) (.flt .e8m10) false * 2 ^ 13 := by
  have hfits := convertPattern_lt (AccFmt.fp32.num.value (c.tileBytes t / 2 ^ (32 * i) % 2 ^ 32)) (.flt .e8m10) false
  have hwidth : (NumFmt.flt .e8m10).width = 19 := rfl
  rw [hwidth] at hfits
  refine packBits_elem_of_lt ?_ (by omega)
  have hlen : i < 32768 / (accOf (.flt .e8m10)).bytes := hi
  rw [nth_map_range _ _ _ _ hlen, elemAt_eq, readout_eq]
  rfl

end Tile

/-! ## The statement -/

/-- Settles O32: each product by its row of R189 (`Core.arrayResult_int32`, `Core.arrayResult_fp32`), and each tile instruction by the element
that its lemma above gives. -/
theorem matrixAndTileValues : Obligations.MatrixAndTileValues := by
  unfold Obligations.MatrixAndTileValues
  intro s t u aoff woff
  refine ⟨fun m n hm hn => ?int8, fun m n hm hn => ?bf16, ⟨fun m n hm hn => ?e4m3, fun m n hm hn => ?bfp8⟩, ?mcvt, ?maddc, ?mldc, ?mstc⟩
  case int8 => exact ⟨Core.arrayResult_int8 _ _ t _ _ false hm hn, Core.arrayResult_int8 _ _ t _ _ true hm hn⟩
  case bf16 =>
    refine ⟨Core.arrayResult_bf16 _ _ t _ _ true false hm hn, Core.arrayResult_bf16 _ _ t _ _ true true hm hn, fun htiles => ?_⟩
    refine (Core.arrayResult_bf16 _ _ t _ _ false false hm hn).trans ?_
    rw [Core.productStart, Core.startBytes_of_tiles_nil htiles, elemAt_eq]
    rfl
  case e4m3 => exact ⟨Core.arrayResult_e4m3 _ _ t _ _ false hm hn, Core.arrayResult_e4m3 _ _ t _ _ true hm hn⟩
  case bfp8 => exact ⟨Core.arrayResult_bfp8 _ _ t _ _ false hm hn, Core.arrayResult_bfp8 _ _ t _ _ true hm hn⟩
  case mcvt => exact fun _ f d l k _ hl hk => ⟨Core.cvtLanes_lt _ f _ hl, Core.cvtLanes_elem _ f _ hl hk⟩
  case maddc => exact fun i hi => Core.addTiles_elem _ _ _ hi
  case mldc =>
    exact fun _ f cl o l k _ hl hk => ⟨Core.ldcBytes_elem _ f _ cl false hl hk, Core.ldcBytes_elem _ f _ cl true hl hk⟩
  case mstc =>
    refine fun _ f i _ hi => ⟨fun hf => Core.stcBytes_elem _ f _ hf hi, fun hf => ?_⟩
    subst hf
    exact Core.stcBytes_elem_e8m10 _ _ hi

end Sys2Proof.Machine
end

section
/-! PROOFS. Branches, jumps, calls, returns, PREP, LEXIT and POOL: the bundle that each selects, or TARGET when the image ends before it (R110, R112
to R116, R120, R135). -/

open Sys2Proof Sys2Proof.Machine

namespace Sys2Proof.Machine

/-! ## Well-formed operands -/

theorem need_true_of {b : Bool} (h : b = true) : need true b = Reasons.none := by rw [h]; rfl

theorem ctPlain_br_of_lt {j : BitVec 4} (h : j.toNat < 12) : CtPlain (.br j) := ctPlain_br j (need_true_of (decide_eq_true h))

theorem ctPlain_brn_of_lt {j : BitVec 4} (h : j.toNat < 12) : CtPlain (.brn j) := ctPlain_brn j (need_true_of (decide_eq_true h))

theorem ctPlain_prep_of_lt {j : BitVec 4} (t : BitVec 24) (h : j.toNat < 12) : CtPlain (.prep j t) :=
  ctPlain_prep j t (need_true_of (decide_eq_true h))

theorem ctPlain_calli_of_ne (x : BitVec 6) {k : BitVec 8} (h : k ≠ 0) : CtPlain (.calli x k) :=
  ctPlain_calli x k (need_true_of (decide_eq_true (toNat_ne_zero_of_ne h)))

theorem ctPlain_pool_of_ne {k : BitVec 13} (h : k ≠ 0) : CtPlain (.pool k) :=
  ctPlain_pool k (need_true_of (decide_eq_true (toNat_ne_zero_of_ne h)))

/-! ## What selecting a bundle comes to -/

/-- The instruction selects bundle q with the stack `loops`: it moves there from t, the state after its effect, when the image has a bundle q, and
raises TARGET otherwise (R110, R112). -/
def State.Selects (s : State) (i : Instr) (t : State) (q : Nat) (loops : List LoopEntry) : Prop :=
  (q < s.imageLen s.cur → exec i s = .next (t.movedTo q loops)) ∧
    (s.imageLen s.cur ≤ q → exec i s = .next (s.takeTrap s.cur ⟨3, 1, 5, 0, (s.core s.cur).regs.pc.toNat⟩))

/-- The next bundle depends on the registers alone. -/
theorem Core.nextOf_eq_of_regs (c : Core) (i : Instr) : c.nextOf i = Core.nextOf { Core.fresh with regs := c.regs } i := rfl

theorem Core.nextOf_congr {c d : Core} (h : d.regs = c.regs) (i : Instr) : d.nextOf i = c.nextOf i := by
  rw [d.nextOf_eq_of_regs, c.nextOf_eq_of_regs, h]

/-- An instruction whose only condition is TARGET, and whose effect leaves the registers, selects its bundle. -/
theorem ctExec_selects_after {s : State} {i : Instr} {q : Nat} {loops : List LoopEntry} (eff : State → State) (he : exec i s = ctExec i s eff)
    (hi : CtPlain i) (ht : ∀ code, i ≠ .trap code) (hn : (s.core s.cur).nextOf i = (some q, loops))
    (hc : s.ctSub s.cur i = targetSub (s.imageLen s.cur) (some q)) (hcur : (eff s).cur = s.cur)
    (hregs : ((eff s).core s.cur).regs = (s.core s.cur).regs) : s.Selects i (eff s) q loops := by
  refine ⟨fun h => ?_, fun h => he.trans (ctExec_faults s i eff 5 0 hi ht (hc.trans (targetSub_of_le h)))⟩
  have hmove := advance_eq_movedTo (eff s) i q loops (by rw [hcur, Core.nextOf_congr hregs, hn])
  rw [he, ctExec_commits s i eff hi ht (hc.trans (targetSub_of_lt h)), ← hmove, hcur]

/-! ## Each instruction -/

section Transfers

variable {s : State} {j : BitVec 4}

/-- BR follows its target when its condition holds, and the loop stack otherwise (R114). -/
theorem exec_br_selects (hj : j.toNat < 12) {q : Nat} {loops : List LoopEntry} (hn : (s.core s.cur).nextOf (.br j) = (some q, loops)) :
    s.Selects (.br j) s q loops :=
  ctExec_selects_after id rfl (ctPlain_br_of_lt hj) (by simp) hn (by rw [ctSub_br, hn]) rfl rfl

theorem exec_br_taken (hj : j.toNat < 12) (h : (s.core s.cur).cond j.toNat = true) :
    s.Selects (.br j) s ((s.core s.cur).target j.toNat).toNat (s.core s.cur).regs.loops :=
  exec_br_selects hj (by rw [nextOf_br, if_pos h])

theorem exec_br_not_taken (hj : j.toNat < 12) (h : (s.core s.cur).cond j.toNat = false) : s.Selects (.br j) s
    (stepOn (s.core s.cur).regs.pc.toNat (s.core s.cur).regs.loops).1 (stepOn (s.core s.cur).regs.pc.toNat (s.core s.cur).regs.loops).2 :=
  exec_br_selects hj (by rw [nextOf_br, if_neg (by simp [h]), Core.stepped])

/-- BRN follows its target when its condition does not hold, and the loop stack otherwise (R114). -/
theorem exec_brn_selects (hj : j.toNat < 12) {q : Nat} {loops : List LoopEntry} (hn : (s.core s.cur).nextOf (.brn j) = (some q, loops)) :
    s.Selects (.brn j) s q loops :=
  ctExec_selects_after id rfl (ctPlain_brn_of_lt hj) (by simp) hn (by rw [ctSub_brn, hn]) rfl rfl

theorem exec_brn_taken (hj : j.toNat < 12) (h : (s.core s.cur).cond j.toNat = false) :
    s.Selects (.brn j) s ((s.core s.cur).target j.toNat).toNat (s.core s.cur).regs.loops :=
  exec_brn_selects hj (by rw [nextOf_brn, if_neg (by simp [h])])

theorem exec_brn_not_taken (hj : j.toNat < 12) (h : (s.core s.cur).cond j.toNat = true) : s.Selects (.brn j) s
    (stepOn (s.core s.cur).regs.pc.toNat (s.core s.cur).regs.loops).1 (stepOn (s.core s.cur).regs.pc.toNat (s.core s.cur).regs.loops).2 :=
  exec_brn_selects hj (by rw [nextOf_brn, if_pos h, Core.stepped])

theorem exec_jmp_selects (tgt : BitVec 24) : s.Selects (.jmp tgt) s tgt.toNat (s.core s.cur).regs.loops :=
  ctExec_selects_after id rfl (ctPlain_jmp tgt) (by simp) (nextOf_jmp _ tgt) (ctSub_jmp s s.cur tgt) rfl rfl

theorem exec_pool_selects {count : BitVec 13} (h : count ≠ 0) :
    s.Selects (.pool count) s ((s.core s.cur).regs.pc.toNat + 1 + count.toNat) (s.core s.cur).regs.loops :=
  ctExec_selects_after id rfl (ctPlain_pool_of_ne h) (by simp) (nextOf_pool _ count) (by rw [ctSub_pool, nextOf_pool]) rfl rfl

/-- LEXIT leaves the innermost loop, which there must be (R120). -/
theorem exec_lexit_selects (h : (s.core s.cur).regs.loops ≠ []) :
    s.Selects .lexit s ((s.core s.cur).regs.pc.toNat + 1) (s.core s.cur).regs.loops.tail := by
  have hne : (s.core s.cur).regs.loops.isEmpty = false := by simpa using h
  exact ctExec_selects_after id rfl ctPlain_lexit (by simp) (nextOf_lexit _) (by rw [ctSub_lexit, hne, firstSub_false, firstSub_nil]) rfl rfl

/-- RET goes to the index in s63, of 24 bits (R116). -/
theorem exec_ret_selects (h : ((s.core s.cur).sreg 63).toNat < 2 ^ 24) :
    s.Selects .ret s ((s.core s.cur).sreg 63).toNat (s.core s.cur).regs.loops := by
  have hwide : decide (2 ^ 24 ≤ ((s.core s.cur).sreg 63).toNat) = false := decide_eq_false (Nat.not_le.mpr h)
  have hmod := Nat.mod_eq_of_lt h
  exact ctExec_selects_after id rfl ctPlain_ret (by simp) (by rw [nextOf_ret, hmod])
    (by rw [ctSub_ret, hwide, hmod, firstSub_false, firstSub_nil]) rfl rfl

/-- s with the return index recorded for the link register (R115, R116). -/
def State.withReturn (s : State) : State := s.scalarSet 0 1 63 (BitVec.ofNat 64 ((s.core s.cur).regs.pc.toNat + 1))

theorem State.link_eq_withReturn (s : State) : s.link s.cur = s.withReturn := record_scalar s 0 1 63 _

theorem State.link_keeps (s : State) : (s.link s.cur).cur = s.cur ∧ ((s.link s.cur).core s.cur).regs = (s.core s.cur).regs := by
  rw [State.link_eq_withReturn]
  exact ⟨s.scalarSet_cur .., (s.scalarSet_core ..).1⟩

theorem exec_call_selects (tgt : BitVec 24) : s.Selects (.call tgt) s.withReturn tgt.toNat (s.core s.cur).regs.loops := by
  rw [← State.link_eq_withReturn]
  exact ctExec_selects_after (fun s => s.link s.cur) (exec_call s tgt) (ctPlain_call tgt) (by simp) (nextOf_call _ tgt) (ctSub_call s s.cur tgt)
    s.link_keeps.1 s.link_keeps.2

/-- CALLI to an entry of the class that it names (R116). -/
theorem exec_calli_selects {im : Image} {x : BitVec 6} {cls : BitVec 8} (him : s.imageOf s.cur = some im) (hcls : cls ≠ 0)
    (hv : ((s.core s.cur).sreg x.toNat).toNat < 2 ^ 24) (hentry : getD 0 im.classes ((s.core s.cur).sreg x.toNat).toNat = cls.toNat) :
    s.Selects (.calli x cls) s.withReturn ((s.core s.cur).sreg x.toNat).toNat (s.core s.cur).regs.loops := by
  have hwide : decide (2 ^ 24 ≤ ((s.core s.cur).sreg x.toNat).toNat) = false := decide_eq_false (Nat.not_le.mpr hv)
  have hmod := Nat.mod_eq_of_lt hv
  have hsub : s.ctSub s.cur (.calli x cls) = targetSub (s.imageLen s.cur) (some ((s.core s.cur).sreg x.toNat).toNat) := by
    rw [ctSub_calli, hwide, hmod, him]
    simp [hentry]
  rw [← State.link_eq_withReturn]
  exact ctExec_selects_after (fun s => s.link s.cur) (exec_calli s x cls) (ctPlain_calli_of_ne x hcls) (by simp) (by rw [nextOf_calli, hmod]) hsub
    s.link_keeps.1 s.link_keeps.2

theorem State.prepare_eq (s : State) (j : BitVec 4) (tgt : BitVec 24) : s.prepare s.cur j.toNat tgt =
    (s.recorded 0 1 [⟨.target, j.toNat, 1⟩] (.target j.toNat tgt)).updCore s.cur (fun k =>
      { k with jReady := vset k.jReady j.toNat (some (s.now + 3)) }) := rfl

/-- PREP records its target, which is ready from the third cycle on (R113). -/
theorem exec_prep_selects (hj : j.toNat < 12) (tgt : BitVec 24) : s.Selects (.prep j tgt) (s.prepare s.cur j.toNat tgt)
    (stepOn (s.core s.cur).regs.pc.toNat (s.core s.cur).regs.loops).1 (stepOn (s.core s.cur).regs.pc.toNat (s.core s.cur).regs.loops).2 := by
  have hregs : ((s.prepare s.cur j.toNat tgt).core s.cur).regs = (s.core s.cur).regs := by
    rw [State.prepare_eq, State.core_updCore_self, State.recorded, State.core_updCore_self]
  exact ctExec_selects_after (fun s => s.prepare s.cur j.toNat tgt) (exec_prep s j tgt) (ctPlain_prep_of_lt tgt hj) (by simp) (nextOf_prep _ j tgt)
    (by rw [ctSub_prep, nextOf_prep, Core.stepped]) rfl hregs

end Transfers

/-- Settles O16: each instruction by the bundle that it selects, which lies in the image. -/
theorem transfersSelectTheNextBundle : Obligations.TransfersSelectTheNextBundle := by
  unfold Obligations.TransfersSelectTheNextBundle
  intro s j tgt x cls count c p len nx linked
  exact ⟨fun hj hc => (exec_br_taken hj hc).1, fun hj hc => (exec_br_not_taken hj hc).1, fun hj hc => (exec_brn_taken hj hc).1,
    fun hj hc => (exec_brn_not_taken hj hc).1, (exec_jmp_selects tgt).1, (exec_call_selects tgt).1,
    fun im him hv hcls hentry => (exec_calli_selects him hcls hv hentry).1, fun hv => (exec_ret_selects hv).1,
    fun hl => (exec_lexit_selects hl).1, fun hn _ => (exec_pool_selects hn).1, fun hj => (exec_prep_selects hj tgt).1⟩

end Sys2Proof.Machine
end

section
/-! PROOFS. The control faults: the condition of each instruction of the control slot, and MARKPOS and MARKBUSY of a MARK bundle (R76, R110, R112,
R116, R118, R120, R121, R124, R127 to R129, R131). -/

open Sys2Proof Sys2Proof.Machine

namespace Sys2Proof.Machine

/-! ## LOOPEND (R118) -/

theorem loopEnd_of_le {p : Nat} {last : BitVec 24} (loops : List LoopEntry) (h : last.toNat ≤ p) : loopEnd p loops last = true := by
  rw [loopEnd.eq_def, decide_eq_true h, Bool.true_or]

theorem loopEnd_of_outer {p : Nat} {last : BitVec 24} {e : LoopEntry} (r : List LoopEntry)
    (h : e.last.toNat < last.toNat ∨ p = e.last.toNat) : loopEnd p (e :: r) last = true := by
  rcases h with h | h <;> simp [loopEnd, h]

/-! ## The instructions -/

/-- The instruction raises the control fault with this sub-cause and address (R110). -/
def State.Faults (s : State) (i : Instr) (sub addr : Nat) : Prop :=
  exec i s = .next (s.takeTrap s.cur ⟨3, 1, sub, BitVec.ofNat 64 addr, (s.core s.cur).regs.pc.toNat⟩)

theorem State.Selects.faults {s t : State} {i : Instr} {q : Nat} {loops : List LoopEntry} (h : s.Selects i t q loops)
    (hq : s.imageLen s.cur ≤ q) : s.Faults i 5 0 := h.2 hq

/-- A plain instruction of the control slot raises the condition that it meets. -/
theorem State.faults_of_sub {s : State} {i : Instr} {sub addr : Nat} {eff : State → State} (he : exec i s = ctExec i s eff) (hi : CtPlain i)
    (ht : ∀ code, i ≠ .trap code) (hc : s.ctSub s.cur i = some (sub, addr)) : s.Faults i sub addr :=
  he.trans (ctExec_faults s i eff sub addr hi ht hc)

section Faults

variable {s : State} {x : BitVec 6} {trip last tgt : BitVec 24} {cls mask : BitVec 8}

theorem exec_loop_faults {sub : Nat} (h : s.ctSub s.cur (.loop x last) = some (sub, 0)) : s.Faults (.loop x last) sub 0 :=
  State.faults_of_sub rfl (ctPlain_loop x last) (by simp) h

theorem exec_loopi_faults {sub : Nat} (h : s.ctSub s.cur (.loopi trip last) = some (sub, 0)) : s.Faults (.loopi trip last) sub 0 :=
  State.faults_of_sub rfl (ctPlain_loopi trip last) (by simp) h

/-- LOOPEND comes before every other condition of LOOP and LOOPI (R118). -/
theorem exec_loops_fault_of_loopEnd (h : loopEnd (s.core s.cur).regs.pc.toNat (s.core s.cur).regs.loops last = true) :
    s.Faults (.loopi trip last) 3 0 ∧ s.Faults (.loop x last) 3 0 :=
  ⟨exec_loopi_faults (by rw [ctSub_loopi, h, firstSub_true]), exec_loop_faults (by rw [ctSub_loop, h, firstSub_true])⟩

section Body

variable (hend : loopEnd (s.core s.cur).regs.pc.toNat (s.core s.cur).regs.loops last = false)
include hend

/-- A count of more than 32 bits (R118). -/
theorem exec_loop_faults_of_count (h : 2 ^ 32 ≤ ((s.core s.cur).sreg x.toNat).toNat) : s.Faults (.loop x last) 4 0 :=
  exec_loop_faults (by rw [ctSub_loop, hend, decide_eq_true h, firstSub_false, firstSub_true])

/-- A seventh loop (R118). -/
theorem exec_loopi_faults_of_full (hfull : (s.core s.cur).regs.loops.length = 6) (ht : trip ≠ 0) : s.Faults (.loopi trip last) 1 0 := by
  have hroom : (decide (trip.toNat ≠ 0) && decide (6 ≤ (s.core s.cur).regs.loops.length)) = true := by
    simpa [hfull] using toNat_ne_zero_of_ne ht
  exact exec_loopi_faults (by rw [ctSub_loopi, hend, hroom, firstSub_false, firstSub_true])

theorem exec_loop_faults_of_full (hfull : (s.core s.cur).regs.loops.length = 6) (h0 : ((s.core s.cur).sreg x.toNat).toNat ≠ 0)
    (h32 : ((s.core s.cur).sreg x.toNat).toNat < 2 ^ 32) : s.Faults (.loop x last) 1 0 := by
  have hcount : decide (2 ^ 32 ≤ ((s.core s.cur).sreg x.toNat).toNat) = false := decide_eq_false (Nat.not_le.mpr h32)
  have hroom : (decide (((s.core s.cur).sreg x.toNat).toNat ≠ 0) && decide (6 ≤ (s.core s.cur).regs.loops.length)) = true := by
    simpa [hfull] using h0
  exact exec_loop_faults (by rw [ctSub_loop, hend, hcount, hroom, firstSub_false, firstSub_false, firstSub_true])

end Body

/-- LEXIT outside loops (R120). -/
theorem exec_lexit_faults (h : (s.core s.cur).regs.loops = []) : s.Faults .lexit 2 0 :=
  State.faults_of_sub rfl ctPlain_lexit (by simp) (by rw [ctSub_lexit, h]; rfl)

/-- RET to an index that is too wide, or outside the image (R116). -/
theorem exec_ret_faults (h : 2 ^ 24 ≤ ((s.core s.cur).sreg 63).toNat ∨ s.imageLen s.cur ≤ ((s.core s.cur).sreg 63).toNat) :
    s.Faults .ret 5 0 := by
  by_cases hw : 2 ^ 24 ≤ ((s.core s.cur).sreg 63).toNat
  · exact State.faults_of_sub rfl ctPlain_ret (by simp) (by rw [ctSub_ret, decide_eq_true hw, firstSub_true])
  · exact (exec_ret_selects (Nat.not_le.mp hw)).faults (h.resolve_left hw)

theorem exec_calli_faults {sub : Nat} (hcls : cls ≠ 0) (h : s.ctSub s.cur (.calli x cls) = some (sub, 0)) : s.Faults (.calli x cls) sub 0 :=
  State.faults_of_sub (exec_calli s x cls) (ctPlain_calli_of_ne x hcls) (by simp) h

/-- CALLI to an index that is too wide (R116). -/
theorem exec_calli_faults_of_wide (hcls : cls ≠ 0) (h : 2 ^ 24 ≤ ((s.core s.cur).sreg x.toNat).toNat) : s.Faults (.calli x cls) 5 0 :=
  exec_calli_faults hcls (by rw [ctSub_calli, decide_eq_true h, firstSub_true])

/-- CALLI to an entry of another class (R116). -/
theorem exec_calli_faults_of_class {im : Image} (him : s.imageOf s.cur = some im) (hcls : cls ≠ 0)
    (hv : ((s.core s.cur).sreg x.toNat).toNat < 2 ^ 24) (hentry : getD 0 im.classes ((s.core s.cur).sreg x.toNat).toNat ≠ cls.toNat) :
    s.Faults (.calli x cls) 6 0 := by
  have hwide : decide (2 ^ 24 ≤ ((s.core s.cur).sreg x.toNat).toNat) = false := decide_eq_false (Nat.not_le.mpr hv)
  refine exec_calli_faults hcls ?_
  rw [ctSub_calli, hwide, him, firstSub_false]
  simp [hentry]

/-- Instructions that go on to the next bundle, which lies outside the image (R112). -/
theorem exec_steps_fault (d : BitVec 6) (r : BitVec 12) (h : s.imageLen s.cur ≤ (stepOn (s.core s.cur).regs.pc.toNat (s.core s.cur).regs.loops).1) :
    s.Faults (.nop .ct) 5 0 ∧ s.Faults (.fence mask) 5 0 ∧ (csrListed r = true → s.Faults (.csrr d r) 5 0) ∧ s.Faults (.csrw 1 x) 5 0 := by
  have ht : targetSub (s.imageLen s.cur) (s.core s.cur).stepped.1 = some (5, 0) := targetSub_of_le h
  refine ⟨State.faults_of_sub rfl ctPlain_nop (by simp) ?_, State.faults_of_sub (exec_fence s mask) (ctPlain_fence mask) (by simp) ?_,
    fun hr => State.faults_of_sub (exec_csrr s d r) (ctPlain_csrr d r (by simp [instrReasons, hr, Reasons.none])) (by simp) ?_,
    State.faults_of_sub (exec_csrw s 1 x) (ctPlain_csrw 1 x rfl) (by simp) ?_⟩
  · rw [ctSub_nop, nextOf_nop, ht]
  · rw [ctSub_fence, nextOf_fence, ht]
  · rw [ctSub_csrr, nextOf_csrr, ht]
  · rw [ctSub_csrw, nextOf_csrw, ht]

/-- STEP by a core that is no mapped member of the group (R124). -/
theorem exec_step_faults {g : BitVec 4} (h : s.memberOf s.cur g.toNat = false) : s.Faults (.step g) 9 0 :=
  State.faults_of_sub (exec_step s g) (ctPlain_step g) (by simp) (by rw [ctSub_step, h]; rfl)

section Clasp

variable {k : BitVec 7} {l : Nat} {y : Launch} (hl : s.launchOf s.cur = some (l, y))
include hl

/-- BARI with a count out of range, or on a clasp in use (R127). -/
theorem exec_bari_faults (h : ((s.core s.cur).sreg x.toNat).toNat = 0 ∨ y.cores.length < ((s.core s.cur).sreg x.toNat).toNat ∨
    ((y.clasp k.toNat).init = true ∧ ((y.clasp k.toNat).count ≠ ((s.core s.cur).sreg x.toNat).toNat ∨ 0 < (y.clasp k.toNat).arrived))) :
    s.Faults (.bari k x) 10 0 := by
  refine State.faults_of_sub (exec_bari s k x) (ctPlain_bari k x) (by simp) ?_
  rw [ctSub_bari s s.cur k x l y hl]
  by_cases hcount : ((s.core s.cur).sreg x.toNat).toNat = 0 ∨ y.cores.length < ((s.core s.cur).sreg x.toNat).toNat
  · have e : (decide (((s.core s.cur).sreg x.toNat).toNat = 0) || decide (y.cores.length < ((s.core s.cur).sreg x.toNat).toNat)) = true := by
      simpa using hcount
    rw [e, firstSub_true]
  · obtain ⟨hinit, huse⟩ := (or_assoc.mpr h).resolve_left hcount
    have e : (decide (((s.core s.cur).sreg x.toNat).toNat = 0) || decide (y.cores.length < ((s.core s.cur).sreg x.toNat).toNat)) = false := by
      simpa using hcount
    have e' : (decide ((y.clasp k.toNat).count ≠ ((s.core s.cur).sreg x.toNat).toNat) || decide (0 < (y.clasp k.toNat).arrived)) = true := by
      simpa using huse
    rw [e, hinit, e', firstSub_false, Bool.and_self, firstSub_true]

/-- BARA and BARAW on a clasp that is not initialised, or at which the core has already arrived (R128, R129). -/
theorem exec_arrivals_fault (h : (y.clasp k.toNat).init = false ∨
    (((s.core s.cur).clasp k.toNat).aval = true ∧ ((s.core s.cur).clasp k.toNat).adone = false)) :
    s.Faults (.bara k mask) 11 0 ∧ s.Faults (.baraw k mask) 11 0 := by
  have e : (!(y.clasp k.toNat).init || (((s.core s.cur).clasp k.toNat).aval && !((s.core s.cur).clasp k.toNat).adone)) = true := by
    rcases h with h | ⟨h1, h2⟩
    · rw [h]; rfl
    · rw [h1, h2, Bool.not_false, Bool.and_self, Bool.or_true]
  exact ⟨State.faults_of_sub (exec_bara s k mask) (ctPlain_bara k mask) (by simp) (by rw [ctSub_bara s s.cur k mask l y hl, e, firstSub_true]),
    State.faults_of_sub (exec_baraw s k mask) (ctPlain_baraw k mask) (by simp) (by rw [ctSub_baraw s s.cur k mask l y hl, e, firstSub_true])⟩

/-- BARW on a clasp that is not initialised, or without an arrival (R129). -/
theorem exec_barw_faults (h : (y.clasp k.toNat).init = false ∨ ((s.core s.cur).clasp k.toNat).aval = false) : s.Faults (.barw k) 12 0 := by
  have e : (!(y.clasp k.toNat).init || !((s.core s.cur).clasp k.toNat).aval) = true := by
    rcases h with h | h <;> simp [h]
  exact State.faults_of_sub (exec_barw s k) (ctPlain_barw k) (by simp) (by rw [ctSub_barw s s.cur k l y hl, e, firstSub_true])

end Clasp

/-- TXWAIT on an address that is no barrier of the A buffer gives that address (R131). -/
theorem exec_txwait_faults {phase : BitVec 4} (hs : s.Serves (.txwait x phase)) (h : ((s.core s.cur).sreg x.toNat).toNat % 16 ≠ 0 ∨
    ((s.core s.cur).sreg x.toNat).toNat < aBase ∨ aBase + 0x80000 < ((s.core s.cur).sreg x.toNat).toNat + 16) :
    s.Faults (.txwait x phase) 13 ((s.core s.cur).sreg x.toNat).toNat :=
  (exec_txwait s x phase).trans (ctExec_txwait_faults s x phase _ 13 _ hs (by rw [ctSub_txwait, if_pos h]))

end Faults

/-! ## MARK bundles (R121) -/

theorem Core.busy_of_pending {c : Core} {now : Nat}
    (h : c.results ≠ [] ∨ c.tiles ≠ [] ∨ c.scales ≠ [] ∨ now < c.arrayFree ∨ ∃ x ∈ c.loads, x.kind ≠ .pref) : c.busy now = true := by
  simp only [Core.busy, Bool.or_eq_true, Bool.not_eq_true', List.isEmpty_eq_false_iff, List.any_eq_true, bne_iff_ne, decide_eq_true_eq]
  rcases h with h | h | h | h | h
  · exact .inl (.inl (.inl (.inl h)))
  · exact .inl (.inl (.inr h))
  · exact .inr h
  · exact .inl (.inr h)
  · exact .inl (.inl (.inl (.inr h)))

section Marks

variable {s : State} {n : Nat} {l : Line} (h : s.StandsAt n l) (h2 : stepTwo (decodeLine l) = (0, 0))
  (hz : s.hazards n (decodeLine l) = [])
include h h2 hz

/-- MARKBUSY: a MARK bundle of a native core with something pending. -/
theorem State.StandsAt.markBusy (hmark : (decodeLine l).mark = true) (hnative : (s.core n).imode = false) (hbusy : (s.core n).busy s.now = true) :
    s.issueCore n = s.takeTrap n ⟨3, 1, 8, 0, (s.core n).regs.pc.toNat⟩ :=
  h.traps (by simp [State.bundleVerdict, h2, hz, hmark, hnative, hbusy])

/-- MARKPOS: a MARK bundle inside a loop, or beside a transfer. -/
theorem State.StandsAt.markPos (hidle : (s.core n).busy s.now = false) (hhold : s.holdOf n (decodeLine l) false = none)
    (h4 : ((s.core n).stepFour (decodeLine l)).1 = 0) (hserve : s.bundleService n (decodeLine l) = none)
    (hpos : (s.core n).markBad (decodeLine l) = true) : s.issueCore n = s.takeTrap n ⟨3, 1, 7, 0, (s.core n).regs.pc.toNat⟩ := by
  have hunheld : s.Unheld n (decodeLine l) := ⟨h2, hz, fun _ => hidle, hhold⟩
  exact h.traps (hunheld.verdict (by simp [State.issueChecks, h4, hserve, hpos]))

end Marks

theorem Core.markBad_of_loop {c : Core} {b : Bundle} (hmark : b.mark = true) {e : LoopEntry} {r : List LoopEntry} (hl : c.regs.loops = e :: r)
    (he : e.last.toNat ≠ c.regs.pc.toNat) : c.markBad b = true := by
  unfold Core.markBad
  rw [hmark, Bool.true_and, hl]
  show (decide (e.last.toNat ≠ c.regs.pc.toNat) || _) = true
  rw [decide_eq_true he, Bool.true_or]

theorem Core.markBad_of_transfer {c : Core} {b : Bundle} (hmark : b.mark = true) {j : BitVec 4} {x : BitVec 6} {t u : BitVec 24} {k : BitVec 8}
    (h : b.ct = .br j ∨ b.ct = .brn j ∨ b.ct = .jmp t ∨ b.ct = .call t ∨ b.ct = .calli x k ∨ b.ct = .ret ∨ b.ct = .lexit ∨
      b.ct = .loop x t ∨ b.ct = .loopi u t) : c.markBad b = true := by
  unfold Core.markBad
  rw [hmark, Bool.true_and]
  rcases h with h | h | h | h | h | h | h | h | h <;> rw [h] <;> exact Bool.or_true _

/-- Settles O17: each condition by the lemma on its instruction, and the MARK bundles by their verdict. -/
theorem controlFaults : Obligations.ControlFaults := by
  unfold Obligations.ControlFaults
  refine ⟨?instructions, ?marks⟩
  case instructions =>
    intro s x j trip last tgt cls mask g phase k count c p nx len v faults
    refine ⟨fun hfull hp hl => ?full, exec_lexit_faults, fun hle => exec_loops_fault_of_loopEnd (loopEnd_of_le _ hle), fun e r hl hout => ?outer,
      fun hp hl hcount => exec_loop_faults_of_count (loopEnd_eq_false hp hl) hcount,
      fun hlen => ⟨(exec_jmp_selects tgt).faults hlen, (exec_call_selects tgt).faults hlen⟩, exec_ret_faults,
      exec_calli_faults_of_wide, fun hlen => ?next, fun hj hlen => ?target, fun hlen hl => (exec_lexit_selects hl).faults hlen,
      fun h0 hlen => (exec_pool_selects h0).faults hlen, fun im him => exec_calli_faults_of_class him, exec_step_faults,
      fun l y hl => ⟨exec_bari_faults hl, exec_arrivals_fault hl, exec_barw_faults hl⟩, exec_txwait_faults⟩
    case full =>
      have hend : loopEnd p c.regs.loops last = false := loopEnd_eq_false hp hl
      exact ⟨exec_loopi_faults_of_full hend hfull, exec_loop_faults_of_full hend hfull⟩
    case outer =>
      have hend : loopEnd p c.regs.loops last = true := by rw [hl]; exact loopEnd_of_outer r hout
      exact exec_loops_fault_of_loopEnd hend
    case next =>
      obtain ⟨hnop, hfence, hcsrr, hcsrw⟩ := exec_steps_fault (x := x) (mask := mask) x 1 hlen
      exact ⟨hnop, hfence, hcsrr rfl, hcsrw, fun hj => ⟨(exec_prep_selects hj tgt).faults hlen,
        fun hc => (exec_br_not_taken hj hc).faults hlen, fun hc => (exec_brn_not_taken hj hc).faults hlen⟩⟩
    case target => exact ⟨fun hc => (exec_br_taken hj hc).faults hlen, fun hc => (exec_brn_taken hj hc).faults hlen⟩
  case marks =>
    intro s n l h c p b stops hmark h2 hz
    refine ⟨fun hnative hpending => h.markBusy h2 hz hmark hnative (Core.busy_of_pending hpending), fun hidle hhold h4 hserve hpos => ?_⟩
    refine h.markPos h2 hz hidle hhold h4 hserve ?_
    rcases hpos with ⟨e, r, hl, he⟩ | ⟨j, x, t, u, k, hct⟩
    · exact Core.markBad_of_loop hmark hl he
    · exact Core.markBad_of_transfer hmark hct

end Sys2Proof.Machine
end

section
/-! PROOFS. STEP and TXWAIT: the arrival, the wait, and what goes on at once (R124, R131, R242). -/

open Sys2Proof Sys2Proof.Machine

namespace Sys2Proof.Machine

/-! ## A bundle of the control slot goes on -/

/-- d is c but for what the control slot does beside the sequencer: the place in the program, the registers and the buffers are the same. -/
structure Core.SameProgram (c d : Core) : Prop where
  pc : d.regs.pc = c.regs.pc
  loops : d.regs.loops = c.regs.loops
  regs : c.SameRegisters d
  buffers : c.SameBuffers d

theorem Core.SameProgram.refl (c : Core) : c.SameProgram c := ⟨rfl, rfl, .refl c, .refl c⟩

theorem Core.SameProgram.trans {c d e : Core} (h : c.SameProgram d) (k : d.SameProgram e) : c.SameProgram e :=
  ⟨k.pc.trans h.pc, k.loops.trans h.loops, h.regs.trans k.regs, h.buffers.trans k.buffers⟩

/-- A core whose sequencer goes on to the bundle that the loop stack selects (R112, R119). -/
def Core.goOn (c : Core) : Core :=
  { c with
    regs := { c.regs with
      pc := BitVec.ofNat 24 (stepOn c.regs.pc.toNat c.regs.loops).1
      loops := (stepOn c.regs.pc.toNat c.regs.loops).2 }
    istore := { c.istore with captured := nextCapture c.istore.captured c.regs.loops.length (stepOn c.regs.pc.toNat c.regs.loops).2 } }

section GoOn

variable (c : Core)

@[simp] theorem Core.goOn_wait : c.goOn.wait = c.wait := rfl
@[simp] theorem Core.goOn_waitPc : c.goOn.waitPc = c.waitPc := rfl
@[simp] theorem Core.goOn_view : c.goOn.view = c.view := rfl
@[simp] theorem Core.goOn_stat : c.goOn.regs.stat = c.regs.stat := rfl
@[simp] theorem Core.goOn_queue : c.goOn.queue = c.queue := rfl
@[simp] theorem Core.goOn_performs : c.goOn.performs = c.performs := rfl
@[simp] theorem Core.goOn_clasp (k : Nat) : c.goOn.clasp k = c.clasp k := rfl

end GoOn

/-- Where a core stands that has gone on, and what it has kept. -/
theorem Core.SameProgram.goOn {c d : Core} (h : c.SameProgram d) :
    d.goOn.regs.pc = BitVec.ofNat 24 (stepOn c.regs.pc.toNat c.regs.loops).1 ∧ d.goOn.regs.loops = (stepOn c.regs.pc.toNat c.regs.loops).2 ∧
      c.SameRegisters d.goOn ∧ c.SameBuffers d.goOn := by
  have hkeeps : d.SameRegisters d.goOn := by simp [Core.SameRegisters, Core.goOn]
  refine ⟨?_, ?_, h.regs.trans hkeeps, h.buffers.trans ⟨rfl, rfl, rfl⟩⟩
  · rw [Core.goOn, h.pc, h.loops]
  · rw [Core.goOn, h.pc, h.loops]

/-- The commit of an instruction that selects nothing itself. -/
theorem State.advance_eq_goOn (s : State) (n : Nat) (i : Instr) (h : ∀ c : Core, c.nextOf i = c.stepped) :
    s.advance n i = s.updCore n Core.goOn := by
  unfold State.advance
  simp only [h]
  rfl

/-- A plain instruction that selects nothing itself, and whose next bundle lies in the image, takes its effect and goes on. -/
theorem ctExec_goesOn {s : State} {i : Instr} {eff : State → State} (he : exec i s = ctExec i s eff) (hi : CtPlain i)
    (ht : ∀ code, i ≠ .trap code) (hc : s.ctSub s.cur i = none) (hn : ∀ c : Core, c.nextOf i = c.stepped) :
    exec i s = .next ((eff s).updCore s.cur Core.goOn) := by
  rw [he, ctExec_commits s i eff hi ht hc, State.advance_eq_goOn _ _ _ hn]

theorem targetSub_stepped {s : State} (h : (stepOn (s.core s.cur).regs.pc.toNat (s.core s.cur).regs.loops).1 < s.imageLen s.cur) :
    targetSub (s.imageLen s.cur) (s.core s.cur).stepped.1 = none := targetSub_of_lt h

/-! ## Waits and arrivals -/

theorem State.launchOf_updCore {s : State} {n : Nat} {f : Core → Core} (h : (f (s.core n)).launch = (s.core n).launch) :
    (s.updCore n f).launchOf n = s.launchOf n := by
  simp only [State.launchOf, State.core_updCore_self, State.launch?_updCore, h]

theorem State.arrive_eq {s : State} {n l : Nat} {x : Launch} (h : s.launchOf n = some (l, x)) (g : Nat) :
    s.arrive n g = s.setLaunch l { x with arrived := x.arrived ++ [(g, n)] } := by
  rw [State.arrive, h]

/-- A core that begins a wait. -/
def Core.atWait (c : Core) (w : Wait) : Core :=
  { c with
    wait := some w
    waitPc := c.regs.pc.toNat
    waitSch := c.schedule
    waitLen := 1
    markLoops := c.regs.loops
    markPc := c.regs.pc.toNat }

theorem State.beginWait_eq (s : State) (n : Nat) (w : Wait) : s.beginWait n w = s.updCore n (fun c => c.atWait w) := rfl

theorem Core.atWait_sameProgram (c : Core) (w : Wait) : c.SameProgram (c.atWait w) :=
  ⟨rfl, rfl, by simp [Core.SameRegisters, Core.atWait], ⟨rfl, rfl, rfl⟩⟩

/-- An update of core n and the arrivals of launches leave everything else of the package. -/
theorem State.updCore_sameElsewhere (s : State) (n : Nat) (f : Core → Core) : s.SameElsewhere (s.updCore n f) n :=
  s.setCore_sameElsewhere n _

theorem State.setLaunch_sameElsewhere (s : State) (l n : Nat) (x : Launch) : s.SameElsewhere (s.setLaunch l x) n :=
  ⟨fun _ _ => rfl, fun _ => rfl, rfl, rfl⟩

/-! ## STEP (R124) -/

theorem exec_step_waits {s : State} {g : BitVec 4} {l : Nat} {x : Launch}
    (hlen : (stepOn (s.core s.cur).regs.pc.toNat (s.core s.cur).regs.loops).1 < s.imageLen s.cur) (hl : s.launchOf s.cur = some (l, x))
    (hm : s.memberOf s.cur g.toNat = true) : exec (.step g) s = .next (((s.updCore s.cur (fun c => c.atWait (.step g.toNat))).setLaunch l
      { x with arrived := x.arrived ++ [(g.toNat, s.cur)] }).updCore s.cur Core.goOn) := by
  have hsub : s.ctSub s.cur (.step g) = none := by
    rw [ctSub_step, hm, Bool.not_true, firstSub_false, firstSub_nil, targetSub_stepped hlen]
  have hlaunch : (s.beginWait s.cur (.step g.toNat)).launchOf s.cur = some (l, x) := (State.launchOf_updCore rfl).trans hl
  rw [ctExec_goesOn (exec_step s g) (ctPlain_step g) (by simp) hsub fun c => nextOf_step c g, State.arrive_eq hlaunch]
  rfl

/-! ## TXWAIT (R131) -/

theorem Core.txKnow_keeps (c : Core) (off : Nat) : ∃ k, c.txKnow off = { c with txKnown := k } := by
  unfold Core.txKnow
  split
  · exact ⟨c.txKnown, rfl⟩
  · exact ⟨_, rfl⟩

/-- TXWAIT on its core: the barrier is known, and the core waits while the phase has not completed, or else joins the view of the jobs (R131,
R242). -/
def Core.txWaited (c : Core) (a phase : Nat) (v : View) : Core :=
  if c.txPhase (a - aBase) ≠ phase then { c.txKnow (a - aBase) with view := c.view.join v } else (c.txKnow (a - aBase)).atWait (.tx a phase)

theorem State.txWait_eq (s : State) (n a phase : Nat) : s.txWait n a phase = s.setCore n ((s.core n).txWaited a phase (s.txView n (a - aBase))) := by
  obtain ⟨k, hk⟩ := (s.core n).txKnow_keeps (a - aBase)
  have hcore : (s.updCore n (fun c => c.txKnow (a - aBase))).core n = { s.core n with txKnown := k } := by rw [State.core_updCore_self, hk]
  have hview : (s.updCore n (fun c => c.txKnow (a - aBase))).txView n (a - aBase) = s.txView n (a - aBase) := by
    unfold State.txView
    rw [hcore, State.die_updCore]
  have hphase : ((s.updCore n (fun c => c.txKnow (a - aBase))).core n).txPhase (a - aBase) = (s.core n).txPhase (a - aBase) := by
    rw [hcore]
    rfl
  unfold State.txWait Core.txWaited
  simp only [hphase, hview]
  split
  · rw [State.updCore, hcore, State.updCore, State.setCore_setCore, hk]
  · rw [State.beginWait_eq, State.updCore, hcore, State.updCore, State.setCore_setCore, hk]

theorem Core.txWaited_sameProgram (c : Core) (a phase : Nat) (v : View) : c.SameProgram (c.txWaited a phase v) := by
  obtain ⟨k, hk⟩ := c.txKnow_keeps (a - aBase)
  have hknow : c.SameProgram (c.txKnow (a - aBase)) := by
    rw [hk]
    exact ⟨rfl, rfl, by simp [Core.SameRegisters], ⟨rfl, rfl, rfl⟩⟩
  unfold Core.txWaited
  split
  · exact hknow.trans ⟨rfl, rfl, by simp [Core.SameRegisters], ⟨rfl, rfl, rfl⟩⟩
  · exact hknow.trans (Core.atWait_sameProgram _ _)

theorem Core.txWaited_of_phase {c : Core} {a phase : Nat} (v : View) (h : c.txPhase (a - aBase) = phase) :
    (c.txWaited a phase v).wait = some (.tx a phase) ∧ (c.txWaited a phase v).waitPc = c.regs.pc.toNat ∧ (c.txWaited a phase v).view = c.view := by
  obtain ⟨k, hk⟩ := c.txKnow_keeps (a - aBase)
  rw [Core.txWaited, if_neg (not_not.mpr h), hk]
  exact ⟨rfl, rfl, rfl⟩

theorem Core.txWaited_of_completed {c : Core} {a phase : Nat} (v : View) (h : c.txPhase (a - aBase) ≠ phase) :
    (c.txWaited a phase v).wait = c.wait ∧ (c.txWaited a phase v).view = c.view.join v := by
  obtain ⟨k, hk⟩ := c.txKnow_keeps (a - aBase)
  rw [Core.txWaited, if_pos h, hk]
  exact ⟨rfl, rfl⟩

/-- TXWAIT on a barrier of the A buffer. -/
theorem exec_txwait_on_barrier {s : State} {x : BitVec 6} {phase : BitVec 4} {a : Nat}
    (hlen : (stepOn (s.core s.cur).regs.pc.toNat (s.core s.cur).regs.loops).1 < s.imageLen s.cur) (hs : s.Serves (.txwait x phase))
    (ha : ((s.core s.cur).sreg x.toNat).toNat = a) (h16 : a % 16 = 0) (hlo : aBase ≤ a) (hhi : a + 16 ≤ aBase + 0x80000) :
    exec (.txwait x phase) s =
      .next ((s.setCore s.cur ((s.core s.cur).txWaited a phase.toNat (s.txView s.cur (a - aBase)))).updCore s.cur Core.goOn) := by
  have hsub : s.ctSub s.cur (.txwait x phase) = none := by
    rw [ctSub_txwait, ha, if_neg (by omega), targetSub_stepped hlen]
  rw [exec_txwait, ctExec_txwait s x phase _ hs hsub, State.advance_eq_goOn _ _ _ fun c => nextOf_txwait c x phase, State.txWait_eq, ha]

/-- Settles O19: `exec_step_waits` and `exec_txwait_on_barrier` give the next state. -/
theorem stepAndTxwaitWait : Obligations.StepAndTxwaitWait := by
  unfold Obligations.StepAndTxwaitWait
  intro s g phase x c p nx a hlen
  refine ⟨fun l k hl hm => ⟨_, exec_step_waits hlen hl hm, ?step⟩, fun hs h16 hlo hhi =>
    ⟨_, exec_txwait_on_barrier hlen hs rfl h16 hlo hhi, ?txwait⟩⟩
  case step =>
    rw [State.core_updCore_self, State.core_setLaunch, State.core_updCore_self, State.launch?_updCore, State.launch?_setLaunch_self]
    obtain ⟨hpc, hloops, hregs, hbufs⟩ := (c.atWait_sameProgram (.step g.toNat)).goOn
    exact ⟨rfl, rfl, hpc, hloops, rfl, hregs, hbufs, ((s.updCore_sameElsewhere _ _).trans (State.setLaunch_sameElsewhere ..)).trans
      (State.updCore_sameElsewhere ..)⟩
  case txwait =>
    rw [State.core_updCore_self, State.core_setCore_self]
    obtain ⟨hpc, hloops, hregs, hbufs⟩ := (c.txWaited_sameProgram a phase.toNat (s.txView s.cur (a - aBase))).goOn
    exact ⟨Core.txWaited_of_phase _, Core.txWaited_of_completed _, hpc, hloops, hregs, hbufs,
      (s.setCore_sameElsewhere _ _).trans (State.updCore_sameElsewhere ..)⟩

end Sys2Proof.Machine
end

section
/-! PROOFS. The clasp instructions: BARI, the arrival of BARA and BARAW with the end of a phase, and the wait of BARW and BARAW (R126 to R129,
R242). -/

open Sys2Proof Sys2Proof.Machine

namespace Sys2Proof.Machine

/-! ## Clasps -/

@[simp] theorem Core.clasp_setClasp (c : Core) (k : Nat) (o : ClaspOwn) : (c.setClasp k o).clasp k = o := getD_put_self ..

@[simp] theorem Launch.clasp_put (x : Launch) (k : Nat) (q : Clasp) : ({ x with clasps := put x.clasps k q } : Launch).clasp k = q :=
  getD_put_self ..

/-- A core with its own part of a clasp written and its replay window closed (R322). -/
def Core.claspClosed (c : Core) (k : Nat) (o : ClaspOwn) : Core :=
  { c.setClasp k o with regs := { (c.setClasp k o).regs with stat := closeWindow c.regs.stat } }

@[simp] theorem Core.claspClosed_clasp (c : Core) (k : Nat) (o : ClaspOwn) : (c.claspClosed k o).clasp k = o := c.clasp_setClasp k o

theorem Core.claspClosed_sameProgram (c : Core) (k : Nat) (o : ClaspOwn) : c.SameProgram (c.claspClosed k o) :=
  ⟨rfl, rfl, by simp [Core.SameRegisters, Core.claspClosed, Core.setClasp], ⟨rfl, rfl, rfl⟩⟩

theorem State.closeWin_updCore_setClasp (s : State) (n k : Nat) (f : ClaspOwn → ClaspOwn) :
    (s.updCore n (fun c => c.setClasp k (f (c.clasp k)))).closeWin n = s.setCore n ((s.core n).claspClosed k (f ((s.core n).clasp k))) := by
  rw [State.closeWin, State.updCore, State.core_updCore_self, State.updCore, State.setCore_setCore]
  rfl

/-! ## BARI (R127) -/

section Bari

variable {s : State} {k : BitVec 7} {x : BitVec 6} {l : Nat} {y : Launch} (hl : s.launchOf s.cur = some (l, y))
  (hlen : (stepOn (s.core s.cur).regs.pc.toNat (s.core s.cur).regs.loops).1 < s.imageLen s.cur)
  (h0 : 0 < ((s.core s.cur).sreg x.toNat).toNat) (hmax : ((s.core s.cur).sreg x.toNat).toNat ≤ y.cores.length)
include hl hlen h0 hmax

/-- A core without an arrival of its own at the clasp, its window closed. -/
def Core.claspCleared (c : Core) (k : Nat) : Core := c.claspClosed k { c.clasp k with aval := false, adone := false }

/-- BARI on a clasp that is free for its count. -/
theorem exec_bari_goesOn (huse : (y.clasp k.toNat).init = true → (y.clasp k.toNat).count = ((s.core s.cur).sreg x.toNat).toNat ∧
    (y.clasp k.toNat).arrived = 0) :
    exec (.bari k x) s = .next ((s.claspInit s.cur k.toNat ((s.core s.cur).sreg x.toNat).toNat).updCore s.cur Core.goOn) := by
  have hcount : (decide (((s.core s.cur).sreg x.toNat).toNat = 0) || decide (y.cores.length < ((s.core s.cur).sreg x.toNat).toNat)) = false := by
    simp only [Bool.or_eq_false_iff, decide_eq_false_iff_not]
    omega
  have hfree : ((y.clasp k.toNat).init && (decide ((y.clasp k.toNat).count ≠ ((s.core s.cur).sreg x.toNat).toNat) ||
      decide (0 < (y.clasp k.toNat).arrived))) = false := by
    cases hinit : (y.clasp k.toNat).init with
    | false => rfl
    | true => simp [huse hinit]
  refine ctExec_goesOn (exec_bari s k x) (ctPlain_bari k x) (by simp) ?_ fun c => nextOf_bari c k x
  rw [ctSub_bari s s.cur k x l y hl, hcount, hfree, firstSub_false, firstSub_false, firstSub_nil, targetSub_stepped hlen]

/-- BARI initialises a clasp that nobody has initialised. -/
theorem exec_bari_initialises (hinit : (y.clasp k.toNat).init = false) : exec (.bari k x) s =
    .next (((s.setLaunch l { y with clasps := put y.clasps k.toNat { y.clasp k.toNat with
      init := true, count := ((s.core s.cur).sreg x.toNat).toNat, arrived := 0, phase := false } }).setCore s.cur
        ((s.core s.cur).claspCleared k.toNat)).updCore s.cur Core.goOn) := by
  rw [exec_bari_goesOn hl hlen h0 hmax (by simp [hinit])]
  unfold State.claspInit
  simp only [hl, hinit, Bool.false_eq_true, if_false]
  rw [State.closeWin_updCore_setClasp _ _ _ (fun o => { o with aval := false, adone := false }), State.core_setLaunch]
  rfl

/-- BARI on a clasp of its count without arrivals clears its core's part alone. -/
theorem exec_bari_clears (hinit : (y.clasp k.toNat).init = true) (hcount : (y.clasp k.toNat).count = ((s.core s.cur).sreg x.toNat).toNat)
    (harr : (y.clasp k.toNat).arrived = 0) : exec (.bari k x) s =
      .next ((s.setCore s.cur ((s.core s.cur).claspCleared k.toNat)).updCore s.cur Core.goOn) := by
  rw [exec_bari_goesOn hl hlen h0 hmax fun _ => ⟨hcount, harr⟩]
  unfold State.claspInit
  simp only [hl, hinit, if_true]
  rw [State.closeWin_updCore_setClasp _ _ _ (fun o => { o with aval := false, adone := false })]
  rfl

end Bari

/-! ## The end of a phase (R126) -/

/-- A core that a completed phase has reached: ADONE, the view of the phase, and the time of its wake. -/
def Core.claspEnded (c : Core) (k : Nat) (v : View) (w : Option Nat) : Core :=
  { c.setClasp k { c.clasp k with adone := true, view := v } with wakeAt := w }

theorem Core.claspEnded_sameProgram (c : Core) (k : Nat) (v : View) (w : Option Nat) : c.SameProgram (c.claspEnded k v w) :=
  ⟨rfl, rfl, by simp [Core.SameRegisters, Core.claspEnded, Core.setClasp], ⟨rfl, rfl, rfl⟩⟩

/-- A completed phase reaches the core: it has arrived, and its arrival is behind no perform. -/
def Core.claspAwaits (c : Core) (k : Nat) : Bool := (c.clasp k).aval && !(c.clasp k).adone && !c.arriving k

@[simp] theorem State.draw_launch? (s : State) (l : Nat) : s.draw.2.launch? l = s.launch? l := by
  unfold State.launch?
  rw [State.draw_launches]

/-- A phase that reaches a core: perhaps a time is drawn, and then the core alone changes. -/
theorem State.claspDone_of_awaits {s : State} {k n : Nat} (v : View) (h : (s.core n).claspAwaits k = true) :
    ∃ (t : State) (f : Core → Core), (∀ l, t.launch? l = s.launch? l) ∧ (∀ m, t.core m = s.core m) ∧ s.claspDone k v n = t.updCore n f ∧
      ∃ w, f (s.core n) = (s.core n).claspEnded k v w := by
  have hif : ((s.core n).clasp k).aval && !((s.core n).clasp k).adone && !(s.core n).arriving k := h
  unfold State.claspDone
  dsimp only
  rw [if_pos hif]
  split
  case h_1 j hw =>
    have huniq : ∀ i, (s.core n).wait = some (.clasp i) → i = j := fun i hi => by
      rw [hw] at hi
      cases hi
      rfl
    by_cases hj : j = k
    · rw [if_pos hj]
      refine ⟨_, _, s.draw_launch?, s.draw_core, rfl, some (s.draw.2.now + 2 + s.draw.1), ?_⟩
      split
      · next i hi => exact if_pos ((huniq i hi).trans hj)
      · next hi => exact absurd hw (hi j)
    · rw [if_neg hj]
      refine ⟨s, _, fun _ => rfl, fun _ => rfl, rfl, (s.core n).wakeAt, ?_⟩
      split
      · next i hi => exact if_neg fun h => hj ((huniq i hi).symm.trans h)
      · rfl
  case h_2 hw =>
    refine ⟨s, _, fun _ => rfl, fun _ => rfl, rfl, (s.core n).wakeAt, ?_⟩
    dsimp only
    split
    · next j hj => exact absurd hj (hw j)
    · rfl

/-- What a completed phase does to its core, and that it leaves the launches and every other core. -/
theorem State.claspDone_spec (s : State) (k : Nat) (v : View) (n : Nat) :
    (∀ l, (s.claspDone k v n).launch? l = s.launch? l) ∧ (∀ m, m ≠ n → (s.claspDone k v n).core m = s.core m) ∧
      (if (s.core n).claspAwaits k then ∃ w, (s.claspDone k v n).core n = (s.core n).claspEnded k v w
        else (s.claspDone k v n).core n = s.core n) := by
  cases h : (s.core n).claspAwaits k with
  | true =>
    obtain ⟨t, f, hlaunch, hcore, e, w, hw⟩ := State.claspDone_of_awaits v h
    rw [e, if_pos rfl]
    refine ⟨hlaunch, fun m hm => (State.core_updCore_of_ne _ _ _ _ hm).trans (hcore m), w, ?_⟩
    rw [State.core_updCore_self, hcore, hw]
  | false =>
    have e : s.claspDone k v n = s := if_neg (ne_true_of_eq_false h)
    rw [e, if_neg Bool.false_ne_true]
    exact ⟨fun _ => rfl, fun _ _ => rfl, rfl⟩

theorem State.claspDone_foldl_launch? (k : Nat) (v : View) (ms : List (Nat × Nat × Nat)) (s : State) (l : Nat) :
    (ms.foldl (fun s m => s.claspDone k v m.1) s).launch? l = s.launch? l := by
  induction ms generalizing s with
  | nil => rfl
  | cons m r ih => exact (ih _).trans ((s.claspDone_spec k v m.1).1 l)

/-- A core that a phase does not reach, or no longer, stays as it is. -/
theorem State.claspDone_foldl_core (k : Nat) (v : View) (n : Nat) (ms : List (Nat × Nat × Nat)) (s : State) (h : (s.core n).claspAwaits k = false) :
    (ms.foldl (fun s m => s.claspDone k v m.1) s).core n = s.core n := by
  induction ms generalizing s with
  | nil => rfl
  | cons m r ih =>
    obtain ⟨-, hothers, hself⟩ := s.claspDone_spec k v m.1
    have hstep : (s.claspDone k v m.1).core n = s.core n := by
      by_cases hn : n = m.1
      · subst hn
        simpa only [h, Bool.false_eq_true, if_false] using hself
      · exact hothers n hn
    exact (ih _ (by rw [hstep, h])).trans hstep

/-- A completed phase reaches each core of the launch that has arrived, once. -/
theorem State.claspDone_foldl_reaches (k : Nat) (v : View) (n : Nat) (ms : List (Nat × Nat × Nat)) (s : State)
    (h : (s.core n).claspAwaits k = true) (hn : n ∈ ms.map (fun m => m.1)) :
    ∃ w, (ms.foldl (fun s m => s.claspDone k v m.1) s).core n = (s.core n).claspEnded k v w := by
  induction ms generalizing s with
  | nil => simp at hn
  | cons m r ih =>
    obtain ⟨-, hothers, hself⟩ := s.claspDone_spec k v m.1
    by_cases hm : n = m.1
    · subst hm
      rw [if_pos h] at hself
      obtain ⟨w, hw⟩ := hself
      have hdone : ((s.claspDone k v m.1).core m.1).claspAwaits k = false := by
        rw [hw]
        simp [Core.claspAwaits, Core.claspEnded, Core.clasp, Core.setClasp]
      exact ⟨w, (State.claspDone_foldl_core k v m.1 r _ hdone).trans hw⟩
    · have hstep := hothers n hm
      obtain ⟨w, hw⟩ := ih (s.claspDone k v m.1) (by rw [hstep, h]) ((List.mem_cons.mp hn).resolve_left hm)
      exact ⟨w, by rw [List.foldl_cons, hw, hstep]⟩

/-! ## The arrival (R128) -/

/-- An arrival that leaves the phase open counts. -/
theorem State.countArrival_of_lt {s : State} {n k l : Nat} {x : Launch} (hl : s.launchOf n = some (l, x))
    (h : (x.clasp k).arrived + 1 < (x.clasp k).count) : ∃ q : Clasp, q.arrived = (x.clasp k).arrived + 1 ∧ q.phase = (x.clasp k).phase ∧
      s.countArrival n k = s.setLaunch l { x with clasps := put x.clasps k q } := by
  refine ⟨{ x.clasp k with arrived := (x.clasp k).arrived + 1, gather := (x.clasp k).gather.join (s.core n).view }, rfl, rfl, ?_⟩
  unfold State.countArrival
  simp only [hl, if_pos h]

/-- The arrival that completes the count flips the phase and reaches its core. -/
theorem State.countArrival_of_ge {s : State} {n k l : Nat} {x : Launch} (hl : s.launchOf n = some (l, x))
    (h : (x.clasp k).count ≤ (x.clasp k).arrived + 1) (ha : (s.core n).claspAwaits k = true) (hn : n ∈ x.cores.map (fun m => m.1)) :
    ∃ q : Clasp, q.arrived = 0 ∧ q.phase = !(x.clasp k).phase ∧
      (s.countArrival n k).launch? l = some { x with clasps := put x.clasps k q } ∧
      ∃ v w, (s.countArrival n k).core n = (s.core n).claspEnded k v w := by
  refine ⟨{ x.clasp k with arrived := 0, phase := !(x.clasp k).phase, gather := View.initial }, rfl, rfl, ?_⟩
  unfold State.countArrival
  simp only [hl, if_neg (Nat.not_lt.mpr h)]
  exact ⟨(State.claspDone_foldl_launch? ..).trans (State.launch?_setLaunch_self ..), _, State.claspDone_foldl_reaches k _ n x.cores _ ha hn⟩

/-- With nothing to perform, the arrival behind the performs counts at once. -/
theorem State.perform_arrive {s : State} {n : Nat} {p : Entry → Bool} (k : Nat) (h1 : (s.core n).performs = [])
    (h2 : ∀ e ∈ (s.core n).queue, p e = false) : s.perform n p [.arrive k] = (s.setCore n (s.core n)).countArrival n k := by
  have hnone : (s.core n).queue.filter p = [] := List.filter_eq_nil_iff.mpr fun e he => by simp [h2 e he]
  have hcore : ({ s.core n with performs := [] } : Core) = s.core n := by rw [← h1]
  unfold State.perform
  simp only [hnone, List.map_nil, List.nil_append, h1, List.length_nil, List.length_singleton, Nat.zero_add]
  unfold State.runPerforms
  simp only [State.core_setCore_self]
  unfold State.runPerforms
  rw [State.setCore_setCore, hcore]

/-- A core that has just arrived at a clasp in the phase q, its window closed. -/
def Core.claspArrived (c : Core) (k : Nat) (phase : Bool) : Core :=
  c.claspClosed k { c.clasp k with aval := true, aph := phase, adone := false }

theorem State.claspArrive_eq {s : State} {n k l : Nat} {x : Launch} {mask : BitVec 8} (hl : s.launchOf n = some (l, x))
    (h1 : (s.core n).performs = []) (h2 : ∀ e ∈ (s.core n).queue, inColours (mask ||| x.bound k) e = false) :
    s.claspArrive n k mask = (s.setCore n ((s.core n).claspArrived k (x.clasp k).phase)).countArrival n k := by
  unfold State.claspArrive
  simp only [hl]
  rw [State.closeWin_updCore_setClasp s n k (fun o => { o with aval := true, aph := (x.clasp k).phase, adone := false }),
    State.perform_arrive k (by rw [State.core_setCore_self]; exact h1) (by rw [State.core_setCore_self]; exact h2), State.core_setCore_self,
    State.setCore_setCore]
  rfl

/-- What an arrival comes to: the clasp counts it or flips its phase, and the core has arrived, and is done in the second case. -/
structure State.Arrives (s t : State) (k l : Nat) (y : Launch) : Prop where
  program : (s.core s.cur).SameProgram (t.core s.cur)
  aval : ((t.core s.cur).clasp k).aval = true
  aph : ((t.core s.cur).clasp k).aph = (y.clasp k).phase
  window : (t.core s.cur).regs.stat.window = false
  wait : (t.core s.cur).wait = (s.core s.cur).wait
  launch : ∃ y', t.launch? l = some y' ∧
    ((y.clasp k).arrived + 1 < (y.clasp k).count → (y'.clasp k).arrived = (y.clasp k).arrived + 1 ∧ (y'.clasp k).phase = (y.clasp k).phase ∧
      ((t.core s.cur).clasp k).adone = false) ∧
    ((y.clasp k).count ≤ (y.clasp k).arrived + 1 → (y'.clasp k).arrived = 0 ∧ (y'.clasp k).phase = !(y.clasp k).phase ∧
      ((t.core s.cur).clasp k).adone = true)

theorem State.claspArrive_arrives {s : State} {k l : Nat} {y : Launch} {mask : BitVec 8} (hl : s.launchOf s.cur = some (l, y))
    (h1 : (s.core s.cur).performs = []) (h2 : ∀ e ∈ (s.core s.cur).queue, inColours (mask ||| y.bound k) e = false)
    (hn : s.cur ∈ y.cores.map (fun m => m.1)) : s.Arrives (s.claspArrive s.cur k mask) k l y := by
  have hprog : (s.core s.cur).SameProgram ((s.core s.cur).claspArrived k (y.clasp k).phase) := Core.claspClosed_sameProgram ..
  have hl' : (s.setCore s.cur ((s.core s.cur).claspArrived k (y.clasp k).phase)).launchOf s.cur = some (l, y) :=
    (State.launchOf_updCore (f := fun _ => (s.core s.cur).claspArrived k (y.clasp k).phase) rfl).trans hl
  rw [State.claspArrive_eq hl h1 h2]
  by_cases hlt : (y.clasp k).arrived + 1 < (y.clasp k).count
  · obtain ⟨q, hq1, hq2, e⟩ := State.countArrival_of_lt hl' hlt
    have hcore : ((s.setCore s.cur ((s.core s.cur).claspArrived k (y.clasp k).phase)).setLaunch l { y with clasps := put y.clasps k q }).core
        s.cur = (s.core s.cur).claspArrived k (y.clasp k).phase := State.core_setCore_self ..
    rw [e]
    refine ⟨?_, ?_, ?_, ?_, ?_, _, State.launch?_setLaunch_self .., fun _ => ?_, fun h => absurd hlt (Nat.not_lt.mpr h)⟩ <;> rw [hcore]
    · exact hprog
    · rw [Core.claspArrived, Core.claspClosed_clasp]
    · rw [Core.claspArrived, Core.claspClosed_clasp]
    · rfl
    · rfl
    · rw [Launch.clasp_put, Core.claspArrived, Core.claspClosed_clasp]
      exact ⟨hq1, hq2, rfl⟩
  · have hawaits : ((s.setCore s.cur ((s.core s.cur).claspArrived k (y.clasp k).phase)).core s.cur).claspAwaits k = true := by
      have hidle : ((s.core s.cur).claspArrived k (y.clasp k).phase).performs = [] := h1
      rw [State.core_setCore_self, Core.claspAwaits, Core.arriving, hidle, Core.claspArrived, Core.claspClosed_clasp]
      rfl
    obtain ⟨q, hq1, hq2, hlaunch, v, w, hcore⟩ := State.countArrival_of_ge hl' (Nat.not_lt.mp hlt) hawaits hn
    rw [State.core_setCore_self] at hcore
    have hclasp : (((s.core s.cur).claspArrived k (y.clasp k).phase).claspEnded k v w).clasp k =
        { (s.core s.cur).clasp k with aval := true, aph := (y.clasp k).phase, adone := true, view := v } := by
      refine (Core.clasp_setClasp ..).trans ?_
      rw [Core.claspArrived, Core.claspClosed_clasp]
    refine ⟨?_, ?_, ?_, ?_, ?_, _, hlaunch, fun h => absurd h hlt, fun _ => ?_⟩ <;> rw [hcore]
    · exact hprog.trans (Core.claspEnded_sameProgram ..)
    · rw [hclasp]
    · rw [hclasp]
    · rfl
    · rfl
    · rw [Launch.clasp_put, hclasp]
      exact ⟨hq1, hq2, rfl⟩

/-! ## The wait (R129) -/

/-- What a wait for a clasp changes on its core, by whether the phase has completed. -/
theorem State.claspWait_spec (s : State) (n k : Nat) : ∃ c : Core, s.claspWait n k = s.setCore n c ∧ c.regs = (s.core n).regs ∧
    (s.core n).SameProgram c ∧ (((s.core n).clasp k).adone = false → c.wait = some (.clasp k)) ∧
    (((s.core n).clasp k).adone = true → c.wait = (s.core n).wait) := by
  unfold State.claspWait
  cases hdone : ((s.core n).clasp k).adone with
  | false =>
    exact ⟨(s.core n).atWait (.clasp k), if_neg (ne_true_of_eq_false hdone), rfl, Core.atWait_sameProgram _ _, fun _ => rfl,
      fun h => absurd h Bool.false_ne_true⟩
  | true =>
    exact ⟨{ s.core n with view := (s.core n).view.join ((s.core n).clasp k).view }, if_pos hdone, rfl,
      ⟨rfl, rfl, by simp [Core.SameRegisters], ⟨rfl, rfl, rfl⟩⟩, fun h => absurd h.symm Bool.false_ne_true, fun _ => rfl⟩

section Waits

variable {s : State} {k : BitVec 7} {mask : BitVec 8} {l : Nat} {y : Launch} (hl : s.launchOf s.cur = some (l, y))
  (hlen : (stepOn (s.core s.cur).regs.pc.toNat (s.core s.cur).regs.loops).1 < s.imageLen s.cur) (hinit : (y.clasp k.toNat).init = true)
include hl hlen hinit

theorem exec_barw_goesOn (ha : ((s.core s.cur).clasp k.toNat).aval = true) :
    exec (.barw k) s = .next ((s.claspWait s.cur k.toNat).updCore s.cur Core.goOn) := by
  refine ctExec_goesOn (exec_barw s k) (ctPlain_barw k) (by simp) ?_ fun c => nextOf_barw c k
  rw [ctSub_barw s s.cur k l y hl, hinit, ha, Bool.not_true, Bool.or_self, firstSub_false, firstSub_nil, targetSub_stepped hlen]

/-- BARA and BARAW by a core that may arrive take their effect and go on. -/
theorem exec_arrivals_goOn (ha : ((s.core s.cur).clasp k.toNat).aval = false ∨ ((s.core s.cur).clasp k.toNat).adone = true) :
    exec (.bara k mask) s = .next ((s.claspArrive s.cur k.toNat mask).updCore s.cur Core.goOn) ∧
      exec (.baraw k mask) s = .next (((s.claspArrive s.cur k.toNat mask).claspWait s.cur k.toNat).updCore s.cur Core.goOn) := by
  have hfree : (!(y.clasp k.toNat).init || (((s.core s.cur).clasp k.toNat).aval && !((s.core s.cur).clasp k.toNat).adone)) = false := by
    rw [hinit]
    rcases ha with ha | ha <;> simp [ha]
  refine ⟨ctExec_goesOn (exec_bara s k mask) (ctPlain_bara k mask) (by simp) ?_ fun c => nextOf_bara c k mask,
    ctExec_goesOn (exec_baraw s k mask) (ctPlain_baraw k mask) (by simp) ?_ fun c => nextOf_baraw c k mask⟩
  · rw [ctSub_bara s s.cur k mask l y hl, hfree, firstSub_false, firstSub_nil, targetSub_stepped hlen]
  · rw [ctSub_baraw s s.cur k mask l y hl, hfree, firstSub_false, firstSub_nil, targetSub_stepped hlen]

/-- BARA and BARAW arrive, and BARAW then waits for a phase that has not completed. -/
theorem exec_arrivals_arrive (ha : ((s.core s.cur).clasp k.toNat).aval = false ∨ ((s.core s.cur).clasp k.toNat).adone = true)
    (h1 : (s.core s.cur).performs = []) (h2 : ∀ e ∈ (s.core s.cur).queue, inColours (mask ||| y.bound k.toNat) e = false)
    (hn : s.cur ∈ y.cores.map (fun m => m.1)) {i : Instr} (hi : i = .bara k mask ∨ i = .baraw k mask) :
    ∃ z t : State, s.Arrives z k.toNat l y ∧ exec i s = .next (t.updCore s.cur Core.goOn) ∧ (t.core s.cur).regs = (z.core s.cur).regs ∧
      (z.core s.cur).SameProgram (t.core s.cur) ∧ (∀ m, t.launch? m = z.launch? m) ∧
      (i = .baraw k mask → (((z.core s.cur).clasp k.toNat).adone = false → (t.core s.cur).wait = some (.clasp k.toNat)) ∧
        (((z.core s.cur).clasp k.toNat).adone = true → (t.core s.cur).wait = (z.core s.cur).wait)) := by
  have harr := State.claspArrive_arrives (k := k.toNat) hl h1 h2 hn
  obtain ⟨hbara, hbaraw⟩ := exec_arrivals_goOn (mask := mask) hl hlen hinit ha
  rcases hi with rfl | rfl
  · exact ⟨_, _, harr, hbara, rfl, .refl _, fun _ => rfl, fun h => by cases h⟩
  · obtain ⟨c, hc, hregs, hprog, hwaits, hdone⟩ := (s.claspArrive s.cur k.toNat mask).claspWait_spec s.cur k.toNat
    rw [hc] at hbaraw
    refine ⟨_, _, harr, hbaraw, ?_⟩
    rw [State.core_setCore_self]
    exact ⟨hregs, hprog, fun _ => rfl, fun _ => ⟨hwaits, hdone⟩⟩

end Waits

theorem Core.clasp_of_regs {c d : Core} (h : d.regs = c.regs) (k : Nat) : d.clasp k = c.clasp k := by simp only [Core.clasp, h]

/-- Settles O20: BARI by the three states of its clasp, BARA and BARAW by `exec_arrivals_arrive`, and BARW by `State.claspWait_spec`. -/
theorem claspInstructions : Obligations.ClaspInstructions := by
  unfold Obligations.ClaspInstructions
  intro s k x mask l y c nx v q own moved hl hlen
  refine ⟨fun h0 hmax hinit => ?init, fun h0 hmax hinit => ⟨fun hcount harr => ?clear, fun huse => ?busy⟩,
    fun hinit ha h1 h2 hn i hi => ?arrive, fun hinit ha => ?wait⟩
  case init =>
    refine ⟨_, _, exec_bari_initialises hl hlen h0 hmax hinit, State.launch?_setLaunch_self .., ?_⟩
    rw [Launch.clasp_put]
    dsimp only [moved]
    rw [State.core_updCore_self, State.core_setCore_self]
    simp only [Core.goOn_clasp, Core.goOn_stat, Core.claspCleared, Core.claspClosed_clasp]
    exact ⟨trivial, rfl, trivial, trivial, trivial, trivial, rfl, (c.claspClosed_sameProgram _ _).goOn⟩
  case clear =>
    have hlaunch : s.launch? l = some y := by
      unfold State.launchOf at hl
      split at hl
      · obtain ⟨x, hx, hxy⟩ := Option.map_eq_some_iff.mp hl
        cases hxy
        exact hx
      · cases hl
    refine ⟨_, exec_bari_clears hl hlen h0 hmax hinit hcount harr, hlaunch, ?_⟩
    dsimp only [moved]
    rw [State.core_updCore_self, State.core_setCore_self]
    simp only [Core.goOn_clasp, Core.goOn_stat, Core.claspCleared, Core.claspClosed_clasp]
    exact ⟨trivial, trivial, rfl, (c.claspClosed_sameProgram _ _).goOn,
      fun m hm => (State.core_updCore_of_ne _ _ _ _ hm).trans (State.core_setCore_of_ne _ _ _ _ hm)⟩
  case busy =>
    exact exec_bari_faults hl (.inr (.inr ⟨hinit, huse.imp_right Nat.pos_of_ne_zero⟩))
  case arrive =>
    obtain ⟨z, t, harr, he, hregs, hprog, hlaunch, hwait⟩ := exec_arrivals_arrive hl hlen hinit ha h1 h2 hn hi
    obtain ⟨y', hy', hopen, hended⟩ := harr.launch
    have hclasp := Core.clasp_of_regs hregs k.toNat
    refine ⟨_, y', he, (hlaunch l).trans hy', ?_⟩
    dsimp only [moved]
    rw [State.core_updCore_self, Core.goOn_clasp, Core.goOn_stat, Core.goOn_wait, hclasp, hregs]
    refine ⟨harr.aval, harr.aph, harr.window, (harr.program.trans hprog).goOn, fun hlt => ?_, fun hge => ?_⟩
    · obtain ⟨e1, e2, e3⟩ := hopen hlt
      exact ⟨e1, e2, e3, fun hb => (hwait hb).1 e3⟩
    · obtain ⟨e1, e2, e3⟩ := hended hge
      exact ⟨e1, e2, e3, fun hb => ((hwait hb).2 e3).trans harr.wait⟩
  case wait =>
    obtain ⟨d, hd, -, hprog, hwaits, hdone⟩ := s.claspWait_spec s.cur k.toNat
    have he := exec_barw_goesOn hl hlen hinit ha
    rw [hd] at he
    refine ⟨_, he, ?_⟩
    dsimp only [moved]
    rw [State.core_updCore_self, State.core_setCore_self, Core.goOn_wait]
    exact ⟨hprog.goOn, hwaits, hdone⟩

end Sys2Proof.Machine
end

section
/-! PROOFS. Performs of queued stores: the Read moves that come first, one entry, and all entries of a kind in program order (R212, R240 to R244,
R312). -/

open Sys2Proof Sys2Proof.Machine

namespace Sys2Proof.Machine

/-! ## Views only move forward (R241) -/

/-- The view v stands at or after u for every byte. -/
def View.le (u v : View) : Prop := ∀ a, u.point a ≤ v.point a

theorem View.le_refl (u : View) : u.le u := fun _ => Nat.le_refl _

theorem View.le_trans {u v w : View} (h : u.le v) (k : v.le w) : u.le w := fun a => (h a).trans (k a)

theorem View.point_move_self (v : View) (a p : Nat) : p ≤ (v.move a p).point a := by
  unfold View.move
  split
  · assumption
  · rw [View.point, getD_put_self]
    exact Nat.le_max_right _ _

theorem View.le_move (v : View) (a p : Nat) : v.le (v.move a p) := by
  intro b
  unfold View.move
  split
  · exact Nat.le_refl _
  · next h =>
    by_cases hb : b = a
    · subst hb
      exact (Nat.le_of_not_le h).trans ((v.point_move_self b p).trans_eq (by rw [View.move, if_neg h]))
    · rw [View.point, View.point, getD_put_of_ne _ _ _ _ _ hb]

theorem View.le_moveAll (v : View) (as : List Nat) (p : Nat) : v.le (v.moveAll as p) := by
  induction as generalizing v with
  | nil => exact v.le_refl
  | cons a r ih => exact View.le_trans (v.le_move a p) (ih _)

theorem View.point_moveAll {v : View} {as : List Nat} {p a : Nat} (h : a ∈ as) : p ≤ (v.moveAll as p).point a := by
  induction as generalizing v with
  | nil => simp at h
  | cons b r ih =>
    rcases List.mem_cons.mp h with rfl | h
    · exact (v.point_move_self a p).trans ((v.move a p).le_moveAll r p a)
    · exact ih h

/-! ## What a Read move changes -/

/-- t is s after Read moves of core n: its loads have changed, its view has only moved forward, and choices may have been drawn (R242, R243). -/
structure State.ReadOn (s t : State) (n : Nat) : Prop where
  rest : t = { s with cores := t.cores, delays := t.delays, drawn := t.drawn }
  others : ∀ m, m ≠ n → t.core m = s.core m
  core : ∃ ls v, t.core n = { s.core n with loads := ls, view := v } ∧ (s.core n).view.le v

theorem State.ReadOn.refl (s : State) (n : Nat) : s.ReadOn s n := ⟨rfl, fun _ _ => rfl, _, _, rfl, View.le_refl _⟩

theorem State.ReadOn.trans {s t u : State} {n : Nat} (h : s.ReadOn t n) (k : t.ReadOn u n) : s.ReadOn u n := by
  obtain ⟨ls, v, hc, hv⟩ := h.core
  obtain ⟨ls', v', kc, kv⟩ := k.core
  rw [hc] at kc kv
  exact ⟨by rw [k.rest, h.rest], fun m hm => (k.others m hm).trans (h.others m hm), ls', v', kc, View.le_trans hv kv⟩

theorem State.ReadOn.mem {s t : State} {n : Nat} (h : s.ReadOn t n) : t.mem = s.mem := by rw [h.rest]

theorem State.ReadOn.writes {s t : State} {n : Nat} (h : s.ReadOn t n) : t.writes = s.writes := by rw [h.rest]

theorem State.ReadOn.foldl {α : Type} {n : Nat} {f : State → α → State} (h : ∀ (s : State) (a : α), s.ReadOn (f s a) n) (l : List α) (s : State) :
    s.ReadOn (l.foldl f s) n := by
  induction l generalizing s with
  | nil => exact .refl s n
  | cons a r ih => exact (h s a).trans (ih _)

theorem State.draw_rest (s : State) : s.draw.2 = { s with delays := s.draw.2.delays, drawn := s.draw.2.drawn } := by
  unfold State.draw
  split <;> rfl

theorem State.draw_readOn (s : State) (n : Nat) : s.ReadOn s.draw.2 n := by
  refine ⟨?_, fun m _ => s.draw_core m, _, _, s.draw_core n, View.le_refl _⟩
  conv_lhs => rw [s.draw_rest]
  rw [State.draw_cores]

/-- An update of core n that leaves all but its loads, and its view but for a move forward. -/
theorem State.setCore_readOn (s : State) (n : Nat) {c : Core} (h : ∃ ls v, c = { s.core n with loads := ls, view := v } ∧ (s.core n).view.le v) :
    s.ReadOn (s.setCore n c) n := by
  refine ⟨rfl, fun m hm => State.core_setCore_of_ne _ _ _ _ hm, ?_⟩
  rwa [State.core_setCore_self]

theorem Core.moveView_reads (c : Core) (ls : List Load) (seq pt : Nat) (as : List Nat) :
    ∃ ls' v, ({ c with loads := ls } : Core).moveView seq as pt = { c with loads := ls', view := v } ∧ c.view.le v :=
  ⟨_, _, rfl, c.view.le_moveAll as pt⟩

/-- The same when a choice has been drawn before. -/
theorem State.setCore_draw_readOn (s : State) (n : Nat) (b : Bool) {c : Core}
    (h : ∃ ls v, c = { s.core n with loads := ls, view := v } ∧ (s.core n).view.le v) :
    s.ReadOn ((if b then s.draw else (0, s)).2.setCore n c) n := by
  cases b with
  | false => exact s.setCore_readOn n h
  | true => exact (s.draw_readOn n).trans (State.setCore_readOn _ n (by rwa [State.draw_core]))

theorem State.readPart_readOn (s : State) (n id i back : Nat) (urgent : Bool) : s.ReadOn (s.readPart n id i back urgent) n := by
  unfold State.readPart
  extract_lets c
  split
  · exact .refl s n
  · split
    · exact .refl s n
    · extract_lets tr known
      split
      · exact .refl s n
      · dsimp only
        exact s.setCore_draw_readOn n _ (Core.moveView_reads ..)

theorem State.readLoad_readOn (s : State) (n id : Nat) : s.ReadOn (s.readLoad n id) n := by
  unfold State.readLoad
  split
  · exact .refl s n
  · refine State.ReadOn.trans (s.setCore_readOn n ⟨_, _, rfl, View.le_refl _⟩) (State.ReadOn.foldl (fun t i => ?_) _ _)
    exact (t.draw_readOn n).trans (State.readPart_readOn ..)

theorem State.readLoads_readOn (s : State) (n : Nat) (named : Load → Bool) : s.ReadOn (s.readLoads n named) n :=
  State.ReadOn.foldl (fun t id => t.readLoad_readOn n id) _ s

/-- The Reads that come before the perform of an entry (R212, R214). -/
theorem State.readAround_readOn (s : State) (n : Nat) (e : Entry) :
    s.ReadOn ((s.readEarlier n e.seq (e.written.map (fun b => b.1))).readLater n e) n :=
  (s.readLoads_readOn n _).trans (State.readLoads_readOn _ n _)

/-! ## What performs change -/

/-- t is s after performs of core n: its queue, performs and loads have changed, its view has only moved forward, and bytes may have been appended to
the write orders (R242, R244). -/
structure State.Performed (s t : State) (n : Nat) : Prop where
  rest : t = { s with cores := t.cores, delays := t.delays, drawn := t.drawn, mem := t.mem, writes := t.writes, log := t.log }
  others : ∀ m, m ≠ n → t.core m = s.core m
  core : ∃ q p ls v, t.core n = { s.core n with queue := q, performs := p, loads := ls, view := v }
  forward : (s.core n).view.le (t.core n).view
  writes : s.writes ≤ t.writes

theorem State.Performed.refl (s : State) (n : Nat) : s.Performed s n :=
  ⟨rfl, fun _ _ => rfl, ⟨_, _, _, _, rfl⟩, View.le_refl _, Nat.le_refl _⟩

theorem State.Performed.trans {s t u : State} {n : Nat} (h : s.Performed t n) (k : t.Performed u n) : s.Performed u n := by
  obtain ⟨q, p, ls, v, hc⟩ := h.core
  obtain ⟨q', p', ls', v', kc⟩ := k.core
  rw [hc] at kc
  exact ⟨by rw [k.rest, h.rest], fun m hm => (k.others m hm).trans (h.others m hm), ⟨q', p', ls', v', kc⟩, View.le_trans h.forward k.forward,
    h.writes.trans k.writes⟩

theorem State.ReadOn.performed {s t : State} {n : Nat} (h : s.ReadOn t n) : s.Performed t n := by
  obtain ⟨ls, v, hc, hv⟩ := h.core
  have hrest := h.rest
  refine ⟨?_, h.others, ⟨_, _, ls, v, hc⟩, by rw [hc]; exact hv, h.writes.ge⟩
  conv_lhs => rw [hrest]
  rw [h.mem, h.writes, show t.log = s.log by rw [hrest]]

/-- An update of core n that leaves its view and all but its queue and its performs. -/
theorem State.updCore_performed (s : State) (n : Nat) {f : Core → Core}
    (h : ∃ q p, f (s.core n) = { s.core n with queue := q, performs := p }) : s.Performed (s.updCore n f) n := by
  obtain ⟨q, p, hf⟩ := h
  have hc : (s.updCore n f).core n = { s.core n with queue := q, performs := p } := (State.core_updCore_self ..).trans hf
  exact ⟨rfl, fun m hm => State.core_updCore_of_ne _ _ _ _ hm, ⟨q, p, _, _, hc⟩, by rw [hc]; exact View.le_refl _, Nat.le_refl _⟩

section Keeps

variable {s t : State} {n : Nat} (h : s.Performed t n)
include h

theorem State.Performed.sameRegisters : (s.core n).SameRegisters (t.core n) := by
  obtain ⟨q, p, ls, v, hc⟩ := h.core
  rw [hc]
  simp [Core.SameRegisters]

theorem State.Performed.sameBuffers : (s.core n).SameBuffers (t.core n) := by
  obtain ⟨q, p, ls, v, hc⟩ := h.core
  rw [hc]
  exact ⟨rfl, rfl, rfl⟩

theorem State.Performed.regs : (t.core n).regs = (s.core n).regs := by
  obtain ⟨q, p, ls, v, hc⟩ := h.core
  rw [hc]

theorem State.Performed.die (d : Nat) : t.die d = s.die d := by
  rw [h.rest]
  rfl

/-- Whatever core: its launch is what it was. -/
theorem State.Performed.launch (m : Nat) : (t.core m).launch = (s.core m).launch := by
  by_cases hm : m = n
  · subst hm
    obtain ⟨q, p, ls, v, hc⟩ := h.core
    rw [hc]
  · rw [h.others m hm]

theorem State.Performed.vfOf (m : Nat) : t.vfOf m = s.vfOf m := by
  have hl : t.launches = s.launches := by rw [h.rest]
  simp only [State.vfOf, State.launchOf, State.launch?, h.launch, hl]

theorem State.Performed.notifying (vf : Nat) (r : Trans) : t.notifying vf r = s.notifying vf r := by
  have hv : t.vfs = s.vfs := by rw [h.rest]
  simp only [State.notifying, State.pageOf, State.vf, hv]

theorem State.Performed.transReach (m : Nat) (r : Trans) : t.transReach m r = s.transReach m r := by
  have hs : t.streams = s.streams := by rw [h.rest]
  simp only [State.transReach, State.reach, State.pathState, State.way, State.linked, State.linkLanes, State.stream, h.die, hs]

end Keeps

/-- The entry is translated, reaches no notify page, and finds its die-to-die ways active (R312, R388, R407). -/
def State.Performable (s : State) (n : Nat) (e : Entry) : Prop :=
  e.trans.ready = true ∧ s.notifying (s.vfOf n) e.trans = none ∧ s.transReach n e.trans = .active

theorem State.Performable.wayState {s : State} {n : Nat} {e : Entry} (h : s.Performable n e) : s.wayState n e.trans = .active := by
  obtain ⟨-, hnote, hway⟩ := h
  rw [State.wayState, hnote]
  exact hway

theorem State.Performed.performable {s t : State} {n m : Nat} (h : s.Performed t n) {e : Entry} (he : s.Performable m e) : t.Performable m e := by
  obtain ⟨hready, hnote, hway⟩ := he
  exact ⟨hready, by rw [h.vfOf, h.notifying, hnote], by rw [h.transReach, hway]⟩

/-! ## One entry -/

/-- The bytes that an entry appends, at their physical addresses (R242). -/
def Entry.placed (e : Entry) : List (Nat × Byte × Byte) := e.written.map (fun y => (e.trans.phys y.1, y.2))

theorem Memory.writeCells_append (m : Memory) (l r : List (Nat × Byte × Byte)) : m.writeCells (l ++ r) = (m.writeCells l).writeCells r :=
  List.foldl_append

/-- The view of core n stands behind the write of every byte of the entry, whose number is over w. -/
def State.Beyond (t : State) (n w : Nat) (e : Entry) : Prop := ∀ y ∈ e.written, w < (t.core n).view.point (e.trans.phys y.1)

theorem State.Beyond.of_performed {t u : State} {n w w' : Nat} {e : Entry} (h : t.Beyond n w' e) (k : t.Performed u n) (hw : w ≤ w') :
    u.Beyond n w e := fun y hy => Nat.lt_of_le_of_lt hw ((h y hy).trans_le (k.forward _))

/-- Bytes are appended to their write orders, and the view of core n moves to them (R242). -/
def State.appendFor (s : State) (n seq : Nat) (bytes : List (Nat × Byte × Byte)) : State :=
  (s.gwrite bytes).updCore n (fun c => c.moveView seq (bytes.map (fun b => b.1)) (s.gwrite bytes).writes)

theorem State.appendFor_spec (s : State) (n seq : Nat) (bytes : List (Nat × Byte × Byte)) :
    s.Performed (s.appendFor n seq bytes) n ∧ ((s.appendFor n seq bytes).core n).queue = (s.core n).queue ∧
      ((s.appendFor n seq bytes).core n).performs = (s.core n).performs ∧ (s.appendFor n seq bytes).mem = s.mem.writeCells bytes ∧
      ∀ b ∈ bytes, s.writes < ((s.appendFor n seq bytes).core n).view.point b.1 := by
  have hc : (s.appendFor n seq bytes).core n = (s.core n).moveView seq (bytes.map (fun b => b.1)) (s.writes + 1) := State.core_updCore_self ..
  refine ⟨⟨rfl, fun m hm => (State.core_updCore_of_ne _ _ _ _ hm).trans rfl, ⟨_, _, _, _, hc⟩, ?_, Nat.le_succ _⟩,
    by rw [hc]; rfl, by rw [hc]; rfl, rfl, fun b hb => ?_⟩ <;> rw [hc]
  · exact (s.core n).view.le_moveAll _ _
  · exact View.point_moveAll (List.mem_map_of_mem hb)

/-- The perform of a translated entry that reaches no notify page: it leaves the queue, its bytes are appended together, and the view moves to them
(R242). -/
theorem State.performEntry_spec {s : State} {n : Nat} {e : Entry} (h : s.notifying (s.vfOf n) e.trans = none) :
    s.Performed (s.performEntry n e) n ∧ ((s.performEntry n e).core n).queue = (s.core n).queue.filter (fun x => x.seq != e.seq) ∧
      ((s.performEntry n e).core n).performs = (s.core n).performs ∧ (s.performEntry n e).mem = s.mem.writeCells e.placed ∧
      (s.performEntry n e).Beyond n s.writes e := by
  have hread := s.readAround_readOn n e
  obtain ⟨ls, v, hc, -⟩ := hread.core
  unfold State.performEntry
  extract_lets vf s1 s2 phys s3
  have h2 : s.Performed s2 n := hread.performed.trans (s1.updCore_performed n ⟨_, _, rfl⟩)
  have hmem : s2.mem = s.mem := hread.mem
  have hwrites : s2.writes = s.writes := hread.writes
  have hcore : s2.core n = { s.core n with loads := ls, view := v, queue := (s.core n).queue.filter (fun x => x.seq != e.seq) } := by
    rw [State.core_updCore_self, hc]
  have hnote : s2.notifying vf e.trans = none := by rw [h2.notifying, h]
  rw [hnote]
  dsimp only
  split
  case isTrue hnil =>
    have hw : e.written = [] := List.map_eq_nil_iff.mp (List.isEmpty_iff.mp hnil)
    refine ⟨h2, by rw [hcore], by rw [hcore], ?_, fun y hy => by rw [hw] at hy; cases hy⟩
    rw [Entry.placed, hw, hmem]
    rfl
  case isFalse =>
    obtain ⟨hp, hq, hperf, hm, hbeyond⟩ := s2.appendFor_spec n e.seq phys
    refine ⟨h2.trans hp, ?_, ?_, ?_, fun y hy => ?_⟩
    · exact hq.trans (by rw [hcore])
    · exact hperf.trans (by rw [hcore])
    · exact hm.trans (by rw [hmem]; rfl)
    · exact hwrites.symm.trans_lt (hbeyond (e.trans.phys y.1, y.2) (List.mem_map.mpr ⟨y, hy, rfl⟩))

/-! ## All entries of a kind, in program order -/

/-- What the performs of the entries es of core n come to: their bytes are appended one entry after another, the view moves behind all of them, and
the core has nothing more to perform. -/
structure State.PerformsAll (s t : State) (n : Nat) (es : List Entry) : Prop where
  performed : s.Performed t n
  performs : (t.core n).performs = []
  mem : t.mem = s.mem.writeCells (es.flatMap Entry.placed)
  beyond : ∀ e ∈ es, t.Beyond n s.writes e

theorem find?_filter_ne {q : List Entry} {e f : Entry} (hf : q.find? (fun x => x.seq == f.seq) = some f) (hne : f.seq ≠ e.seq) :
    (q.filter (fun x => x.seq != e.seq)).find? (fun x => x.seq == f.seq) = some f := by
  rw [List.find?_filter, ← hf]
  congr 1
  funext x
  by_cases hx : x.seq = f.seq <;> simp [hx, hne]

/-- The perform items of entries that stand in the queue and may be performed, run to their end. -/
theorem State.runPerforms_entries {n : Nat} (es : List Entry) (s : State) (hitems : (s.core n).performs = es.map (fun e => PerformItem.entry e.seq))
    (hq : ∀ e ∈ es, (s.core n).queue.find? (fun x => x.seq == e.seq) = some e) (hnd : (es.map (fun e => e.seq)).Nodup)
    (hp : ∀ e ∈ es, s.Performable n e) :
    s.PerformsAll (State.runPerforms es.length s n) n es ∧
      ((State.runPerforms es.length s n).core n).queue = (s.core n).queue.filter (fun x => es.all (fun e => x.seq != e.seq)) := by
  induction es generalizing s with
  | nil =>
    refine ⟨⟨.refl s n, hitems, rfl, fun e he => by cases he⟩, ?_⟩
    exact (List.filter_eq_self.mpr fun _ _ => rfl).symm
  | cons e es ih =>
    obtain ⟨hready, hnote, hway⟩ := hp e List.mem_cons_self
    obtain ⟨hhead, htail⟩ := List.nodup_cons.mp hnd
    have hpop : s.Performed (s.updCore n (fun c => { c with performs := c.performs.tail })) n := s.updCore_performed n ⟨_, _, rfl⟩
    have hnote' := hnote
    rw [← hpop.vfOf, ← hpop.notifying] at hnote'
    obtain ⟨hdone, hqueue, hperf, hmem, hbeyond⟩ := State.performEntry_spec hnote'
    generalize hz : (s.updCore n (fun c => { c with performs := c.performs.tail })).performEntry n e = z at hdone hqueue hperf hmem hbeyond
    have hrun : State.runPerforms (e :: es).length s n = State.runPerforms es.length z n := by
      rw [List.length_cons, State.runPerforms]
      simp only [hitems, List.map_cons, hq e List.mem_cons_self, hready, if_true, (hp e List.mem_cons_self).wayState]
      rw [hz]
    rw [State.core_updCore_self] at hqueue hperf
    have hne : ∀ f ∈ es, f.seq ≠ e.seq := fun f hf h => hhead (List.mem_map.mpr ⟨f, hf, h⟩)
    obtain ⟨hall, hrest⟩ := ih z (by rw [hperf, hitems]; rfl)
      (fun f hf => by rw [hqueue]; exact find?_filter_ne (hq f (List.mem_cons_of_mem _ hf)) (hne f hf)) htail
      (fun f hf => (hpop.trans hdone).performable (hp f (List.mem_cons_of_mem _ hf)))
    rw [hrun]
    refine ⟨⟨(hpop.trans hdone).trans hall.performed, hall.performs, ?_, fun f hf => ?_⟩, ?_⟩
    · rw [hall.mem, hmem, List.flatMap_cons, Memory.writeCells_append]
      rfl
    · rcases List.mem_cons.mp hf with rfl | hf
      · exact hbeyond.of_performed hall.performed (Nat.le_refl _)
      · exact (hall.beyond f hf).of_performed (.refl _ n) ((hpop.trans hdone).writes)
    · rw [hrest, hqueue, List.filter_filter]
      congr 1
      funext x
      rw [List.all_cons, Bool.and_comm]

theorem find?_seq_of_nodup {q : List Entry} (hnd : (q.map (fun e => e.seq)).Nodup) {e : Entry} (he : e ∈ q) :
    q.find? (fun x => x.seq == e.seq) = some e := by
  cases h : q.find? (fun x => x.seq == e.seq) with
  | none => exact absurd (beq_self_eq_true _) (List.find?_eq_none.mp h e he)
  | some f =>
    have hf := List.mem_of_find?_eq_some h
    have hseq : f.seq = e.seq := by simpa using List.find?_some h
    rw [List.inj_on_of_nodup_map hnd hf he hseq]

/-- The entries that are left behind are those that were not asked for. -/
theorem filter_unperformed {q : List Entry} (hnd : (q.map (fun e => e.seq)).Nodup) (p : Entry → Bool) :
    q.filter (fun x => (q.filter p).all (fun e => x.seq != e.seq)) = q.filter (fun e => !p e) := by
  refine List.filter_congr fun x hx => ?_
  rw [Bool.eq_iff_iff, List.all_eq_true]
  constructor
  · intro h
    by_contra hp
    exact absurd rfl (bne_iff_ne.mp (h x (List.mem_filter.mpr ⟨hx, by simpa using hp⟩)))
  · intro h e he
    obtain ⟨hq, hp⟩ := List.mem_filter.mp he
    refine bne_iff_ne.mpr fun hseq => ?_
    rw [List.inj_on_of_nodup_map hnd hx hq hseq] at h
    simp [hp] at h

/-- Performs of the entries that satisfy p, by a core with no perform under way: they leave the queue, in its order, and the others stay (R244). -/
theorem State.perform_spec {s : State} {n : Nat} {p : Entry → Bool} (h0 : (s.core n).performs = [])
    (hnd : ((s.core n).queue.map (fun e => e.seq)).Nodup) (hp : ∀ e ∈ (s.core n).queue, p e = true → s.Performable n e) :
    s.PerformsAll (s.perform n p []) n ((s.core n).queue.filter p) ∧
      ((s.perform n p []).core n).queue = (s.core n).queue.filter (fun e => !p e) := by
  have hask : s.Performed (s.setCore n { s.core n with performs := ((s.core n).queue.filter p).map (fun e => PerformItem.entry e.seq) }) n :=
    s.updCore_performed n (f := fun _ => { s.core n with performs := ((s.core n).queue.filter p).map (fun e => PerformItem.entry e.seq) })
      ⟨_, _, rfl⟩
  generalize hz : s.setCore n { s.core n with performs := ((s.core n).queue.filter p).map (fun e => PerformItem.entry e.seq) } = z at hask
  have hzcore : z.core n = { s.core n with performs := ((s.core n).queue.filter p).map (fun e => PerformItem.entry e.seq) } := by
    rw [← hz, State.core_setCore_self]
  have hrun : s.perform n p [] = State.runPerforms ((s.core n).queue.filter p).length z n := by
    unfold State.perform
    simp only [h0, List.append_nil, List.nil_append, List.length_nil, List.length_map, Nat.zero_add, hz]
  obtain ⟨hall, hqueue⟩ := State.runPerforms_entries ((s.core n).queue.filter p) z (by rw [hzcore])
    (fun e he => by rw [hzcore]; exact find?_seq_of_nodup hnd (List.mem_of_mem_filter he))
    (hnd.sublist (List.filter_sublist.map _))
    (fun e he => hask.performable (hp e (List.mem_of_mem_filter he) (List.of_mem_filter he)))
  rw [hrun, ← filter_unperformed hnd p]
  refine ⟨⟨hask.trans hall.performed, hall.performs, ?_, fun e he => (hall.beyond e he).of_performed (.refl _ n) hask.writes⟩, ?_⟩
  · rw [hall.mem, ← hz, State.setCore_mem]
  · rw [hqueue, hzcore]

end Sys2Proof.Machine
end

section
/-! PROOFS. Global stores: the queue of a colour, its overflow, and the performs of FENCE and HALT (R130, R133, R213, R242, R244, R312). -/

open Sys2Proof Sys2Proof.Machine

namespace Sys2Proof.Machine

/-! ## A store whose pieces all lie in global memory -/

section Global

variable {s : State} {n : Nat} {p : Plan} (hs : p.IsStore) (hg : ∀ x ∈ p.pieces, x.addr + x.len ≤ 2 ^ 52)
include hs hg

/-- Every state sees such a piece in global memory. -/
theorem Plan.win_global {x : Piece} (hx : x ∈ p.pieces) (t : State) : t.win n x.addr = some .global := by
  have h0 := hs.len x hx
  have h1 := hg x hx
  exact State.win_of_holds ((t.holds_global n x.addr 1).mpr (by omega))

theorem Plan.bufOf_global {x : Piece} (hx : x ∈ p.pieces) : bufOf 0 x.addr = none := by
  have h0 := hs.len x hx
  have h1 := hg x hx
  have hwin : winOf 0 x.addr = some .global := if_pos (by omega)
  rw [bufOf, hwin]

/-- All its bytes are global. -/
theorem Plan.globalCells_eq (t : State) : t.globalCells n p = p.pieces.flatMap Piece.cells := by
  have hall : p.pieces.filter (fun x => t.win n x.addr == some .global) = p.pieces :=
    List.filter_eq_self.mpr fun x hx => by rw [Plan.win_global hs hg hx]; rfl
  rw [State.globalCells, hall, List.filter_eq_self]
  intro e he
  obtain ⟨x, hx, he⟩ := List.mem_flatMap.mp he
  obtain ⟨k, hk, rfl⟩ := List.mem_map.mp he
  have := hg x hx
  have := List.mem_range.mp hk
  exact decide_eq_true (Nat.lt_of_le_of_lt (Nat.mod_le _ _) (by omega))

theorem Plan.addressFault_global {i : Instr} (hp : (s.core n).plan i = some p) : s.addressFault n i = none := by
  refine s.addressFault_of_groups n i p hp fun g hgr => ?_
  obtain ⟨hne, hmem⟩ := Plan.mem_groups hgr
  obtain ⟨x, r, rfl⟩ := List.exists_cons_of_ne_nil hne
  have hsized : ∀ y ∈ x :: r, y.Sized := fun y hy => ⟨hs.len y (hmem y hy), by have := hg y (hmem y hy); omega⟩
  have hw : ∀ y ∈ x :: r, s.Holds n .global y.addr y.len := fun y hy => (s.holds_global n _ _).mpr (hg y (hmem y hy))
  rcases hs.cls with hc | hc
  · exact State.groupSub_scalar_memory hsized hw (.inr hc) (.inl rfl)
  · exact State.groupSub_vector hsized hw (.inr hc) (by decide)

/-- Such a store joins the queue of its colour, and its core goes on in its program. -/
theorem State.lsStore_of_global {i : Instr} (hp : (s.core n).plan i = some p) (hne : p.pieces.flatMap Piece.cells ≠ []) :
    s.lsStore n i = ((s.lsBegin n p).queueStore n p.col (p.pieces.flatMap Piece.cells)).nextPos n := by
  have hbuf : ∀ t : State, p.pieces.foldl (fun t x => t.bufferStore n x) t = t := fun t =>
    foldl_of_fixed _ _ _ fun x hx => by rw [State.bufferStore, Plan.bufOf_global hs hg hx]
  have hcom : ∀ t : State, p.pieces.filter (fun x => t.win n x.addr == some .commons) = [] := fun t =>
    List.filter_eq_nil_iff.mpr fun x hx => by rw [Plan.win_global hs hg hx]; decide
  unfold State.lsStore
  simp only [hp, hbuf, hcom, List.flatMap_nil, State.commonsStore_eq_foldl, List.foldl_nil, Plan.globalCells_eq hs hg, if_neg hne]
  rw [foldl_of_fixed (l := p.pieces)]
  · rfl
  · intro x hx
    rw [Plan.win_global hs hg hx]

end Global

/-! ## The queue of a colour (R213) -/

/-- A store enters its queue, its translation begun (R312). -/
def State.enqueue (s : State) (n col : Nat) (cells : List (Nat × Byte × Byte)) : State :=
  let e := s.beginTrans n (s.vfOf n) .store (distinct (cells.map (fun e => e.1)))
  e.2.updCore n (fun c => { c with
    nextId := c.nextId + 1
    queue := c.queue ++ [⟨c.nextId, col, c.regs.pc.toNat, cells, e.1⟩] })

theorem State.enqueue_spec (s : State) (n col : Nat) (cells : List (Nat × Byte × Byte)) : ∃ e : Entry, e.col = col ∧ e.bytes = cells ∧
    e.bundle = (s.core n).regs.pc.toNat ∧ s.SameElsewhere (s.enqueue n col cells) n ∧
    ∃ b k, (s.enqueue n col cells).core n = { s.core n with tlb := b, nextId := k, queue := (s.core n).queue ++ [e] } := by
  obtain ⟨⟨b, hb⟩, helse⟩ := s.beginTrans_filled n (s.vfOf n) .store (distinct (cells.map (fun e => e.1)))
  refine ⟨⟨(s.core n).nextId, col, (s.core n).regs.pc.toNat, cells,
    (s.beginTrans n (s.vfOf n) .store (distinct (cells.map (fun e => e.1)))).1⟩, rfl, rfl, rfl, helse.trans (State.updCore_sameElsewhere ..), b, (s.core n).nextId + 1, ?_⟩
  rw [State.enqueue, State.core_updCore_self, hb]

/-- Whether the queue of a colour has no room for some bytes. -/
def Core.overflows (c : Core) (col : Nat) (cells : List (Nat × Byte × Byte)) : Prop :=
  512 < c.queueSectors col + (sectorsOf (distinct (cells.map (fun e => e.1)))).length

/-- The overflow of a colour queue: it is performed, the window closes, and NOREPLAY is set (R213). -/
def State.overflow (s : State) (n col : Nat) : State :=
  (s.perform n (fun e => e.col == col) []).updCore n (fun c => { c with
    regs := { c.regs with stat := { closeWindow c.regs.stat with noreplay := true } } })

theorem State.queueStore_of_room {s : State} {n col : Nat} {cells : List (Nat × Byte × Byte)} (h : ¬ (s.core n).overflows col cells) :
    s.queueStore n col cells = s.enqueue n col cells := by
  unfold State.queueStore
  extract_lets as t
  have ht : t = s := if_neg h
  rw [ht]
  rfl

theorem State.queueStore_of_full {s : State} {n col : Nat} {cells : List (Nat × Byte × Byte)} (h : (s.core n).overflows col cells) :
    s.queueStore n col cells = (s.overflow n col).enqueue n col cells := by
  unfold State.queueStore
  extract_lets as t
  have ht : t = s.overflow n col := if_pos h
  rw [ht]
  rfl

/-- s at the beginning of an access of core n, with its reservation made. -/
def State.begun (s : State) (n : Nat) (p : Plan) : State := s.updCore n (fun c => c.reserve s.now .issue (p.banks.map (fun b => (b.1, b.2, 0))))

theorem State.begun_core (s : State) (n : Nat) (p : Plan) : ∃ r, (s.begun n p).core n = { s.core n with rsv := r } :=
  ⟨_, State.core_updCore_self ..⟩

theorem State.begun_performable {s : State} {n : Nat} {p : Plan} {e : Entry} (h : s.Performable n e) : (s.begun n p).Performable n e := by
  obtain ⟨hready, hnote, hway⟩ := h
  have hvf : (s.begun n p).vfOf n = s.vfOf n := by
    rw [State.vfOf, State.begun, State.launchOf_updCore rfl]
    rfl
  exact ⟨hready, by rw [hvf]; exact hnote, hway⟩

theorem State.nextPos_core (s : State) (n : Nat) : (s.nextPos n).core n = { s.core n with pos := (s.core n).pos + 1 } := State.core_updCore_self ..

/-- Places in program order are distinct. -/
theorem nodup_of_ascending {l : List Nat} (h : l.Pairwise (· < ·)) : l.Nodup := h.imp Nat.ne_of_lt

/-! ## Stores -/

section Stores

variable {s : State} {i : Instr} {p : Plan} (hi : StoreInstr i) (hp : (s.core s.cur).plan i = some p) (hne : p.pieces.flatMap Piece.cells ≠ [])
  (hg : ∀ x ∈ p.pieces, x.addr + x.len ≤ 2 ^ 52) (hw : WellFormed i) (hserves : s.Serves i) (hjobs : (s.die (dieOf s.cur)).jobs = [])
include hi hp hne hg hw hserves hjobs

/-- A store of global memory makes its reservation and enters the queue of its colour. -/
theorem exec_globalStore : exec i s =
    .next (((s.begun s.cur p).queueStore s.cur p.col (p.pieces.flatMap Piece.cells)).nextPos s.cur) := by
  have hstore := hi.isStore _ p hp
  rw [hi.exec_of_clear s hw hserves (Plan.addressFault_global hstore hg hp), State.lsStore_of_global hstore hg hp hne,
    State.lsBegin_of_no_jobs s s.cur p hjobs]
  rfl

/-- Its queue has room: it waits there, and nothing else of the package changes. -/
theorem globalStore_waits (hroom : ¬ (s.core s.cur).overflows p.col (p.pieces.flatMap Piece.cells)) :
    ∃ z e, exec i s = .next z ∧ (z.core s.cur).queue = (s.core s.cur).queue ++ [e] ∧ e.col = p.col ∧ e.bytes = p.pieces.flatMap Piece.cells ∧
      e.bundle = (s.core s.cur).regs.pc.toNat ∧ (z.core s.cur).pos = (s.core s.cur).pos + 1 ∧ (s.core s.cur).SameRegisters (z.core s.cur) ∧
      (s.core s.cur).SameBuffers (z.core s.cur) ∧ s.SameElsewhere z s.cur := by
  obtain ⟨r, hr⟩ := s.begun_core s.cur p
  obtain ⟨e, hcol, hbytes, hbundle, helse, b, k, hc⟩ := (s.begun s.cur p).enqueue_spec s.cur p.col (p.pieces.flatMap Piece.cells)
  rw [hr] at hbundle hc
  refine ⟨_, e, exec_globalStore hi hp hne hg hw hserves hjobs, ?_⟩
  rw [State.queueStore_of_room (by rw [hr]; exact hroom), State.nextPos_core, hc]
  refine ⟨rfl, hcol, hbytes, hbundle, rfl, by simp [Core.SameRegisters], ⟨rfl, rfl, rfl⟩, ?_⟩
  exact (s.updCore_sameElsewhere s.cur _).trans (helse.trans (State.updCore_sameElsewhere ..))

/-- Its queue has no room: the queue is performed first, the window closes, and NOREPLAY is set. -/
theorem globalStore_overflows (hfull : (s.core s.cur).overflows p.col (p.pieces.flatMap Piece.cells)) (hperf : (s.core s.cur).performs = [])
    (hseq : ((s.core s.cur).queue.map (fun e => e.seq)).Pairwise (· < ·))
    (hready : ∀ e ∈ (s.core s.cur).queue, e.col = p.col → s.Performable s.cur e) :
    ∃ z e, exec i s = .next z ∧ (z.core s.cur).queue = (s.core s.cur).queue.filter (fun x => x.col != p.col) ++ [e] ∧ e.col = p.col ∧
      e.bytes = p.pieces.flatMap Piece.cells ∧
      z.mem = s.mem.writeCells (((s.core s.cur).queue.filter (fun x => x.col == p.col)).flatMap Entry.placed) ∧
      (z.core s.cur).regs.stat = { (s.core s.cur).regs.stat with window := false, noreplay := true } ∧
      (s.core s.cur).SameRegisters (z.core s.cur) ∧ (s.core s.cur).SameBuffers (z.core s.cur) := by
  obtain ⟨r, hr⟩ := s.begun_core s.cur p
  obtain ⟨hall, hqueue⟩ := State.perform_spec (s := s.begun s.cur p) (n := s.cur) (p := fun e => e.col == p.col) (by rw [hr]; exact hperf)
    (by rw [hr]; exact nodup_of_ascending hseq)
    (fun e he hcol => by rw [hr] at he; exact State.begun_performable (hready e he (eq_of_beq hcol)))
  obtain ⟨q, ps, ls, v, hc⟩ := hall.performed.core
  have hmem := hall.mem
  rw [hr] at hc hqueue hmem
  rw [hc] at hqueue
  obtain ⟨e, hcol, hbytes, -, ⟨-, -, hstore, -⟩, b, k, hcore⟩ :=
    ((s.begun s.cur p).overflow s.cur p.col).enqueue_spec s.cur p.col (p.pieces.flatMap Piece.cells)
  rw [State.overflow, State.core_updCore_self, hc] at hcore
  refine ⟨_, e, exec_globalStore hi hp hne hg hw hserves hjobs, ?_⟩
  rw [State.queueStore_of_full (by rw [hr]; exact hfull), State.nextPos_core, State.overflow, hcore]
  refine ⟨congrArg (· ++ [e]) hqueue, hcol, hbytes, ?_, rfl, by simp [Core.SameRegisters], ⟨rfl, rfl, rfl⟩⟩
  exact hstore.trans hmem

end Stores

/-! ## FENCE and HALT -/

/-- FENCE of some colours performs their queues, closes the window, and its core goes on (R130). -/
theorem exec_fence_performs {s : State} {mask : BitVec 8}
    (hlen : (stepOn (s.core s.cur).regs.pc.toNat (s.core s.cur).regs.loops).1 < s.imageLen s.cur) (hmask : mask ≠ 0) :
    exec (.fence mask) s = .next (((s.perform s.cur (inColours mask) []).closeWin s.cur).updCore s.cur Core.goOn) := by
  have hsub : s.ctSub s.cur (.fence mask) = none := by rw [ctSub_fence, nextOf_fence, targetSub_stepped hlen]
  rw [ctExec_goesOn (exec_fence s mask) (ctPlain_fence mask) (by simp) hsub fun c => nextOf_fence c mask, if_neg hmask]

/-- HALT performs every queue, counts its cycle and begins to stop (R133). -/
theorem State.halt_eq (s : State) (n : Nat) : s.halt n = ((s.perform n (fun _ => true) []).updCore n Core.haltCycle).beginStop n .halt := by
  simp [State.halt, State.closeWin, State.updCore, Core.haltCycle]

section Performs

variable {s : State} {which : Entry → Bool} (hperf : (s.core s.cur).performs = [])
  (hseq : ((s.core s.cur).queue.map (fun e => e.seq)).Pairwise (· < ·))

/-- What a state z that follows performs of the current core, of the entries that satisfy which, must show (R130, R133, R244). -/
structure State.HasPerformed (s z : State) (which : Entry → Bool) : Prop where
  queue : (z.core s.cur).queue = (s.core s.cur).queue.filter (fun e => !which e)
  performs : (z.core s.cur).performs = []
  mem : z.mem = s.mem.writeCells (((s.core s.cur).queue.filter which).flatMap Entry.placed)
  window : (z.core s.cur).regs.stat.window = false
  registers : (s.core s.cur).SameRegisters (z.core s.cur)
  buffers : (s.core s.cur).SameBuffers (z.core s.cur)

include hperf hseq

/-- A state that differs from the performs' end on the current core alone, with its window closed there, has performed. -/
theorem State.hasPerformed_of_core {z : State} (hready : ∀ e ∈ (s.core s.cur).queue, which e = true → s.Performable s.cur e)
    (hmem : z.mem = (s.perform s.cur which []).mem) (hq : (z.core s.cur).queue = ((s.perform s.cur which []).core s.cur).queue)
    (hp : (z.core s.cur).performs = ((s.perform s.cur which []).core s.cur).performs) (hwin : (z.core s.cur).regs.stat.window = false)
    (hr : ((s.perform s.cur which []).core s.cur).SameRegisters (z.core s.cur))
    (hb : ((s.perform s.cur which []).core s.cur).SameBuffers (z.core s.cur)) : s.HasPerformed z which := by
  obtain ⟨hall, hqueue⟩ := State.perform_spec hperf (nodup_of_ascending hseq) hready
  exact ⟨hq.trans hqueue, hp.trans hall.performs, hmem.trans hall.mem, hwin, hall.performed.sameRegisters.trans hr,
    hall.performed.sameBuffers.trans hb⟩

theorem exec_fence_hasPerformed {mask : BitVec 8} (hready : ∀ e ∈ (s.core s.cur).queue, inColours mask e = true → s.Performable s.cur e)
    (hlen : (stepOn (s.core s.cur).regs.pc.toNat (s.core s.cur).regs.loops).1 < s.imageLen s.cur) (hmask : mask ≠ 0) :
    ∃ z, exec (.fence mask) s = .next z ∧ s.HasPerformed z (inColours mask) := by
  refine ⟨_, exec_fence_performs hlen hmask, State.hasPerformed_of_core hperf hseq hready rfl ?_ ?_ ?_ ?_ ?_⟩ <;>
    rw [State.core_updCore_self, State.closeWin, State.core_updCore_self]
  · rfl
  · rfl
  · rfl
  · simp [Core.SameRegisters, Core.goOn]
  · exact ⟨rfl, rfl, rfl⟩

theorem exec_halt_hasPerformed (hready : ∀ e ∈ (s.core s.cur).queue, s.Performable s.cur e) :
    ∃ z, exec .halt s = .next z ∧ s.HasPerformed z (fun _ => true) := by
  obtain ⟨z, ⟨hrest, -, ⟨v, b, h, q, hc⟩, -⟩, e⟩ := ((s.perform s.cur (fun _ => true) []).updCore s.cur Core.haltCycle).beginStop_eq s.cur .halt
  rw [State.core_updCore_self] at hc
  refine ⟨_, exec_halt_eq s, ?_⟩
  rw [State.halt_eq, e, State.advance]
  refine State.hasPerformed_of_core hperf hseq (fun e he _ => hready e he) (show z.mem = _ by rw [hrest]; rfl) ?_ ?_ ?_ ?_ ?_ <;>
    rw [State.core_updCore_self, State.core_updCore_self, hc]
  · rfl
  · rfl
  · rfl
  · simp [Core.SameRegisters, Core.haltCycle]
  · exact ⟨rfl, rfl, rfl⟩

end Performs

/-- Settles O40: a store waits in its queue or performs it first, by the room that the queue has; FENCE and HALT perform the queues of their
colours. -/
theorem globalStoresWaitAndPerform : Obligations.GlobalStoresWaitAndPerform := by
  constructor
  · intro s i p c cells sectors hi hp hne hg hw hserves hjobs
    refine ⟨fun hroom => globalStore_waits hi hp hne hg hw hserves hjobs (Nat.not_lt.mpr hroom), fun hfull hperf hseq hready => ?_⟩
    exact globalStore_overflows hi hp hne hg hw hserves hjobs hfull hperf hseq hready
  · intro s mask c nx performs
    refine ⟨fun hlen hmask hperf hseq hready => ?_, fun hperf hseq hready => ?_⟩
    · obtain ⟨z, hz, h⟩ := exec_fence_hasPerformed hperf hseq hready hlen hmask
      exact ⟨z, hz, h.queue, h.performs, h.mem, h.window, h.registers, h.buffers⟩
    · obtain ⟨z, hz, h⟩ := exec_halt_hasPerformed hperf hseq fun e he => hready e he rfl
      exact ⟨z, hz, h.queue, h.performs, h.mem, h.window, h.registers, h.buffers⟩

end Sys2Proof.Machine
end

section
/-! PROOFS. The end of a wait, and the laws that a release uses: joins of views, sorted lists, and words rewritten one after
another (R124, R129, R131, R241, R262). -/

open Sys2Proof Sys2Proof.Machine

namespace Sys2Proof.Machine

/-! ## The end of a wait (R129, R131) -/

theorem State.waitRecord_noted (s : State) (n lost : Nat) : s.Noted (s.waitRecord n lost) n := by
  unfold State.waitRecord
  extract_lets c
  split
  · exact s.deviation_noted ..
  · exact s.deviation_noted ..
  · exact s.deviation_noted ..
  · exact (State.Traced.refl s).noted n

theorem Core.fillLocket_keeps (c : Core) : ∃ k, c.fillLocket = { c with locket := k } := by
  unfold Core.fillLocket
  split
  · split
    · exact ⟨_, rfl⟩
    · exact ⟨c.locket, rfl⟩
  · exact ⟨c.locket, rfl⟩

/-- A core after its wait. -/
def Core.waited (c : Core) : Core := ({ c with wait := none, wakeAt := none, waitMark := false } : Core).fillLocket

theorem State.endWait_eq {s : State} {n : Nat} (h : (s.core n).waitMark = false) :
    ∃ z, s.Noted z n ∧ s.endWait n = z.updCore n Core.waited := by
  refine ⟨_, s.waitRecord_noted n ((s.core n).schedule - ((s.core n).waitSch + (s.core n).waitLen)), ?_⟩
  unfold State.endWait
  extract_lets c isStep t u
  rw [if_neg (by rw [show c.waitMark = false from h]; decide)]
  rfl

/-- What a core shows whose wait has ended with the view v of its wake (R242). -/
structure State.Wakes (s t : State) (n : Nat) (v : View) : Prop where
  wait : (t.core n).wait = none
  wakeAt : (t.core n).wakeAt = none
  run : (t.core n).run = (s.core n).run
  view : (t.core n).view = (s.core n).view.join v
  pc : (t.core n).regs.pc = (s.core n).regs.pc
  loops : (t.core n).regs.loops = (s.core n).regs.loops
  registers : (s.core n).SameRegisters (t.core n)
  buffers : (s.core n).SameBuffers (t.core n)
  memory : s.SameMemory t

theorem State.endWait_wakes {s : State} {n : Nat} (v : View) (h : (s.core n).waitMark = false) :
    s.Wakes ((s.setCore n { s.core n with view := (s.core n).view.join v }).endWait n) n v := by
  obtain ⟨z, hz, e⟩ := State.endWait_eq (s := s.setCore n { s.core n with view := (s.core n).view.join v }) (n := n)
    (by rw [State.core_setCore_self]; exact h)
  have hmem : s.SameMemory z := hz.sameMemory
  obtain ⟨-, -, ⟨devc, dev, held, req, hc⟩, -⟩ := hz
  rw [State.core_setCore_self] at hc
  have hcore : (z.updCore n Core.waited).core n = (z.core n).waited := State.core_updCore_self ..
  obtain ⟨k, hk⟩ := Core.fillLocket_keeps { z.core n with wait := none, wakeAt := none, waitMark := false }
  rw [Core.waited, hk, hc] at hcore
  rw [e]
  constructor
  case memory => exact hmem
  all_goals rw [hcore]
  case registers => simp [Core.SameRegisters]
  case buffers => exact ⟨rfl, rfl, rfl⟩

theorem exec_wake_wakes {s : State} {n k at0 : Nat} (hrun : (s.core n).run = .running) (hwait : (s.core n).wait = some (.clasp k))
    (hat : (s.core n).wakeAt = some at0) (hnow : at0 ≤ s.now) (hmark : (s.core n).waitMark = false) :
    ∃ t, exec (.wake n) s = .next t ∧ s.Wakes t n ((s.core n).clasp k).view := by
  refine ⟨_, ?_, State.endWait_wakes _ hmark⟩
  show execWake n s = _
  unfold execWake
  simp only [hrun, hwait, hat, if_pos hnow]

theorem exec_txwake_wakes {s : State} {n a phase : Nat} (hrun : (s.core n).run = .running) (hwait : (s.core n).wait = some (.tx a phase))
    (hphase : (s.core n).txPhase (a - aBase) ≠ phase) (hmark : (s.core n).waitMark = false) :
    ∃ t, exec (.txwake n) s = .next t ∧ s.Wakes t n (s.txView n (a - aBase)) := by
  refine ⟨_, ?_, State.endWait_wakes _ hmark⟩
  show execTxwake n s = _
  unfold execTxwake
  simp only [hrun, hwait, if_pos hphase]

/-! ## Joins of views (R241) -/

theorem getD_zero_or_mem (m : Map Nat) (a : Nat) : getD 0 m a = 0 ∨ (a, getD 0 m a) ∈ m := by
  induction m with
  | nil => exact .inl rfl
  | cons e r ih =>
    obtain ⟨b, p⟩ := e
    by_cases hb : b = a
    · subst hb
      exact .inr (by simp [getD])
    · rw [getD, if_neg hb]
      exact ih.imp_right (List.mem_cons_of_mem _)

/-- The points of a join, over the floor f. -/
def View.merge (f : Nat) (m : Map Nat) (e : Nat × Nat) : Map Nat := if e.2 ≤ max f (getD 0 m e.1) then m else put m e.1 e.2

theorem View.merge_self (f : Nat) (m : Map Nat) (e : Nat × Nat) : e.2 ≤ max f (getD 0 (View.merge f m e) e.1) := by
  unfold View.merge
  split
  · assumption
  · rw [getD_put_self]
    exact Nat.le_max_right _ _

theorem View.le_merge (f : Nat) (m : Map Nat) (e : Nat × Nat) (a : Nat) : max f (getD 0 m a) ≤ max f (getD 0 (View.merge f m e) a) := by
  unfold View.merge
  split
  · exact Nat.le_refl _
  · next h =>
    by_cases ha : a = e.1
    · subst ha
      rw [getD_put_self]
      omega
    · rw [getD_put_of_ne _ _ _ _ _ ha]

theorem View.foldl_merge (f : Nat) (l : List (Nat × Nat)) (m : Map Nat) :
    (∀ a, max f (getD 0 m a) ≤ max f (getD 0 (l.foldl (View.merge f) m) a)) ∧ ∀ e ∈ l, e.2 ≤ max f (getD 0 (l.foldl (View.merge f) m) e.1) := by
  induction l generalizing m with
  | nil => exact ⟨fun _ => Nat.le_refl _, fun e he => by cases he⟩
  | cons b r ih =>
    obtain ⟨hkeep, hall⟩ := ih (View.merge f m b)
    refine ⟨fun a => (View.le_merge f m b a).trans (hkeep a), fun e he => ?_⟩
    rcases List.mem_cons.mp he with rfl | he
    · exact (View.merge_self f m e).trans (hkeep _)
    · exact hall e he

theorem View.join_eq (u v : View) : u.join v = ⟨max u.floor v.floor, (u.pts ++ v.pts).foldl (View.merge (max u.floor v.floor)) []⟩ := rfl

/-- A view whose floor and points the join takes up stands no later than the join. -/
theorem View.le_join_of_subset {u v w : View} (hf : w.floor ≤ max u.floor v.floor) (hp : ∀ e ∈ w.pts, e ∈ u.pts ++ v.pts) : w.le (u.join v) := by
  intro a
  rw [View.join_eq]
  refine max_le (hf.trans (Nat.le_max_left _ _)) ?_
  rcases getD_zero_or_mem w.pts a with h | h
  · rw [h]
    exact Nat.zero_le _
  · exact (View.foldl_merge (max u.floor v.floor) (u.pts ++ v.pts) []).2 _ (hp _ h)

theorem View.le_join_left (u v : View) : u.le (u.join v) :=
  View.le_join_of_subset (Nat.le_max_left _ _) fun _ he => List.mem_append_left _ he

theorem View.le_join_right (u v : View) : v.le (u.join v) :=
  View.le_join_of_subset (Nat.le_max_right _ _) fun _ he => List.mem_append_right _ he

/-- The join of a list of views, from u on. -/
theorem View.le_foldl_join {α : Type} (view : α → View) (l : List α) (u : View) :
    u.le (l.foldl (fun v k => v.join (view k)) u) ∧ ∀ k ∈ l, (view k).le (l.foldl (fun v k => v.join (view k)) u) := by
  induction l generalizing u with
  | nil => exact ⟨u.le_refl, fun k hk => by cases hk⟩
  | cons b r ih =>
    obtain ⟨hkeep, hall⟩ := ih (u.join (view b))
    refine ⟨View.le_trans (u.le_join_left _) hkeep, fun k hk => ?_⟩
    rcases List.mem_cons.mp hk with rfl | hk
    · exact View.le_trans (u.le_join_right _) hkeep
    · exact hall k hk

/-! ## Sorted lists of distinct numbers -/

theorem insertBy_perm {α : Type} (le : α → α → Bool) (x : α) (l : List α) : (insertBy le x l).Perm (x :: l) := by
  induction l with
  | nil => exact .refl _
  | cons y r ih =>
    unfold insertBy
    split
    · exact (ih.cons y).trans (.swap x y r)
    · exact .refl _

theorem sortBy_perm {α : Type} (le : α → α → Bool) (l : List α) : (sortBy le l).Perm l := by
  have h : ∀ acc : List α, (l.foldl (fun acc x => insertBy le x acc) acc).Perm (acc ++ l) := by
    induction l with
    | nil => intro acc; rw [List.foldl_nil, List.append_nil]
    | cons x r ih => exact fun acc => (ih _).trans (((insertBy_perm le x acc).append_right r).trans List.perm_middle.symm)
  exact h []

theorem distinct_spec (l : List Nat) : (distinct l).Nodup ∧ ∀ x ∈ distinct l, x ∈ l := by
  have h : ∀ acc : List Nat, acc.Nodup → (l.foldl (fun acc x => if acc.contains x then acc else acc ++ [x]) acc).Nodup ∧
      ∀ x ∈ l.foldl (fun acc x => if acc.contains x then acc else acc ++ [x]) acc, x ∈ acc ∨ x ∈ l := by
    induction l with
    | nil => exact fun acc hacc => ⟨hacc, fun x hx => .inl hx⟩
    | cons y r ih =>
      intro acc hacc
      rw [List.foldl_cons]
      split
      · obtain ⟨hnd, hmem⟩ := ih acc hacc
        exact ⟨hnd, fun x hx => (hmem x hx).imp_right (List.mem_cons_of_mem y)⟩
      · next hy =>
        have hnot : y ∉ acc := by simpa using hy
        obtain ⟨hnd, hmem⟩ := ih (acc ++ [y]) (hacc.append (List.nodup_singleton y) (by simpa using hnot))
        refine ⟨hnd, fun x hx => ?_⟩
        have := hmem x hx
        simp only [List.mem_append, List.mem_singleton] at this
        rw [List.mem_cons]
        tauto
  obtain ⟨hnd, hmem⟩ := h [] List.nodup_nil
  exact ⟨hnd, fun x hx => (hmem x hx).resolve_left List.not_mem_nil⟩

/-! ## Words of a memory, rewritten one after another -/

/-- A word of a memory that takes a new value, by its present one. -/
structure Rewrite where
  addr : Nat
  len : Nat
  new : Nat → Nat

def Memory.rewrite (m : Memory) (e : Rewrite) : Memory := m.writeN e.addr e.len (e.new (m.readN e.addr e.len))

/-- The words lie apart. -/
def Rewrite.Apart (e f : Rewrite) : Prop := e.addr + e.len ≤ f.addr ∨ f.addr + f.len ≤ e.addr

theorem Memory.readN_filter (m : Memory) (p : Host.Cell → Bool) (b k : Nat) (h : ∀ c : Host.Cell, b ≤ c.1 → c.1 < b + k → p c = true) :
    Memory.readN (m.filter p) b k = Memory.readN m b k := by
  unfold Memory.readN
  rw [List.filter_filter]
  congr 1
  refine List.filter_congr fun c _ => ?_
  by_cases hc : b ≤ c.1 ∧ c.1 < b + k
  · rw [h c hc.1 hc.2, Bool.and_true]
  · have : (decide (b ≤ c.1) && decide (c.1 < b + k)) = false := by rw [← Bool.decide_and]; exact decide_eq_false hc
    rw [this, Bool.false_and]

theorem Memory.readN_filter_outside (m : Memory) (p : Host.Cell → Bool) (b k : Nat) (h : ∀ c : Host.Cell, p c = true → c.1 < b ∨ b + k ≤ c.1) :
    Memory.readN (m.filter p) b k = 0 := Memory.readN_outside _ _ _ fun c hc => h c (List.of_mem_filter hc)

theorem Memory.readN_writeN_of_apart (m : Memory) (a n v b k : Nat) (h : a + n ≤ b ∨ b + k ≤ a) : (m.writeN a n v).readN b k = m.readN b k := by
  have hcells : Memory.readN (cellsOf a n v) b k = 0 := Memory.readN_outside _ _ _ fun c hc => by
    have := mem_cellsOf _ _ _ _ hc
    omega
  unfold Memory.writeN
  rw [Memory.readN_append, Memory.readN_append, hcells]
  rcases h with h | h
  · rw [Memory.readN_filter_outside, Memory.readN_filter, Nat.zero_add]
    · exact fun c hb _ => decide_eq_true (h.trans hb)
    · exact fun c hc => .inl ((of_decide_eq_true hc).trans_le (by omega))
  · rw [Memory.readN_filter, Memory.readN_filter_outside, Nat.add_zero]
    · exact fun c hc => .inr ((Nat.le_add_right_of_le h).trans (of_decide_eq_true hc))
    · exact fun c _ hc => decide_eq_true (hc.trans_le h)

theorem Memory.read_rewrites_of_outside (l : List Rewrite) (m : Memory) (a : Nat) (h : ∀ e ∈ l, a < e.addr ∨ e.addr + e.len ≤ a) :
    Memory.read (l.foldl Memory.rewrite m) a = Memory.read m a := by
  induction l generalizing m with
  | nil => rfl
  | cons e r ih =>
    rw [List.foldl_cons, ih _ fun f hf => h f (List.mem_cons_of_mem e hf)]
    exact Memory.read_writeN_of_not_mem _ _ _ _ _ (h e List.mem_cons_self)

theorem Memory.readN_rewrites_of_apart (l : List Rewrite) (m : Memory) (e : Rewrite) (h : ∀ f ∈ l, e.Apart f) :
    Memory.readN (l.foldl Memory.rewrite m) e.addr e.len = Memory.readN m e.addr e.len := by
  induction l generalizing m with
  | nil => rfl
  | cons f r ih =>
    rw [List.foldl_cons, ih _ fun g hg => h g (List.mem_cons_of_mem f hg)]
    exact Memory.readN_writeN_of_apart _ _ _ _ _ _ (h f List.mem_cons_self).symm

/-- Words that lie apart each take the new value of what they were at first. -/
theorem Memory.readN_rewrites_of_mem (l : List Rewrite) (m : Memory) (h : l.Pairwise Rewrite.Apart) {e : Rewrite} (he : e ∈ l) :
    Memory.readN (l.foldl Memory.rewrite m) e.addr e.len = e.new (Memory.readN m e.addr e.len) % 2 ^ (8 * e.len) := by
  induction l generalizing m with
  | nil => cases he
  | cons f r ih =>
    obtain ⟨hhead, htail⟩ := List.pairwise_cons.mp h
    rw [List.foldl_cons]
    rcases List.mem_cons.mp he with rfl | he
    · rw [Memory.readN_rewrites_of_apart r _ e hhead]
      exact Memory.readN_writeN ..
    · rw [ih _ htail he, Memory.rewrite, Memory.readN_writeN_of_apart _ _ _ _ _ _ (hhead e he)]

end Sys2Proof.Machine
end

section
/-! PROOFS. Steps over the dies and over the cores, and the swap of the regions of a group (R109, R262). -/

open Sys2Proof Sys2Proof.Machine

namespace Sys2Proof.Machine

/-! ## Steps over the dies -/

/-- t is s but for its dies. -/
def State.SameButDies (s t : State) : Prop := t = { s with dies := t.dies }

theorem State.SameButDies.trans {s t u : State} (h : s.SameButDies t) (k : t.SameButDies u) : s.SameButDies u := by
  unfold State.SameButDies at *
  rw [k, h]

/-- t is s with die d changed by f, and nothing else. -/
structure State.DieStep (s t : State) (d : Nat) (f : Die → Die) : Prop where
  rest : s.SameButDies t
  self : t.die d = f (s.die d)
  others : ∀ e, e ≠ d → t.die e = s.die e

theorem State.updDie_dieStep (s : State) {d : Nat} (hd : d < 4) (f : Die → Die) : s.DieStep (s.updDie d f) d f :=
  ⟨rfl, s.die_setDie_self d _ hd, fun e he => s.die_setDie_of_ne d e _ he⟩

theorem State.DieStep.foldl {α : Type} {d : Nat} {step : State → α → State} {f : α → Die → Die}
    (h : ∀ (s : State) (a : α), s.DieStep (step s a) d (f a)) (l : List α) (s : State) :
    s.DieStep (l.foldl step s) d (fun x => l.foldl (fun x a => f a x) x) := by
  induction l generalizing s with
  | nil => exact ⟨rfl, rfl, fun _ _ => rfl⟩
  | cons a r ih =>
    have h1 := h s a
    have h2 := ih (step s a)
    exact ⟨h1.rest.trans h2.rest, h2.self.trans (by rw [h1.self]; rfl), fun e he => (h2.others e he).trans (h1.others e he)⟩

/-- t is s with each die of a list changed by f, which looks at nothing of the other dies. -/
structure State.DieSteps (s t : State) (ds : List Nat) (f : Nat → Die → Die) : Prop where
  rest : s.SameButDies t
  self : ∀ d ∈ ds, t.die d = f d (s.die d)
  others : ∀ e, e ∉ ds → t.die e = s.die e

theorem State.DieSteps.foldl {step : State → Nat → State} {f : State → Nat → Die → Die} {ds : List Nat} (hnd : ds.Nodup)
    (h : ∀ s : State, ∀ d ∈ ds, s.DieStep (step s d) d (f s d))
    (hf : ∀ (s t : State) (d : Nat), s.SameButDies t → t.die d = s.die d → f t d = f s d) (s : State) :
    s.DieSteps (ds.foldl step s) ds (f s) := by
  induction ds generalizing s with
  | nil => exact ⟨rfl, fun d hd => absurd hd List.not_mem_nil, fun _ _ => rfl⟩
  | cons b r ih =>
    obtain ⟨hb, hr⟩ := List.nodup_cons.mp hnd
    have h1 := h s b List.mem_cons_self
    have h2 := ih hr (fun s d hd => h s d (List.mem_cons_of_mem b hd)) (step s b)
    refine ⟨h1.rest.trans h2.rest, fun d hd => ?_, fun e he => ?_⟩
    · rw [List.foldl_cons]
      rcases List.mem_cons.mp hd with rfl | hd
      · rw [h2.others d hb, h1.self]
      · have hne := h1.others d fun e => hb (e ▸ hd)
        rw [h2.self d hd, hf s _ d h1.rest hne, hne]
    · rw [List.mem_cons, not_or] at he
      rw [List.foldl_cons, h2.others e he.2, h1.others e he.1]

/-! ## The swap (R262) -/

/-- The words that a region's swap rewrites. -/
def Region.rewrites (st : List (Nat × CStore)) (r : Region) : List Rewrite :=
  (r.words st).map (fun w => ⟨w, r.word, fun p => r.resolve p (storedValues st p w r.word)⟩)

theorem Die.foldl_commons {α : Type} (f : Memory → α → Memory) (l : List α) (x : Die) :
    l.foldl (fun x a => { x with commons := f x.commons a }) x = { x with commons := l.foldl f x.commons } := by
  induction l generalizing x with
  | nil => rfl
  | cons a r ih => exact ih _

theorem State.swapRegion_dieStep (s : State) {d : Nat} (hd : d < 4) (st : List (Nat × CStore)) (r : Region) :
    s.DieStep (s.swapRegion d st r) d (fun x => { x with commons := (r.rewrites st).foldl Memory.rewrite x.commons }) := by
  obtain ⟨hrest, hself, hothers⟩ := State.DieStep.foldl (d := d) (fun s w => State.updDie_dieStep s hd (fun x => { x with
    commons := Memory.rewrite x.commons ⟨w, r.word, fun p => r.resolve p (storedValues st p w r.word)⟩ })) (r.words st) s
  refine ⟨hrest, hself.trans ?_, hothers⟩
  rw [Region.rewrites, List.foldl_map]
  exact Die.foldl_commons (fun m w => Memory.rewrite m ⟨w, r.word, fun p => r.resolve p (storedValues st p w r.word)⟩) _ _

/-- A die whose commons have swapped the regions rs with the stores st. -/
def Die.swapped (st : List (Nat × CStore)) (rs : List Region) (x : Die) : Die :=
  { x with commons := (rs.flatMap (fun r => r.rewrites st)).foldl Memory.rewrite x.commons }

theorem State.swapRegions_dieStep (s : State) {d : Nat} (hd : d < 4) (st : List (Nat × CStore)) (rs : List Region) :
    s.DieStep (rs.foldl (fun s r => s.swapRegion d st r) s) d (Die.swapped st rs) := by
  obtain ⟨hrest, hself, hothers⟩ := State.DieStep.foldl (fun s r => State.swapRegion_dieStep s hd st r) rs s
  refine ⟨hrest, hself.trans ?_, hothers⟩
  rw [Die.swapped, List.foldl_flatMap]
  exact Die.foldl_commons (fun m (r : Region) => (r.rewrites st).foldl Memory.rewrite m) _ _

/-- The swap of the regions of a group on die d. -/
def State.swapDie (s : State) (l g : Nat) (members : List Nat) (d : Nat) : State :=
  (s.groupRegions d l g).foldl (fun (t : State) r => t.swapRegion d (s.storesOf d l g members) r) s

/-- A die without the stores of a group. -/
def Die.cleared (l g : Nat) (x : Die) : Die := { x with stores := x.stores.filter (fun y => !(y.launch == l && y.group == g)) }

theorem State.swap_eq (s : State) (l g : Nat) (members : List Nat) :
    s.swap l g members = [0, 1, 2, 3].foldl (fun t d => t.updDie d (Die.cleared l g)) ([0, 1, 2, 3].foldl (fun t d => t.swapDie l g members d) s) := rfl

/-- The swap of a group leaves each die with its regions swapped and the group's stores gone. -/
theorem State.swap_spec (s : State) (l g : Nat) (members : List Nat) : s.SameButDies (s.swap l g members) ∧
    ∀ d, d < 4 → (s.swap l g members).die d = ((s.die d).swapped (s.storesOf d l g members) (s.groupRegions d l g)).cleared l g := by
  have hlt : ∀ d ∈ [0, 1, 2, 3], d < 4 := by decide
  have hswap := State.DieSteps.foldl (f := fun (s : State) d => Die.swapped (s.storesOf d l g members) (s.groupRegions d l g)) (by decide)
    (fun s d hd => s.swapRegions_dieStep (hlt d hd) _ _)
    (fun s t d hrest hdie => by
      have hcore : ∀ n, t.core n = s.core n := fun n => by rw [show t = _ from hrest]; rfl
      simp only [State.storesOf, State.groupRegions, hdie, hcore]) s
  have hclear := State.DieSteps.foldl (f := fun _ _ => Die.cleared l g) (by decide) (fun s d hd => s.updDie_dieStep (hlt d hd) _)
    (fun _ _ _ _ _ => rfl) ([0, 1, 2, 3].foldl (fun t d => t.swapDie l g members d) s)
  refine ⟨hswap.rest.trans hclear.rest, fun d hd => ?_⟩
  have hmem : d ∈ [0, 1, 2, 3] := by simp; omega
  rw [State.swap_eq, hclear.self d hmem]
  exact congrArg _ (hswap.self d hmem)

/-! ## The words of a region -/

theorem Region.word_dvd (r : Region) : r.word ∣ 4096 := by
  unfold Region.word
  split <;> decide

theorem Region.word_pos (r : Region) : 0 < r.word := Nat.pos_of_dvd_of_pos r.word_dvd (by decide)

/-- A word of a region is a multiple of its width, and lies in its pages. -/
theorem Region.mem_words {r : Region} {st : List (Nat × CStore)} {w : Nat} (h : w ∈ r.words st) :
    r.word ∣ w ∧ 4096 * r.base ≤ w ∧ w + r.word ≤ 4096 * (r.base + r.count) := by
  have hw := (distinct_spec _).2 w ((sortBy_perm _ _).mem_iff.mp h)
  obtain ⟨x, -, hx⟩ := List.mem_flatMap.mp hw
  obtain ⟨b, hb, rfl⟩ := List.mem_map.mp hx
  have hcov : r.covers b.1 = true := (Bool.and_eq_true_iff.mp (List.mem_filter.mp hb).2).1
  obtain ⟨hlo, hhi⟩ := Bool.and_eq_true_iff.mp hcov
  have hlo := of_decide_eq_true hlo
  have hhi := of_decide_eq_true hhi
  obtain ⟨q, hq⟩ := r.word_dvd
  have hpos := r.word_pos
  have hpage : ∀ k, 4096 * k = q * k * r.word := fun k => by rw [hq]; ring
  rw [hpage] at hlo hhi ⊢
  rw [hpage]
  refine ⟨Nat.dvd_mul_left _ _, Nat.mul_le_mul_right _ ((Nat.le_div_iff_mul_le hpos).mpr hlo), ?_⟩
  rw [← Nat.succ_mul]
  exact Nat.mul_le_mul_right _ ((Nat.div_lt_iff_lt_mul hpos).mpr hhi)

theorem Region.words_nodup (r : Region) (st : List (Nat × CStore)) : (r.words st).Nodup :=
  (sortBy_perm _ _).nodup_iff.mpr (distinct_spec _).1

/-- Distinct multiples of a width lie that far apart. -/
theorem apart_of_dvd {k a b : Nat} (ha : k ∣ a) (hb : k ∣ b) (hne : a ≠ b) : a + k ≤ b ∨ b + k ≤ a := by
  obtain ⟨x, rfl⟩ := ha
  obtain ⟨y, rfl⟩ := hb
  rcases Nat.lt_or_gt_of_ne (fun h : x = y => hne (by rw [h])) with h | h
  · exact .inl (by rw [← Nat.mul_succ]; exact Nat.mul_le_mul_left k h)
  · exact .inr (by rw [← Nat.mul_succ]; exact Nat.mul_le_mul_left k h)

/-- The pages of two regions lie apart. -/
def Region.Apart (r q : Region) : Prop := r.base + r.count ≤ q.base ∨ q.base + q.count ≤ r.base

section Swapped

variable {rs : List Region} (st : List (Nat × CStore)) (hrs : rs.Pairwise Region.Apart) (m : Memory)

include hrs in
theorem Region.rewrites_apart : (rs.flatMap (fun r => r.rewrites st)).Pairwise Rewrite.Apart := by
  refine List.pairwise_flatMap.mpr ⟨fun r _ => ?_, hrs.imp fun {r q} hrq e he f hf => ?_⟩
  · refine List.pairwise_map.mpr ((r.words_nodup st).imp_of_mem fun {a b} ha hb hne => ?_)
    exact apart_of_dvd (Region.mem_words ha).1 (Region.mem_words hb).1 hne
  · obtain ⟨a, ha, rfl⟩ := List.mem_map.mp he
    obtain ⟨b, hb, rfl⟩ := List.mem_map.mp hf
    obtain ⟨-, halo, hahi⟩ := Region.mem_words ha
    obtain ⟨-, hblo, hbhi⟩ := Region.mem_words hb
    rcases hrq with h | h
    · exact .inl (by simp only; omega)
    · exact .inr (by simp only; omega)

include hrs in
/-- Each written word takes its next-plane value (R109, R262). -/
theorem Region.readN_swapped {r : Region} (hr : r ∈ rs) {w : Nat} (hw : w ∈ r.words st) :
    Memory.readN ((rs.flatMap (fun r => r.rewrites st)).foldl Memory.rewrite m) w r.word =
      r.resolve (m.readN w r.word) (storedValues st (m.readN w r.word) w r.word) % 2 ^ (8 * r.word) :=
  Memory.readN_rewrites_of_mem _ m (Region.rewrites_apart st hrs) (e := ⟨w, r.word, fun p => r.resolve p (storedValues st p w r.word)⟩)
    (List.mem_flatMap.mpr ⟨r, hr, List.mem_map.mpr ⟨w, hw, rfl⟩⟩)

/-- A byte of no written word stays. -/
theorem Region.read_swapped_of_outside {a : Nat} (h : ∀ r ∈ rs, a / r.word * r.word ∉ r.words st) :
    Memory.read ((rs.flatMap (fun r => r.rewrites st)).foldl Memory.rewrite m) a = Memory.read m a := by
  refine Memory.read_rewrites_of_outside _ m a fun e he => ?_
  obtain ⟨r, hr, he⟩ := List.mem_flatMap.mp he
  obtain ⟨w, hw, rfl⟩ := List.mem_map.mp he
  obtain ⟨k, rfl⟩ := (Region.mem_words hw).1
  by_contra hin
  simp only [not_or, Nat.not_lt, Nat.not_le] at hin
  refine h r hr ?_
  rwa [Nat.div_eq_of_lt_le (by rw [Nat.mul_comm]; exact hin.1) (by rw [Nat.succ_mul, Nat.mul_comm]; exact hin.2), Nat.mul_comm]

end Swapped

/-! ## Steps over the cores -/

/-- t is s but for its cores and the choices drawn. -/
def State.SameButCores (s t : State) : Prop := t = { s with cores := t.cores, delays := t.delays, drawn := t.drawn }

theorem State.SameButCores.trans {s t u : State} (h : s.SameButCores t) (k : t.SameButCores u) : s.SameButCores u := by
  unfold State.SameButCores at *
  rw [k, h]

/-- The step changes core n alone, as R says. -/
structure State.CoreStep (s t : State) (n : Nat) (R : Core → Core → Prop) : Prop where
  rest : s.SameButCores t
  others : ∀ m, m ≠ n → t.core m = s.core m
  self : R (s.core n) (t.core n)

/-- The steps change the cores of a list alone, each as R says. -/
structure State.CoreSteps (s t : State) (ns : List Nat) (R : Core → Core → Prop) : Prop where
  rest : s.SameButCores t
  others : ∀ m, m ∉ ns → t.core m = s.core m
  self : ∀ n ∈ ns, R (s.core n) (t.core n)

theorem State.CoreSteps.foldl {s : State} {step : State → Nat → State} {R : Core → Core → Prop} {ns : List Nat} (hnd : ns.Nodup)
    (h : ∀ t n, s.SameButCores t → t.CoreStep (step t n) n R) : s.CoreSteps (ns.foldl step s) ns R := by
  induction ns generalizing s with
  | nil => exact ⟨rfl, fun _ _ => rfl, fun n hn => absurd hn List.not_mem_nil⟩
  | cons b r ih =>
    obtain ⟨hb, hr⟩ := List.nodup_cons.mp hnd
    have h1 := h s b rfl
    have h2 := ih hr (s := step s b) fun t n ht => h t n (h1.rest.trans ht)
    refine ⟨h1.rest.trans h2.rest, fun m hm => ?_, fun n hn => ?_⟩
    · rw [List.mem_cons, not_or] at hm
      exact (h2.others m hm.2).trans (h1.others m hm.1)
    · rcases List.mem_cons.mp hn with rfl | hn
      · have h3 := h1.self
        rwa [← h2.others n hb] at h3
      · have h3 := h2.self n hn
        rwa [h1.others n fun e => hb (e ▸ hn)] at h3

/-- One update of every core of a list. -/
theorem State.foldl_updCore {s : State} {F : State → Nat → Core → Core} {f : Core → Core} {ns : List Nat} (hnd : ns.Nodup)
    (hF : ∀ t n, s.SameButCores t → F t n = f) :
    s.CoreSteps (ns.foldl (fun t n => t.updCore n (F t n)) s) ns (fun c d => d = f c) :=
  State.CoreSteps.foldl hnd fun t n ht => ⟨rfl, fun m hm => t.core_updCore_of_ne _ _ _ hm, by rw [State.core_updCore_self, hF t n ht]⟩

end Sys2Proof.Machine
end

section
/-! PROOFS. The release of a group: its members' performs, its swap, the joined view, lockets and wakes (R124, R244, R245, R262, R320). -/

open Sys2Proof Sys2Proof.Machine

namespace Sys2Proof.Machine

/-! ## What states that differ in a part share -/

section SameButCores

variable {s t : State} (h : s.SameButCores t)
include h

theorem State.SameButCores.now : t.now = s.now := by rw [show t = _ from h]

theorem State.SameButCores.releases : t.releases = s.releases := by rw [show t = _ from h]

theorem State.SameButCores.mem : t.mem = s.mem := by rw [show t = _ from h]

theorem State.SameButCores.die (d : Nat) : t.die d = s.die d := by
  rw [show t = _ from h]
  rfl

theorem State.SameButCores.launch? (l : Nat) : t.launch? l = s.launch? l := by
  rw [show t = _ from h]
  rfl

end SameButCores

section SameButDies

variable {s t : State} (h : s.SameButDies t)
include h

theorem State.SameButDies.now : t.now = s.now := by rw [show t = _ from h]

theorem State.SameButDies.releases : t.releases = s.releases := by rw [show t = _ from h]

theorem State.SameButDies.mem : t.mem = s.mem := by rw [show t = _ from h]

theorem State.SameButDies.core (n : Nat) : t.core n = s.core n := by
  rw [show t = _ from h]
  rfl

theorem State.SameButDies.launch? (l : Nat) : t.launch? l = s.launch? l := by
  rw [show t = _ from h]
  rfl

end SameButDies

/-- t is s but for what performs change. -/
def State.SameButPerforms (s t : State) : Prop :=
  t = { s with cores := t.cores, delays := t.delays, drawn := t.drawn, mem := t.mem, writes := t.writes, log := t.log }

theorem State.SameButPerforms.trans {s t u : State} (h : s.SameButPerforms t) (k : t.SameButPerforms u) : s.SameButPerforms u := by
  unfold State.SameButPerforms at *
  rw [k, h]

section SameButPerforms

variable {s t : State} (h : s.SameButPerforms t)
include h

theorem State.SameButPerforms.now : t.now = s.now := by rw [show t = _ from h]

theorem State.SameButPerforms.releases : t.releases = s.releases := by rw [show t = _ from h]

theorem State.SameButPerforms.die (d : Nat) : t.die d = s.die d := by
  rw [show t = _ from h]
  rfl

theorem State.SameButPerforms.launch? (l : Nat) : t.launch? l = s.launch? l := by
  rw [show t = _ from h]
  rfl

end SameButPerforms

/-! ## The performs of a group (R244, R245) -/

/-- Core n has no perform under way, and all its queued entries may be performed. -/
def State.MayPerform (s : State) (n : Nat) : Prop :=
  (s.core n).performs = [] ∧ ((s.core n).queue.map (fun e => e.seq)).Nodup ∧ ∀ e ∈ (s.core n).queue, s.Performable n e

/-- A core after the performs of its whole queue. -/
def Core.Emptied (c d : Core) : Prop := ∃ ls v, d = { c with queue := [], performs := [], loads := ls, view := v } ∧ c.view.le v

theorem State.perform_all {s : State} {n : Nat} (h : s.MayPerform n) :
    s.PerformsAll (s.perform n (s.core n).unasked []) n (s.core n).queue ∧
      (s.core n).Emptied ((s.perform n (s.core n).unasked []).core n) := by
  obtain ⟨hperf, hnd, hready⟩ := h
  have hun : ∀ e, (s.core n).unasked e = true := fun e => by rw [Core.unasked, hperf]; rfl
  obtain ⟨hall, hqueue⟩ := State.perform_spec (p := (s.core n).unasked) hperf hnd fun e he _ => hready e he
  rw [List.filter_eq_self.mpr fun e _ => hun e] at hall
  rw [List.filter_eq_nil_iff.mpr fun e _ => by simp [hun e]] at hqueue
  refine ⟨hall, ?_⟩
  have hforward := hall.performed.forward
  have hperformed := hall.performs
  obtain ⟨q, p, ls, v, hc⟩ := hall.performed.core
  rw [hc] at hqueue hperformed hforward ⊢
  exact ⟨ls, v, by rw [← show q = [] from hqueue, ← show p = [] from hperformed], hforward⟩

/-- t is s after the members ms have performed their queues, one after another. -/
structure State.GroupPerformed (s t : State) (ms : List Nat) : Prop where
  rest : s.SameButPerforms t
  others : ∀ n, n ∉ ms → t.core n = s.core n
  self : ∀ m ∈ ms, (s.core m).Emptied (t.core m)
  mem : t.mem = s.mem.writeCells (ms.flatMap (fun m => (s.core m).queue.flatMap Entry.placed))
  beyond : ∀ m ∈ ms, ∀ e ∈ (s.core m).queue, t.Beyond m s.writes e

theorem State.Performed.mayPerform {s t : State} {n m : Nat} (h : s.Performed t n) (hne : m ≠ n) (hm : s.MayPerform m) : t.MayPerform m := by
  unfold State.MayPerform
  rw [h.others m hne]
  exact ⟨hm.1, hm.2.1, fun e he => h.performable (hm.2.2 e he)⟩

theorem State.performMembers {s : State} {ms : List Nat} (hnd : ms.Nodup) (h : ∀ m ∈ ms, s.MayPerform m) :
    s.GroupPerformed (ms.foldl (fun (s : State) n => s.perform n (s.core n).unasked []) s) ms := by
  induction ms generalizing s with
  | nil => exact ⟨rfl, fun _ _ => rfl, fun m hm => absurd hm List.not_mem_nil, rfl, fun m hm => absurd hm List.not_mem_nil⟩
  | cons b r ih =>
    obtain ⟨hb, hr⟩ := List.nodup_cons.mp hnd
    have hne : ∀ k ∈ r, k ≠ b := fun k hk e => hb (e ▸ hk)
    obtain ⟨hall, hempty⟩ := State.perform_all (h b List.mem_cons_self)
    rw [List.foldl_cons]
    generalize s.perform b (s.core b).unasked [] = u at hall hempty
    have hu := ih hr fun k hk => hall.performed.mayPerform (hne k hk) (h k (List.mem_cons_of_mem b hk))
    have hsame : ∀ k ∈ r, u.core k = s.core k := fun k hk => hall.performed.others k (hne k hk)
    have hqueues : r.flatMap (fun m => (u.core m).queue.flatMap Entry.placed) = r.flatMap (fun m => (s.core m).queue.flatMap Entry.placed) :=
      List.flatMap_congr fun k hk => by rw [hsame k hk]
    refine ⟨State.SameButPerforms.trans hall.performed.rest hu.rest, fun n hn => ?_, fun m hm => ?_, ?_, fun m hm e he => ?_⟩
    · rw [List.mem_cons, not_or] at hn
      exact (hu.others n hn.2).trans (hall.performed.others n hn.1)
    · rcases List.mem_cons.mp hm with rfl | hm
      · rw [hu.others m hb]
        exact hempty
      · rw [← hsame m hm]
        exact hu.self m hm
    · rw [hu.mem, hall.mem, hqueues, List.flatMap_cons, Memory.writeCells_append]
    · rcases List.mem_cons.mp hm with rfl | hm
      · intro y hy
        rw [hu.others m hb]
        exact hall.beyond e he y hy
      · rw [← hsame m hm] at he
        exact fun y hy => hall.performed.writes.trans_lt (hu.beyond m hm e he y hy)

/-! ## The parts of a release (R245) -/

/-- The joined view of the members of a group. -/
def State.groupView (s : State) (ms : List Nat) : View := ms.foldl (fun (v : View) n => v.join (s.core n).view) View.initial

theorem State.le_groupView (s : State) {ms : List Nat} {k : Nat} (hk : k ∈ ms) : (s.core k).view.le (s.groupView ms) :=
  (View.le_foldl_join (fun n => (s.core n).view) ms View.initial).2 k hk

/-- Each member joins the view of its group. -/
def State.joinViews (s : State) (ms : List Nat) : State :=
  ms.foldl (fun (t : State) n => t.updCore n (fun c => { c with view := c.view.join (s.groupView ms) })) s

theorem State.joinViews_spec (s : State) {ms : List Nat} (hnd : ms.Nodup) :
    s.CoreSteps (s.joinViews ms) ms (fun c d => d = { c with view := c.view.join (s.groupView ms) }) :=
  State.foldl_updCore (F := fun _ _ c => { c with view := c.view.join (s.groupView ms) }) hnd fun _ _ _ => rfl

/-- Each member of a list takes a locket of the present release (R320). -/
def State.takeLockets (s : State) (g : Nat) (ns : List Nat) : State :=
  ns.foldl (fun (t : State) n => t.updCore n (fun c => c.takeLocket g t.releases)) s

theorem State.takeLockets_spec (s : State) (g : Nat) {ns : List Nat} (hnd : ns.Nodup) :
    s.CoreSteps (s.takeLockets g ns) ns (fun c d => d = c.takeLocket g s.releases) :=
  State.foldl_updCore (F := fun t _ c => c.takeLocket g t.releases) hnd fun t _ ht => by rw [ht.releases]

theorem State.draw_sameButCores (s : State) : s.SameButCores s.draw.2 := by
  unfold State.SameButCores
  conv_lhs => rw [s.draw_rest]
  rw [State.draw_cores]

theorem State.wakeMembers_spec (s : State) {ns : List Nat} (hnd : ns.Nodup) :
    s.CoreSteps (s.wakeMembers ns) ns (fun c d => ∃ at0, d = { c with wakeAt := some at0 } ∧ s.now ≤ at0) := by
  refine State.CoreSteps.foldl hnd fun t n ht => ⟨t.draw_sameButCores.trans rfl, fun m hm => ?_, t.now + t.draw.1, ?_, ?_⟩
  · exact (State.core_updCore_of_ne _ _ _ _ hm).trans (t.draw_core m)
  · rw [State.core_updCore_self, State.draw_core, State.draw_now]
  · rw [ht.now]
    exact Nat.le_add_right _ _

/-- The members of a group that have arrived. -/
def arrivedOf (x : Launch) (g : Nat) (members : List Nat) : List Nat := members.filter (fun n => x.arrived.contains (g, n))

/-- The launch whose group g has been released. -/
def Launch.released (x : Launch) (g : Nat) : Launch :=
  { x with arrived := x.arrived.filter (fun e => e.1 != g), relAt := x.relAt.filter (fun e => e.1 != g) }

/-- Taking the arrivals of a group from its launch leaves what its members may perform. -/
theorem State.MayPerform.setLaunch {s : State} {l m g : Nat} {x : Launch} (hl : s.launch? l = some x) (h : s.MayPerform m) :
    (s.setLaunch l (x.released g)).MayPerform m := by
  obtain ⟨hperf, hnd, hready⟩ := h
  have hvf : (s.setLaunch l (x.released g)).vfOf m = s.vfOf m := by
    simp only [State.vfOf, State.launchOf, State.core_setLaunch]
    cases (s.core m).launch with
    | none => rfl
    | some k =>
      by_cases hk : k = l
      · subst hk
        simp only [State.launch?_setLaunch_self, hl, Option.map_some]
        rfl
      · dsimp only
        rw [State.launch?_setLaunch_of_ne _ _ _ _ hk]
  refine ⟨hperf, hnd, fun e he => ?_⟩
  obtain ⟨ht, hnote, hway⟩ := hready e he
  exact ⟨ht, by rw [hvf]; exact hnote, hway⟩

/-- What a release does without a collision. -/
theorem State.release_eq {s : State} {l g : Nat} {x : Launch} {members : List Nat} {p v : State}
    (hc : ∀ d, d < 4 → s.collision d l g members = none)
    (hp : p = members.foldl (fun (s : State) n => s.perform n (s.core n).unasked []) (s.setLaunch l (x.released g)))
    (hv : v = (p.swap l g members).joinViews members) : s.release l g x members =
      (State.takeLockets { v with releases := v.releases + 1 } g (arrivedOf x g members)).wakeMembers (arrivedOf x g members) := by
  have hnone : [0, 1, 2, 3].findSome? (fun d => (s.setLaunch l (x.released g)).collision d l g members) = none :=
    List.findSome?_eq_none_iff.mpr fun d hd => hc d (by revert d; decide)
  unfold State.release
  extract_lets arrived s1 p1 q1 view v1 u1 z
  have hz : z = u1.takeLockets g arrived := by
    simp only [z]
    rw [show [0, 1, 2, 3].findSome? (fun d => s1.collision d l g members) = none from hnone]
    rfl
  rw [hz, hv, hp]
  rfl

/-- The stages p, v and w of a release without a collision that ends in t: the performs; the swap and the joined view; the lockets; the wakes
(R245). -/
structure State.Releases (s t : State) (l g : Nat) (x : Launch) (members : List Nat) (p v w : State) : Prop where
  performs : (s.setLaunch l (x.released g)).GroupPerformed p members
  views : (p.swap l g members).CoreSteps v members (fun c d => d = { c with view := c.view.join ((p.swap l g members).groupView members) })
  lockets : State.CoreSteps { v with releases := v.releases + 1 } w (arrivedOf x g members) (fun c d => d = c.takeLocket g (v.releases + 1))
  wakes : w.CoreSteps t (arrivedOf x g members) (fun c d => ∃ at0, d = { c with wakeAt := some at0 } ∧ w.now ≤ at0)

theorem State.release_releases {s : State} {l g : Nat} {x : Launch} {members : List Nat} (hl : s.launch? l = some x) (hnd : members.Nodup)
    (hp : ∀ m ∈ members, s.MayPerform m) (hc : ∀ d, d < 4 → s.collision d l g members = none) :
    ∃ p v w, s.Releases (s.release l g x members) l g x members p v w := by
  have harr : (arrivedOf x g members).Nodup := hnd.filter _
  refine ⟨_, _, _, State.performMembers hnd fun m hm => (hp m hm).setLaunch hl, State.joinViews_spec _ hnd, State.takeLockets_spec _ g harr, ?_⟩
  rw [State.release_eq hc rfl rfl]
  exact State.wakeMembers_spec _ harr

/-! ## What a release leaves (R124, R245, R320) -/

section Released

variable {s t : State} {l g : Nat} {x : Launch} {members : List Nat} {p v w : State} (h : s.Releases t l g x members p v w)
include h

theorem State.Releases.releases : t.releases = s.releases + 1 := by
  have hv : v.releases = s.releases := by
    rw [h.views.rest.releases, (p.swap_spec l g members).1.releases, h.performs.rest.releases]
    rfl
  rw [h.wakes.rest.releases, h.lockets.rest.releases, hv]

theorem State.Releases.mem : t.mem = s.mem.writeCells (members.flatMap (fun m => (s.core m).queue.flatMap Entry.placed)) := by
  rw [h.wakes.rest.mem, h.lockets.rest.mem]
  exact h.views.rest.mem.trans ((p.swap_spec l g members).1.mem.trans h.performs.mem)

theorem State.Releases.launch? : t.launch? l = some (x.released g) := by
  rw [h.wakes.rest.launch?, h.lockets.rest.launch?]
  refine (h.views.rest.launch? l).trans (((p.swap_spec l g members).1.launch? l).trans ((h.performs.rest.launch? l).trans ?_))
  exact State.launch?_setLaunch_self ..

/-- Each die has swapped, and lost the stores of the group. -/
theorem State.Releases.die {d : Nat} (hd : d < 4) :
    t.die d = ((s.die d).swapped (s.storesOf d l g members) (s.groupRegions d l g)).cleared l g := by
  have hdie : p.die d = s.die d := h.performs.rest.die d
  have hhalt : ∀ n, (p.core n).halting = (s.core n).halting := fun n => by
    by_cases hn : n ∈ members
    · obtain ⟨ls, u, hc, -⟩ := h.performs.self n hn
      rw [hc]
      rfl
    · rw [h.performs.others n hn]
      rfl
  have hstores : p.storesOf d l g members = s.storesOf d l g members := by simp only [State.storesOf, hdie, hhalt]
  have hregions : p.groupRegions d l g = s.groupRegions d l g := by rw [State.groupRegions, State.groupRegions, hdie]
  rw [h.wakes.rest.die, h.lockets.rest.die]
  refine (h.views.rest.die d).trans (((p.swap_spec l g members).2 d hd).trans ?_)
  rw [hdie, hstores, hregions]

/-- A member before its locket: it has performed its queue, and has joined the view of the group. -/
theorem State.Releases.joined {m : Nat} (hm : m ∈ members) :
    ∃ ls u, v.core m = { s.core m with queue := [], performs := [], loads := ls, view := u } ∧
      ∀ k ∈ members, (p.core k).view.le u := by
  obtain ⟨ls, u, hc, -⟩ := h.performs.self m hm
  have hself := h.views.self m hm
  rw [(p.swap_spec l g members).1.core, hc] at hself
  refine ⟨ls, _, hself, fun k hk => View.le_trans ?_ (View.le_join_right _ _)⟩
  have hle := (p.swap l g members).le_groupView hk
  rwa [(p.swap_spec l g members).1.core] at hle

/-- A member that has arrived takes a locket and a time to wake. -/
theorem State.Releases.arrived {m : Nat} (hm : m ∈ arrivedOf x g members) :
    ∃ at0, t.core m = { (v.core m).takeLocket g (s.releases + 1) with wakeAt := some at0 } ∧ s.now ≤ at0 := by
  have hnow : w.now = s.now := by
    rw [h.lockets.rest.now]
    refine h.views.rest.now.trans (((p.swap_spec l g members).1.now).trans (h.performs.rest.now.trans rfl))
  have hrel : v.releases + 1 = s.releases + 1 := by
    rw [← h.releases, h.wakes.rest.releases, h.lockets.rest.releases]
  obtain ⟨at0, hc, hat⟩ := h.wakes.self m hm
  rw [h.lockets.self m hm, hrel] at hc
  exact ⟨at0, hc, hnow.symm.trans_le hat⟩

/-- Every member, arrived or not: its queue is empty, and its view stands with the group's. -/
theorem State.Releases.member {m : Nat} (hm : m ∈ members) :
    (t.core m).queue = [] ∧ (t.core m).performs = [] ∧ ∀ k ∈ members, (p.core k).view.le (t.core m).view := by
  obtain ⟨ls, u, hv, hle⟩ := h.joined hm
  by_cases harr : m ∈ arrivedOf x g members
  · obtain ⟨at0, hc, -⟩ := h.arrived harr
    rw [hc, hv]
    exact ⟨rfl, rfl, hle⟩
  · rw [h.wakes.others m harr, h.lockets.others m harr]
    show (v.core m).queue = [] ∧ (v.core m).performs = [] ∧ ∀ k ∈ members, (p.core k).view.le (v.core m).view
    rw [hv]
    exact ⟨rfl, rfl, hle⟩

/-- The view of each member stands at or after that of each before the release, and after the write of each byte performed (R245). -/
theorem State.Releases.view {m : Nat} (hm : m ∈ members) :
    (∀ k ∈ members, (s.core k).view.le (t.core m).view) ∧ ∀ k ∈ members, ∀ e ∈ (s.core k).queue, t.Beyond m s.writes e := by
  obtain ⟨-, -, hle⟩ := h.member hm
  refine ⟨fun k hk => ?_, fun k hk e he y hy => ?_⟩
  · obtain ⟨ls, u, hc, hforward⟩ := h.performs.self k hk
    refine View.le_trans ?_ (hle k hk)
    rw [hc]
    exact hforward
  · exact (h.performs.beyond k hk e he y hy).trans_le (hle k hk _)

end Released

theorem exec_release_eq {s : State} {l g at0 : Nat} {x : Launch} (hl : s.launch? l = some x) (hdue : (g, at0) ∈ x.relAt) (hnow : at0 ≤ s.now)
    (harr : s.allArrived x g (s.members x g) = true) (hp : ∀ m ∈ s.members x g, s.MayPerform m) :
    exec (.release l g) s = .next (s.release l g x (s.members x g)) := by
  show execRelease l g s = _
  have hany : x.relAt.any (fun e => e.1 == g && decide (e.2 ≤ s.now)) = true := List.any_eq_true.mpr ⟨_, hdue, by simp [hnow]⟩
  have hall : (s.members x g).all (fun n => (s.core n).queue.all (fun e => e.trans.ready && s.wayState n e.trans != .exhausted) &&
      (s.core n).performs.isEmpty) = true := by
    refine List.all_eq_true.mpr fun m hm => ?_
    obtain ⟨hperf, -, hready⟩ := hp m hm
    refine Bool.and_eq_true_iff.mpr ⟨List.all_eq_true.mpr fun e he => ?_, by rw [hperf]; rfl⟩
    rw [(hready e he).1, (hready e he).wayState]
    rfl
  unfold execRelease
  simp only [hl, hany, harr, hall, Bool.and_self, if_true]

/-- Settles O49: the end of a wait by its two events, and a release stage by stage. -/
theorem waitsEndAndGroupsRelease : Obligations.WaitsEndAndGroupsRelease := by
  intro s n c wakes
  refine ⟨fun k at0 hrun hwait hat hnow hmark => ?_, fun a phase hrun hwait hphase hmark => ?_, ?_⟩
  · obtain ⟨t, ht, h⟩ := exec_wake_wakes hrun hwait hat hnow hmark
    exact ⟨t, ht, h.wait, h.wakeAt, h.run.trans hrun, h.view, h.pc, h.loops, h.registers, h.buffers, h.memory⟩
  · obtain ⟨t, ht, h⟩ := exec_txwake_wakes hrun hwait hphase hmark
    exact ⟨t, ht, h.wait, h.wakeAt, h.run.trans hrun, h.view, h.pc, h.loops, h.registers, h.buffers, h.memory⟩
  · intro l g x members hl hdue harr hnd hp hc
    obtain ⟨at0, hdue, hnow⟩ := hdue
    obtain ⟨p, v, w, h⟩ := State.release_releases hl hnd hp hc
    refine ⟨_, exec_release_eq hl hdue hnow harr hp, h.releases, h.mem, h.launch?, fun m hm => ?_, fun m hm hma => ?_, fun d hd => ?_⟩
    · obtain ⟨hqueue, hperf, -⟩ := h.member hm
      obtain ⟨hview, hbeyond⟩ := h.view hm
      exact ⟨hqueue, hperf, hview, hbeyond⟩
    · obtain ⟨ls, u, hv, -⟩ := h.joined hm
      obtain ⟨at1, ht, hat⟩ := h.arrived (List.mem_filter.mpr ⟨hm, by simpa using hma⟩)
      rw [ht, hv]
      exact ⟨rfl, rfl, rfl, by simp [Core.SameRegisters, Core.takeLocket], ⟨rfl, rfl, rfl⟩, ⟨at1, rfl, hat⟩, _, rfl, rfl, rfl, rfl, rfl, rfl, rfl, rfl⟩
    · intro st regions
      rw [h.die hd]
      refine ⟨fun y hy ⟨hyl, hyg⟩ => ?_, fun hrs => ⟨fun r hr w hw => Region.readN_swapped st hrs _ hr hw, fun a ha => ?_⟩⟩
      · have := List.of_mem_filter hy
        simp [hyl, hyg] at this
      · exact Region.read_swapped_of_outside st _ ha

end Sys2Proof.Machine
end

section
/-! PROOFS. The values of the scalar instructions, as the arithmetic of R142 to R154 names them. -/

open Sys2Proof Sys2Proof.Machine

namespace Sys2Proof.Machine

/-! ## Sums, products and shifts -/

theorem word_eq_ofNat {v : Word} {k : Nat} (h : v.toNat = k % 2 ^ 64) : v = BitVec.ofNat 64 k :=
  BitVec.eq_of_toNat_eq (by rw [h, BitVec.toNat_ofNat])

theorem word_sub_eq_ofInt (x y : Word) : x - y = BitVec.ofInt 64 ((x.toNat : Int) - y.toNat) := by
  refine BitVec.eq_of_toNat_eq ?_
  rw [BitVec.toNat_sub, BitVec.toNat_ofInt]
  have hx := x.isLt
  have hy := y.isLt
  omega

theorem word_mul_eq_ofNat (x y : Word) : x * y = BitVec.ofNat 64 (x.toNat * y.toNat) := word_eq_ofNat (BitVec.toNat_mul x y)

theorem word_add_signExtend (x : Word) (imm : BitVec 32) : x + imm.signExtend 64 = BitVec.ofInt 64 (x.toNat + imm.toInt) := by
  rw [BitVec.ofInt_add, BitVec.ofInt_natCast, BitVec.ofNat_toNat, BitVec.setWidth_eq]
  rfl

theorem word_shiftLeft_eq_ofNat (x : Word) (n : Nat) : x <<< n = BitVec.ofNat 64 (x.toNat * 2 ^ n) :=
  word_eq_ofNat (by rw [BitVec.toNat_shiftLeft, Nat.shiftLeft_eq])

theorem zeroExtend_shiftLeft_eq_ofNat (imm : BitVec 48) (n : Nat) : imm.zeroExtend 64 <<< n = BitVec.ofNat 64 (imm.toNat * 2 ^ n) := by
  rw [word_shiftLeft_eq_ofNat, BitVec.toNat_setWidth_of_le (by decide)]

theorem word_ushiftRight_eq_ofNat (x : Word) (n : Nat) : x >>> n = BitVec.ofNat 64 (x.toNat / 2 ^ n) := by
  refine word_eq_ofNat ?_
  rw [BitVec.toNat_ushiftRight, Nat.shiftRight_eq_div_pow, Nat.mod_eq_of_lt ((Nat.div_le_self ..).trans_lt x.isLt)]

theorem word_sshiftRight_eq_ofInt (x : Word) (n : Nat) : x.sshiftRight n = BitVec.ofInt 64 (x.toInt / (2 ^ n : Nat)) := by
  rw [BitVec.sshiftRight_eq, Int.shiftRight_eq_div_pow]

theorem word_add_shiftLeft_eq_ofNat (x y : Word) (n : Nat) : x + y <<< n = BitVec.ofNat 64 (x.toNat + y.toNat * 2 ^ n) := by
  rw [word_shiftLeft_eq_ofNat, BitVec.ofNat_add, BitVec.ofNat_toNat, BitVec.setWidth_eq]

/-- The high half of a product of 128 bits is its quotient by 2^64 (R142). -/
theorem extractLsb'_high_ofInt (z : Int) : (BitVec.ofInt 128 z).extractLsb' 64 64 = BitVec.ofInt 64 (z / (2 ^ 64 : Nat)) := by
  refine BitVec.eq_of_toNat_eq ?_
  rw [BitVec.extractLsb'_toNat, BitVec.toNat_ofInt, BitVec.toNat_ofInt, Nat.shiftRight_eq_div_pow]
  omega

theorem mulHigh_eq (x y : Word) : mulHigh x y = (x.signExtend 128 * y.signExtend 128).extractLsb' 64 64 := by
  have h : x.signExtend 128 * y.signExtend 128 = BitVec.ofInt 128 (x.toInt * y.toInt) := (BitVec.ofInt_mul ..).symm
  rw [h, extractLsb'_high_ofInt, mulHigh]

theorem mulHighU_eq (x y : Word) : mulHighU x y = (x.zeroExtend 128 * y.zeroExtend 128).extractLsb' 64 64 := by
  have h : x.zeroExtend 128 * y.zeroExtend 128 = BitVec.ofInt 128 ((x.toNat * y.toNat : Nat) : Int) := by
    rw [BitVec.ofInt_natCast, BitVec.ofNat_mul, BitVec.ofNat_toNat, BitVec.ofNat_toNat]
  rw [h, extractLsb'_high_ofInt, ← Int.natCast_ediv, BitVec.ofInt_natCast, mulHighU]

/-! ## The selected operand (R144) -/

theorem minS_eq (x y : Word) : minS x y = if x.toInt ≤ y.toInt then x else y := by
  simp only [minS, BitVec.slt_iff_toInt_lt, ← Int.not_le, ite_not]

theorem minU_eq (x y : Word) : minU x y = if x.toNat ≤ y.toNat then x else y := by
  simp only [minU, BitVec.ult_iff_toNat_lt, ← Nat.not_le, ite_not]

/-- Equal operands are one pattern, so that it does not matter which of them is selected. -/
theorem ite_lt_eq_ite_le {α : Type} [LinearOrder α] {a b : α} {x y : Word} (heq : a = b → x = y) :
    (if a < b then y else x) = if a ≤ b then y else x := by
  obtain h | h | h := lt_trichotomy a b
  · rw [if_pos h, if_pos h.le]
  · rw [heq h, ite_self, ite_self]
  · rw [if_neg h.not_gt, if_neg h.not_ge]

theorem maxS_eq (x y : Word) : maxS x y = if x.toInt ≤ y.toInt then y else x := by
  simp only [maxS, BitVec.slt_iff_toInt_lt]
  exact ite_lt_eq_ite_le BitVec.toInt_inj.mp

theorem maxU_eq (x y : Word) : maxU x y = if x.toNat ≤ y.toNat then y else x := by
  simp only [maxU, BitVec.ult_iff_toNat_lt]
  exact ite_lt_eq_ite_le BitVec.eq_of_toNat_eq

/-! ## Quotient and remainder (R143) -/

theorem toInt_ne_zero_of_ne {y : Word} (h : y ≠ 0) : y.toInt ≠ 0 := fun e => h (BitVec.toInt_inj.mp (by simpa using e))

theorem divS_of_ne {y : Word} (x : Word) (h : y ≠ 0) : divS x y = BitVec.ofInt 64 (x.toInt.tdiv y.toInt) := if_neg h
theorem remS_of_ne {y : Word} (x : Word) (h : y ≠ 0) : remS x y = BitVec.ofInt 64 (x.toInt.tmod y.toInt) := if_neg h
theorem divU_of_ne {y : Word} (x : Word) (h : y ≠ 0) : divU x y = BitVec.ofNat 64 (x.toNat / y.toNat) := if_neg h
theorem remU_of_ne {y : Word} (x : Word) (h : y ≠ 0) : remU x y = BitVec.ofNat 64 (x.toNat % y.toNat) := if_neg h

/-- The quotient of -2^63 by -1 is 2^63, which wraps to the dividend. -/
theorem divS_of_neg_one {x y : Word} (hx : x.toInt = -(2 ^ 63 : Nat)) (hy : y.toInt = -1) : divS x y = x := by
  have hy0 : y ≠ 0 := by rintro rfl; simp at hy
  have h63 : BitVec.ofInt 64 (2 ^ 63) = BitVec.ofInt 64 (-(2 ^ 63 : Nat)) := by decide
  rw [divS_of_ne x hy0, hx, hy, ← BitVec.ofInt_toInt (x := x), hx, ← h63]
  rfl

theorem remS_of_neg_one {y : Word} (x : Word) (hy : y.toInt = -1) : remS x y = 0 := by
  have hy0 : y ≠ 0 := by rintro rfl; simp at hy
  rw [remS_of_ne x hy0, hy, Int.tmod_neg, Int.tmod_one]
  rfl

/-- A remainder has the sign of the dividend. -/
theorem tmod_neg_iff {a b : Int} (h : a.tmod b ≠ 0) : a.tmod b < 0 ↔ a < 0 := by
  have hs := Int.sign_tmod a b
  rw [if_neg (fun hd => h (Int.tmod_eq_zero_of_dvd hd))] at hs
  rw [← Int.sign_eq_neg_one_iff_neg, hs, Int.sign_eq_neg_one_iff_neg]

theorem natAbs_tmod_lt {a b : Int} (h : b ≠ 0) : (a.tmod b).natAbs < b.natAbs := by
  rw [Int.natAbs_tmod]
  exact Nat.mod_lt _ (Int.natAbs_pos.mpr h)

/-! ## Counts (R150) -/

theorem clzBits_zero (n : Nat) : clzBits n 0 = n := by simp [clzBits]

/-- Above its highest one bit a word that is not zero has the counted zero bits. -/
theorem clzBits_spec {x : Nat} (hx : x ≠ 0) (hlt : x < 2 ^ 64) :
    clzBits 64 x < 64 ∧ x < 2 ^ (64 - clzBits 64 x) ∧ 2 ^ (64 - clzBits 64 x) ≤ 2 * x := by
  have hlog : x.log2 < 64 := (Nat.log2_lt hx).mpr hlt
  have hclz : clzBits 64 x = 63 - x.log2 := by simp only [clzBits, Nat.mod_eq_of_lt hlt, if_neg hx]
  have hrest : 64 - clzBits 64 x = x.log2 + 1 := by omega
  refine ⟨by omega, ?_, ?_⟩
  · rw [hrest]; exact Nat.lt_log2_self
  · rw [hrest, Nat.pow_succ']; exact Nat.mul_le_mul_left 2 (Nat.log2_self_le hx)

theorem ctzBits_zero (n : Nat) : ctzBits n 0 = n := by
  induction n with
  | zero => rfl
  | succ n ih => simp [ctzBits, ih, Nat.add_comm]

/-- Below its lowest one bit a word that is not zero has the counted zero bits. -/
theorem ctzBits_spec (n x : Nat) (hx : x ≠ 0) (hlt : x < 2 ^ n) :
    ctzBits n x < n ∧ x % 2 ^ ctzBits n x = 0 ∧ x.testBit (ctzBits n x) = true := by
  induction n generalizing x with
  | zero => omega
  | succ n ih =>
    rw [ctzBits]
    split
    next hodd => exact ⟨n.succ_pos, Nat.mod_one x, by simpa using hodd⟩
    next heven =>
      obtain ⟨hlt', hmod, hbit⟩ := ih (x / 2) (by omega) (by omega)
      rw [Nat.add_comm, Nat.testBit_add_one, Nat.pow_succ', Nat.mod_mul, hmod]
      exact ⟨by omega, by omega, hbit⟩

/-- A word has as many one bits as positions where its bit is one. -/
theorem popCount_eq_length_filter (n x : Nat) : popCount n x = ((List.range n).filter x.testBit).length := by
  induction n generalizing x with
  | zero => rfl
  | succ n ih =>
    have htail : x.testBit ∘ Nat.succ = (x / 2).testBit := funext (Nat.testBit_succ x)
    rw [popCount, ih, List.range_succ_eq_map, List.filter_cons, List.filter_map, htail, Nat.testBit_zero]
    obtain h | h := Nat.mod_two_eq_zero_or_one x <;> simp [h, Nat.add_comm]

/-! ## Compares (R147) -/

theorem word_beq_eq_decide (x y : Word) : (x == y) = decide (x.toNat = y.toNat) := by
  rw [Bool.eq_iff_iff, beq_iff_eq, decide_eq_true_iff, BitVec.toNat_inj]

theorem word_bne_eq_decide (x y : Word) : (x != y) = decide (x.toNat ≠ y.toNat) := by
  rw [bne, word_beq_eq_decide, decide_not]

theorem word_slt_signExtend (x : Word) (imm : BitVec 32) : x.slt (imm.signExtend 64) = decide (x.toInt < imm.toInt) := by
  rw [BitVec.slt, BitVec.toInt_signExtend_of_le (by decide)]

theorem word_beq_signExtend (x : Word) (imm : BitVec 32) : (x == imm.signExtend 64) = decide (x.toInt = imm.toInt) := by
  rw [Bool.eq_iff_iff, beq_iff_eq, decide_eq_true_iff, ← BitVec.toInt_inj, BitVec.toInt_signExtend_of_le (by decide)]

end Sys2Proof.Machine
end

section
/-! PROOFS. What an instruction of a scalar slot comes to: the record of one value, and nothing else (R136 to R138). -/

open Sys2Proof Sys2Proof.Machine

namespace Sys2Proof.Machine

/-- An instruction that names no slice, no address, no buffer and no condition that must be uniform: it uses no unit that a hallmark may
lack (R346), and of the traps at issue (R307) only its decode reasons are left. -/
structure UsesNoUnit (i : Instr) : Prop where
  noSlices : (sourcesOf i ++ destsOf i).all (fun l => l.kind != .sliceA && l.kind != .sliceB) = true
  noPlan : ∀ c : Core, c.plan i = none := by intro _; rfl
  noMx : ∀ c : Core, c.mxBanks i = [] := by intro _; rfl
  noWait : ∀ c : Core, c.waitBanks i = [] := by intro _; rfl
  noSf : sfBanks i = [] := by rfl
  noBusy : mxBusy i = 0 := by rfl
  noCond : ∀ c : Core, c.nonUniform i = none := by intro _; rfl
  noPark : ∀ c : Core, c.parkBad i = none := by intro _; rfl

theorem scalarSlot_ne_ct (u : ScalarSlot) : u.slot ≠ .ct := by cases u <;> decide

theorem vectorSlot_ne_scalarSlot (v : VectorSlot) (u : ScalarSlot) : v.slot ≠ u.slot := by cases u <;> cases v <;> decide

/-- The instructions of the scalar slots use no unit: the locations they name are scalars and steer registers. -/
theorem usesNoUnit_of_scalar {i : Instr} {u : ScalarSlot} (hslot : slotOf i = some u.slot) : UsesNoUnit i := by
  cases i
  case add | sub | mul | mulh | mulhu | div | divu | rem | remu | and | or | xor | shl | shr | sra | min | max | minu | maxu | agen =>
    exact { noSlices := by change (scalarLoc _ ++ scalarLoc _ ++ scalarLoc _).all _ = true; simp }
  case addi | andi | ori | xori | shli | shri | srai | clz | ctz | popc =>
    exact { noSlices := by change (scalarLoc _ ++ scalarLoc _).all _ = true; simp }
  case movi | movih | rdli | rdxy =>
    exact { noSlices := by change ([] ++ scalarLoc _).all _ = true; simp }
  case ceq | cne | clt | cltu =>
    exact { noSlices := by change (scalarLoc _ ++ scalarLoc _ ++ [condLoc _]).all _ = true; simp [condLoc] }
  case ceqi | clti =>
    exact { noSlices := by change (scalarLoc _ ++ [condLoc _]).all _ = true; simp [condLoc] }
  case sel =>
    exact { noSlices := by change (scalarLoc _ ++ scalarLoc _ ++ [condLoc _] ++ scalarLoc _).all _ = true; simp [condLoc] }
  case rdjt =>
    exact { noSlices := by change ([targetLoc _] ++ scalarLoc _).all _ = true; simp [targetLoc] }
  case nop => exact { noSlices := rfl }
  case vadd | vsub | vmul | vfma | vfms | vmin | vmax | vabs | vneg | vaddi | vmuli | vand | vor | vxor | vnot | vshl | vshr | vsra | vshli
      | vshri | vsrai | vclz | vpop | vcvt | vmov | vbri | vsplat | vsel | vceq | vcne | vclt | vcle | vcmpu | kand | kor | kxor | kandn | knot
      | vredadd | vredmax | vredmin | vperm | vrot | vlane | xmov | vpack | vunpk | vsumx =>
    exact absurd (Option.some.inj hslot) (vectorSlot_ne_scalarSlot _ u)
  all_goals cases u <;> cases hslot

/-- An instruction of a scalar slot without a decode reason takes its effect. -/
theorem slotExec_of_scalar {i : Instr} {u : ScalarSlot} (hslot : slotOf i = some u.slot) (hw : WellFormed i) (s : State) (eff : State → State) :
    slotExec i s eff = .next (eff s) :=
  have h := usesNoUnit_of_scalar hslot
  slotExec_plain s i eff u.slot hslot (scalarSlot_ne_ct u) hw h.noPlan h.noMx h.noSf h.noBusy h.noCond h.noPark h.noSlices h.noWait

section Records

variable {s : State} {i : Instr} {u : ScalarSlot}

/-- An instruction whose meaning is to record a scalar records the value of its operands at issue, and does nothing else (R138). -/
theorem exec_records {lat : Nat} {d : BitVec 6} {f : Core → Word} {v : Word} (he : exec i s = slotExec i s (scalarTo u lat d f))
    (hslot : slotOf i = some u.slot) (hw : WellFormed i) (hv : f (s.core s.cur) = v) :
    exec i s = .next (s.scalarSet u.slot.index lat d v) := by
  rw [he, slotExec_of_scalar hslot hw, scalarTo, record_scalar, hv]

/-- An instruction whose meaning is to record a condition records that of its operands at issue, and leaves the target half (R147). -/
theorem exec_recordsCond {j : BitVec 6} {f : Core → Bool} {v : Bool} (he : exec i s = slotExec i s (condTo u j f))
    (hslot : slotOf i = some u.slot) (hw : WellFormed i) (hv : f (s.core s.cur) = v) :
    exec i s = .next (s.condSet u.slot.index j v) := by
  rw [he, slotExec_of_scalar hslot hw, condTo, record_cond, hv]

end Records

/-- Settles O10: no form raises a trap (`exec_records`), and each records the value that its lemma above gives as a number. -/
theorem scalarRegisterForms : Obligations.ScalarRegisterForms := by
  unfold Obligations.ScalarRegisterForms
  intro u d x y s X Y n gives
  refine ⟨?add, ?sub, ?mul, ?mulh, ?mulhu, ?min, ?max, ?minu, ?maxu, ?and, ?or, ?xor, ?shl, ?shr, ?sra, fun sh hsh => ?agen⟩
  case add => exact exec_records rfl rfl rfl (BitVec.add_def X Y)
  case sub => exact exec_records rfl rfl rfl (word_sub_eq_ofInt X Y)
  case mul => exact exec_records rfl rfl rfl (word_mul_eq_ofNat X Y)
  case mulh => exact exec_records rfl rfl rfl (mulHigh_eq X Y)
  case mulhu => exact exec_records rfl rfl rfl (mulHighU_eq X Y)
  case min => exact exec_records rfl rfl rfl (minS_eq X Y)
  case max => exact exec_records rfl rfl rfl (maxS_eq X Y)
  case minu => exact exec_records rfl rfl rfl (minU_eq X Y)
  case maxu => exact exec_records rfl rfl rfl (maxU_eq X Y)
  case and | or | xor => exact exec_records rfl rfl rfl rfl
  case shl => exact exec_records rfl rfl rfl (word_shiftLeft_eq_ofNat X n)
  case shr => exact exec_records rfl rfl rfl (word_ushiftRight_eq_ofNat X n)
  case sra => exact exec_records rfl rfl rfl (word_sshiftRight_eq_ofInt X n)
  case agen =>
    have hw : need true (decide (sh.toNat < 7)) = Reasons.none := need_true_of (decide_eq_true (Nat.lt_succ_of_le hsh))
    exact exec_records rfl rfl hw (word_add_shiftLeft_eq_ofNat X Y sh.toNat)

/-- Settles O11: the model divides by `Int.tdiv` and `Int.tmod`, whose remainder has the dividend's sign; the borderline cases by themselves. -/
theorem scalarDivision : Obligations.ScalarDivision := by
  unfold Obligations.ScalarDivision
  intro u d x y s X Y gives
  refine ⟨fun hzero => ⟨?div0, ?divu0, ?rem0, ?remu0⟩, fun hX hY => ⟨?divWraps, ?remWraps⟩, fun hne => ?signed, fun hne => ⟨?divu, ?remu⟩⟩
  case div0 | divu0 | rem0 | remu0 => exact exec_records rfl rfl rfl (if_pos hzero)
  case divWraps => exact exec_records rfl rfl rfl (divS_of_neg_one hX hY)
  case remWraps => exact exec_records rfl rfl rfl (remS_of_neg_one X hY)
  case signed =>
    exact ⟨X.toInt.tdiv Y.toInt, X.toInt.tmod Y.toInt, (Int.tdiv_mul_add_tmod ..).symm, natAbs_tmod_lt (toInt_ne_zero_of_ne hne),
      or_iff_not_imp_left.mpr tmod_neg_iff, exec_records rfl rfl rfl (divS_of_ne X hne), exec_records rfl rfl rfl (remS_of_ne X hne)⟩
  case divu => exact exec_records rfl rfl rfl (divU_of_ne X hne)
  case remu => exact exec_records rfl rfl rfl (remU_of_ne X hne)

/-- RDLI gives the iteration of the loop entry as a number (R152). -/
theorem loopIter_eq (c : Core) (i : Nat) : c.loopIter i = match c.regs.loops.reverse[i]? with
    | some e => BitVec.ofNat 64 e.iter.toNat
    | none => 0 := by
  rw [Core.loopIter]
  cases c.regs.loops.reverse[i]? with
  | none => rfl
  | some e => exact (BitVec.ofNat_toNat 64 e.iter).symm

/-- RDXY gives the fields of R154, the lowest first. -/
theorem position_eq (s : State) (n : Nat) : s.position n =
    BitVec.ofNat 64 ((s.core n).rcol + 2 ^ 8 * (s.core n).rrow + 2 ^ 16 * colOf n + 2 ^ 24 * rowOf n) :=
  congrArg (BitVec.ofNat 64) (by ring)

/-- RDXY records the position of the core, which the state gives and not the core alone. -/
theorem exec_rdxy (s : State) (u : ScalarSlot) (d : BitVec 6) :
    exec (.rdxy u d) s = .next (s.scalarSet u.slot.index 1 d (s.position s.cur)) := by
  have he : exec (.rdxy u d) s = slotExec (.rdxy u d) s (fun t => scalarTo u 1 d (fun _ => t.position t.cur) t) := rfl
  rw [he, slotExec_of_scalar (i := .rdxy u d) (u := u) rfl rfl, scalarTo, record_scalar]

/-- Settles O12: as O10, the numbers of SEL, RDLI, RDJT and of the compares being legal ones. -/
theorem scalarImmediateReadAndCompareForms : Obligations.ScalarImmediateReadAndCompareForms := by
  unfold Obligations.ScalarImmediateReadAndCompareForms
  refine ⟨fun u d x y z imm amt long s => ?_, fun u j x y imm s hj => ?_⟩
  · intro c X gives
    have himm : imm.zeroExtend 64 = BitVec.ofNat 64 imm.toNat := (BitVec.ofNat_toNat ..).symm
    refine ⟨?addi, ?andi, ?ori, ?xori, ?shli, ?shri, ?srai, ?movi, ?movih, ?clz, ?ctz, ?popc, fun hz => ?sel,
      fun hx => ?rdli, fun hx => ?rdjt, ?rdxy⟩
    case addi => exact exec_records rfl rfl rfl (word_add_signExtend X imm)
    case andi => exact exec_records rfl rfl rfl (congrArg (X &&& ·) himm)
    case ori => exact exec_records rfl rfl rfl (congrArg (X ||| ·) himm)
    case xori => exact exec_records rfl rfl rfl (congrArg (X ^^^ ·) himm)
    case shli => exact exec_records rfl rfl rfl (word_shiftLeft_eq_ofNat X amt.toNat)
    case shri => exact exec_records rfl rfl rfl (word_ushiftRight_eq_ofNat X amt.toNat)
    case srai => exact exec_records rfl rfl rfl (word_sshiftRight_eq_ofInt X amt.toNat)
    case movi => exact exec_records rfl rfl rfl rfl
    case movih => exact exec_records rfl rfl rfl (zeroExtend_shiftLeft_eq_ofNat long 16)
    case clz =>
      exact ⟨clzBits 64 X.toNat, exec_records rfl rfl rfl rfl, fun h => by rw [h]; exact clzBits_zero 64,
        fun h => clzBits_spec (toNat_ne_zero_of_ne h) X.isLt⟩
    case ctz =>
      exact ⟨ctzBits 64 X.toNat, exec_records rfl rfl rfl rfl, fun h => by rw [h]; exact ctzBits_zero 64,
        fun h => ctzBits_spec 64 X.toNat (toNat_ne_zero_of_ne h) X.isLt⟩
    case popc => exact exec_records rfl rfl rfl (congrArg (BitVec.ofNat 64) (popCount_eq_length_filter 64 X.toNat))
    case sel => exact exec_records rfl rfl (need_true_of (decide_eq_true hz)) rfl
    case rdli => exact exec_records rfl rfl (need_true_of (decide_eq_true hx)) (loopIter_eq c x.toNat)
    case rdjt => exact exec_records rfl rfl (need_true_of (decide_eq_true hx)) (BitVec.ofNat_toNat ..).symm
    case rdxy => exact (exec_rdxy s u d).trans (by rw [position_eq])
  · intro X Y gives
    have hw : need true (steerOk j) = Reasons.none := need_true_of (decide_eq_true hj)
    exact ⟨exec_recordsCond rfl rfl hw (word_beq_eq_decide X Y), exec_recordsCond rfl rfl hw (word_bne_eq_decide X Y),
      exec_recordsCond rfl rfl hw rfl, exec_recordsCond rfl rfl hw rfl, exec_recordsCond rfl rfl hw (word_beq_signExtend X imm),
      exec_recordsCond rfl rfl hw (word_slt_signExtend X imm)⟩

end Sys2Proof.Machine
end

section
/-! PROOFS. What an instruction of a vector slot comes to: its lane values recorded under the K mask, and nothing else (R156 to R160). -/

open Sys2Proof Sys2Proof.Machine

namespace Sys2Proof.Machine

theorem vectorSlot_ne_ct (u : VectorSlot) : u.slot ≠ .ct := by cases u <;> decide

theorem State.LanesSet.congr {s t : State} {slot lat : Nat} {cl : Bool} {d : SliceOp} {en : LaneMask} {f g : Nat → Nat}
    (h : s.LanesSet t slot lat cl d en f) (hfg : ∀ l, l < 256 → f l % 2 ^ (4 * d.w) = g l % 2 ^ (4 * d.w)) :
    s.LanesSet t slot lat cl d en g := by
  obtain ⟨lines, hlen, hlines, ht⟩ := h
  exact ⟨lines, hlen, fun l hl => (hlines l hl).trans (hfg l hl), ht⟩

section Vector

variable {s : State} {i : Instr} {u : VectorSlot} {eff : State → State}

/-- A well-formed instruction of a vector slot whose units serve takes its effect. -/
theorem slotExec_of_vector (hslot : slotOf i = some u.slot) (hw : WellFormed i) (hs : s.Serves i)
    (hp : ∀ c : Core, c.plan i = none := by intro _; rfl) (hn : ∀ c : Core, c.nonUniform i = none := by intro _; rfl)
    (hk : ∀ c : Core, c.parkBad i = none := by intro _; rfl) : slotExec i s eff = .next (eff s) :=
  slotExec_serves s i eff u.slot hslot (vectorSlot_ne_ct u) hw hs hp hn hk

/-- An instruction of a vector slot whose effect is to set lanes has that effect. -/
theorem exec_setsLanes {lat : Nat} {cl : Bool} {d : SliceOp} {en : LaneMask} {f : Nat → Nat} (he : exec i s = slotExec i s eff)
    (hslot : slotOf i = some u.slot) (hset : WellFormed i → s.LanesSet (eff s) u.slot.index lat cl d en f)
    (hp : ∀ c : Core, c.plan i = none := by intro _; rfl) (hn : ∀ c : Core, c.nonUniform i = none := by intro _; rfl)
    (hk : ∀ c : Core, c.parkBad i = none := by intro _; rfl) :
    WellFormed i → s.Serves i → ∃ z, exec i s = .next z ∧ s.LanesSet z u.slot.index lat cl d en f :=
  fun hw hs => ⟨eff s, he.trans (slotExec_of_vector hslot hw hs hp hn hk), hset hw⟩

/-- A lanewise operation on one source. -/
theorem exec_lanes1 {lat : Nat} {t : NumFmt} {k : BitVec 4} {d x : SliceOp} {f g : Nat → Nat}
    (he : exec i s = slotExec i s (lanes1 u lat t k d x f)) (hslot : slotOf i = some u.slot)
    (h : ∀ l, l < 256 → f ((s.core s.cur).elem (clusterOf u) t x l) % 2 ^ (4 * d.w) = g l % 2 ^ (4 * d.w))
    (hp : ∀ c : Core, c.plan i = none := by intro _; rfl) (hn : ∀ c : Core, c.nonUniform i = none := by intro _; rfl)
    (hk : ∀ c : Core, c.parkBad i = none := by intro _; rfl) :
    WellFormed i → s.Serves i → ∃ z, exec i s = .next z ∧
      s.LanesSet z u.slot.index lat (clusterOf u) d ((s.core s.cur).mask (clusterOf u) k.toNat) g :=
  exec_setsLanes he hslot (fun _ => lanesSet_lanes1 s u lat t k d x f g h) hp hn hk

/-- A lanewise operation on two sources. -/
theorem exec_lanes2 {lat : Nat} {t : NumFmt} {k : BitVec 4} {d x y : SliceOp} {f : Nat → Nat → Nat} {g : Nat → Nat}
    (he : exec i s = slotExec i s (lanes2 u lat t k d x y f)) (hslot : slotOf i = some u.slot)
    (h : ∀ l, l < 256 → f ((s.core s.cur).elem (clusterOf u) t x l) ((s.core s.cur).elem (clusterOf u) t y l) % 2 ^ (4 * d.w) =
      g l % 2 ^ (4 * d.w))
    (hp : ∀ c : Core, c.plan i = none := by intro _; rfl) (hn : ∀ c : Core, c.nonUniform i = none := by intro _; rfl)
    (hk : ∀ c : Core, c.parkBad i = none := by intro _; rfl) :
    WellFormed i → s.Serves i → ∃ z, exec i s = .next z ∧
      s.LanesSet z u.slot.index lat (clusterOf u) d ((s.core s.cur).mask (clusterOf u) k.toNat) g :=
  exec_setsLanes he hslot (fun _ => lanesSet_lanes2 s u lat t k d x y f g h) hp hn hk

/-- Values of all lanes. -/
theorem exec_lanesTo {lat : Nat} {k : BitVec 4} {d : SliceOp} {f : Core → List Nat} {g : Nat → Nat}
    (he : exec i s = slotExec i s (lanesTo u lat k d f)) (hslot : slotOf i = some u.slot) (hlen : (f (s.core s.cur)).length = 256)
    (h : ∀ l, l < 256 → nth 0 (f (s.core s.cur)) l % 2 ^ (4 * d.w) = g l % 2 ^ (4 * d.w))
    (hp : ∀ c : Core, c.plan i = none := by intro _; rfl) (hn : ∀ c : Core, c.nonUniform i = none := by intro _; rfl)
    (hk : ∀ c : Core, c.parkBad i = none := by intro _; rfl) :
    WellFormed i → s.Serves i → ∃ z, exec i s = .next z ∧
      s.LanesSet z u.slot.index lat (clusterOf u) d ((s.core s.cur).mask (clusterOf u) k.toNat) g :=
  exec_setsLanes he hslot (fun _ => lanesSet_lanesTo s u lat k d f g hlen h) hp hn hk

end Vector

/-! ## Placement (R94) -/

/-- An integer type places by `fit`, a floating type keeps the pattern that it rounds to, cut to the width of the slices. -/
theorem placeExact_mod (t : NumFmt) (w : Nat) (sat : Bool) (i : Int) (x : FVal) :
    placeExact t w sat i x % 2 ^ (4 * w) = (match t with
      | .int sg n => fitInt sg n w sat i
      | .flt g => g.round x) % 2 ^ (4 * w) := by
  cases t with
  | int sg n => rfl
  | flt g => exact Nat.mod_mod ..

theorem lanesSet_arith2 (s : State) (u : VectorSlot) (ty k : BitVec 4) (sat : Bool) (d x y : SliceOp) (li lf : Nat) (fi : Int → Int → Int)
    (ff : FVal → FVal → FVal) : s.LanesSet (arith2 u ty k sat d x y li lf fi ff s) u.slot.index (latIF ty li lf) (clusterOf u) d
      ((s.core s.cur).mask (clusterOf u) k.toNat) (fun l =>
        let v := fun o => (vtypeD ty).value ((s.core s.cur).elem (clusterOf u) (vtypeD ty) o l)
        placeExact (vtypeD ty) d.w sat (fi (v x).toI (v y).toI) (ff (v x).toF (v y).toF)) := by
  rw [arith2_eq]
  exact lanesSet_lanes2 s u _ _ k d x y _ _ fun _ _ => rfl

/-- Settles O23: each form is `arith2` or `arith3` with its exact operations, placed as `placeExact_mod` says. -/
theorem vectorArithmetic : Obligations.VectorArithmetic := by
  unfold Obligations.VectorArithmetic
  intro u ty k sat d x y s t c cl D X Y place gives
  have hplace : ∀ i f, placeExact t d.w sat i f % 2 ^ (4 * d.w) = place i f % 2 ^ (4 * d.w) := placeExact_mod t d.w sat
  refine ⟨?add, ?sub, ?mul, ?fma, ?fms⟩
  case add => exact exec_setsLanes rfl rfl fun _ => ((lanesSet_arith2 s u ty k sat d x y 1 4 _ _).congr fun l _ => hplace _ _)
  case sub => exact exec_setsLanes rfl rfl fun _ => ((lanesSet_arith2 s u ty k sat d x y 1 4 _ _).congr fun l _ => hplace _ _)
  case mul => exact exec_setsLanes rfl rfl fun _ => ((lanesSet_arith2 s u ty k sat d x y 3 5 _ _).congr fun l _ => hplace _ _)
  case fma => exact exec_setsLanes rfl rfl fun _ => ((lanesSet_arith3 s u ty k sat d x y _ _).congr fun l _ => hplace _ _)
  case fms => exact exec_setsLanes rfl rfl fun _ => ((lanesSet_arith3 s u ty k sat d x y _ _).congr fun l _ => hplace _ _)

end Sys2Proof.Machine
end

section
/-! PROOFS. The lane functions of the vector slots, as numbers and patterns (R162 to R167). -/

open Sys2Proof Sys2Proof.Machine

namespace Sys2Proof.Machine

/-! ## Patterns of a lane -/

theorem NumFmt.widen_lt (t : NumFmt) (w v : Nat) : widen t w v < 2 ^ t.width := by
  have hmod : ∀ n, v % 2 ^ n < 2 ^ n := fun n => Nat.mod_lt _ (Nat.two_pow_pos n)
  cases t with
  | flt f => exact hmod _
  | int sg n =>
    cases sg with
    | false => exact hmod n
    | true =>
      simp only [widen]
      split
      · exact toPattern_lt n _
      · exact hmod n

/-- The pattern of a lane has the bits of its type. -/
theorem Core.elem_lt (c : Core) (cl : Bool) (t : NumFmt) (o : SliceOp) (l : Nat) : c.elem cl t o l < 2 ^ t.width := NumFmt.widen_lt t _ _

/-- The types of R58 have 8 to 64 bits. -/
theorem vtypeD_width : ∀ ty : BitVec 4, 8 ≤ (vtypeD ty).width ∧ (vtypeD ty).width ≤ 64 := by decide

theorem vtypeD_int {ty : BitVec 4} {sg : Bool} {n : Nat} (h : vtypeD ty = .int sg n) : 8 ≤ n ∧ n ≤ 64 := by
  have hw := vtypeD_width ty
  rwa [h] at hw

/-- A pattern of a type is placed as the number it stands for, or as itself. -/
theorem placePat_int (sg : Bool) (n w p : Nat) : placePat (.int sg n) w p = fitInt sg n w false ((NumFmt.int sg n).value p).toI := rfl

theorem placePat_flt (f : FFmt) (w : Nat) {p : Nat} (h : p < 2 ^ f.width) : placePat (.flt f) w p % 2 ^ (4 * w) = p % 2 ^ (4 * w) := by
  change p % 2 ^ f.width % 2 ^ (4 * w) % 2 ^ (4 * w) = _
  rw [Nat.mod_mod, Nat.mod_eq_of_lt h]


/-! ## Minimum, maximum, absolute value, negation and immediates (R162 to R164) -/

theorem placePat_minPat (t : NumFmt) (w : Nat) {a b : Nat} : a < 2 ^ t.width → b < 2 ^ t.width →
    placePat t w (minPat t a b) % 2 ^ (4 * w) = (match t with
      | .int sg n => fitInt sg n w false (min (t.value a).toI (t.value b).toI)
      | .flt g => if (g.value a).isNaN || (g.value b).isNaN then g.canonicalNaN
          else if (g.value b).before (g.value a) then b else a) % 2 ^ (4 * w) := by
  intro ha hb
  cases t with
  | int sg n =>
    rw [placePat_int, minPat, min_def]
    congr 2
    split <;> split <;> omega
  | flt g =>
    refine placePat_flt g w ?_
    simp only [minPat]
    split
    · exact g.canonicalNaN_lt
    · split <;> assumption

theorem placePat_maxPat (t : NumFmt) (w : Nat) {a b : Nat} : a < 2 ^ t.width → b < 2 ^ t.width →
    placePat t w (maxPat t a b) % 2 ^ (4 * w) = (match t with
      | .int sg n => fitInt sg n w false (max (t.value a).toI (t.value b).toI)
      | .flt g => if (g.value a).isNaN || (g.value b).isNaN then g.canonicalNaN
          else if (g.value a).before (g.value b) then b else a) % 2 ^ (4 * w) := by
  intro ha hb
  cases t with
  | int sg n =>
    rw [placePat_int, maxPat, max_def]
    congr 2
    split <;> split <;> omega
  | flt g =>
    refine placePat_flt g w ?_
    simp only [maxPat]
    split
    · exact g.canonicalNaN_lt
    · split <;> assumption

theorem absLane_mod (t : NumFmt) (w : Nat) (sat : Bool) (a : Nat) :
    absLane t w sat a % 2 ^ (4 * w) = (match t with
      | .int sg n => fitInt sg n w sat ((t.value a).toI.natAbs : Int)
      | .flt g => if (g.value a).isNaN then g.canonicalNaN else a % 2 ^ (g.width - 1)) % 2 ^ (4 * w) := by
  cases t with
  | int sg n => rfl
  | flt g => exact Nat.mod_mod ..

/-- Above its top bit a number has no other that an exclusive OR with a power of two could invert. -/
theorem xor_two_pow_of_lt {a n : Nat} (ha : a < 2 ^ n) : a ^^^ 2 ^ n = a + 2 ^ n := by
  refine Nat.eq_of_testBit_eq fun i => ?_
  rw [Nat.testBit_xor, Nat.testBit_two_pow, Nat.add_comm]
  obtain hlt | rfl | hgt := Nat.lt_trichotomy i n
  · rw [Nat.testBit_two_pow_add_gt hlt, decide_eq_false hlt.ne', Bool.xor_false]
  · rw [Nat.testBit_two_pow_add_eq, decide_eq_true rfl, Bool.xor_true]
  · have hi : 2 ^ (n + 1) ≤ 2 ^ i := Nat.pow_le_pow_right two_pos hgt
    rw [Nat.testBit_lt_two_pow (ha.trans_le (Nat.pow_le_pow_right two_pos hgt.le)), decide_eq_false hgt.ne,
      Nat.testBit_lt_two_pow (by rw [Nat.pow_succ] at hi; omega)]
    rfl

/-- The sign bit inverted. -/
theorem xor_two_pow {a n : Nat} (ha : a < 2 ^ (n + 1)) : a ^^^ 2 ^ n = if a < 2 ^ n then a + 2 ^ n else a - 2 ^ n := by
  split
  next hlt => exact xor_two_pow_of_lt hlt
  next hge =>
    obtain ⟨b, rfl⟩ := Nat.exists_eq_add_of_le' (Nat.le_of_not_lt hge)
    rw [Nat.pow_succ] at ha
    rw [← xor_two_pow_of_lt (by omega : b < 2 ^ n), Nat.xor_xor_cancel_right, xor_two_pow_of_lt (by omega), Nat.add_sub_cancel]

theorem negLane_mod (t : NumFmt) (w : Nat) (sat : Bool) {a : Nat} : a < 2 ^ t.width →
    negLane t w sat a % 2 ^ (4 * w) = (match t with
      | .int sg n => fitInt sg n w sat (-(t.value a).toI)
      | .flt g => if (g.value a).isNaN then g.canonicalNaN
          else if a < 2 ^ (g.width - 1) then a + 2 ^ (g.width - 1) else a - 2 ^ (g.width - 1)) % 2 ^ (4 * w) := by
  intro ha
  cases t with
  | int sg n => rfl
  | flt g =>
    rw [negLane, xor_two_pow (show a < 2 ^ (g.width - 1 + 1) from ha)]
    exact Nat.mod_mod ..

/-- The immediate of an integer type as a number (R60). -/
theorem immInt_int {sg : Bool} {n : Nat} (hn : 0 < n) (imm : BitVec 16) : immInt (.int sg n) imm =
    if sg ∧ 2 ^ (min n 16 - 1) ≤ imm.toNat % 2 ^ min n 16 then ((imm.toNat % 2 ^ min n 16 : Nat) : Int) - (2 ^ min n 16 : Nat)
    else ((imm.toNat % 2 ^ min n 16 : Nat) : Int) := by
  have hb : min n 16 ≠ 0 := by omega
  cases sg with
  | false => simp [immInt]
  | true =>
    simp only [immInt, toSigned, if_neg hb, if_true, true_and, ← Nat.not_lt, ite_not]

/-- Settles O24: each form is lanewise, with the lane function that its lemma above gives by the kind of type. -/
theorem vectorUnaryAndImmediate : Obligations.VectorUnaryAndImmediate := by
  unfold Obligations.VectorUnaryAndImmediate
  intro u ty k sat d x y imm s t c cl X Y v w gives
  have hX : ∀ l, X l < 2 ^ t.width := c.elem_lt cl t x
  have hY : ∀ l, Y l < 2 ^ t.width := c.elem_lt cl t y
  refine ⟨?min, ?max, ?abs, ?neg, fun sg n ht => ?imm⟩
  case min => exact exec_lanes2 rfl rfl fun l _ => placePat_minPat t d.w (hX l) (hY l)
  case max => exact exec_lanes2 rfl rfl fun l _ => placePat_maxPat t d.w (hX l) (hY l)
  case abs => exact exec_lanes1 rfl rfl fun l _ => absLane_mod t d.w sat (X l)
  case neg => exact exec_lanes1 rfl rfl fun l _ => negLane_mod t d.w sat (hX l)
  case imm =>
    intro b a
    have hfit : ∀ z, fit t d.w sat (.int z) = fitInt sg n d.w sat z := fun z => by rw [ht]; rfl
    have himm : immInt t imm = a := by rw [ht]; exact immInt_int (Nat.zero_lt_of_lt (vtypeD_int ht).1) imm
    exact ⟨exec_lanes1 rfl rfl fun l _ => by rw [hfit, himm], exec_lanes1 rfl rfl fun l _ => by rw [hfit, himm]⟩

/-! ## Logic, shifts and counts on patterns (R165 to R167) -/

theorem toSigned_of_lt {n p : Nat} (hn : 0 < n) (hp : p < 2 ^ n) :
    toSigned n p = if 2 ^ (n - 1) ≤ p then (p : Int) - (2 ^ n : Nat) else (p : Int) := by
  simp only [toSigned, Nat.mod_eq_of_lt hp, if_neg hn.ne', ← Nat.not_lt, ite_not]

/-- A pattern of an integer type is placed as its number. -/
theorem placePat_int_of_lt {sg : Bool} {n p : Nat} (w : Nat) (hn : 0 < n) (hp : p < 2 ^ n) : placePat (.int sg n) w p =
    fitInt sg n w false (if sg ∧ 2 ^ (n - 1) ≤ p then (p : Int) - (2 ^ n : Nat) else (p : Int)) := by
  rw [placePat_int]
  cases sg with
  | false => simp [NumFmt.value, Val.toI, Nat.mod_eq_of_lt hp]
  | true => simp [NumFmt.value, Val.toI, toSigned_of_lt hn hp]

theorem clzBits_of_lt {n x : Nat} (hx : x < 2 ^ n) : (clzBits n x : Int) = if x = 0 then (n : Int) else n - 1 - Nat.log2 x := by
  simp only [clzBits, Nat.mod_eq_of_lt hx]
  split
  next => rfl
  next h0 =>
    have hlog := (Nat.log2_lt h0).mpr hx
    omega

/-- Settles O25: each pattern has n bits, so it is placed as its number (`placePat_int_of_lt`). -/
theorem vectorLogicShiftsCounts : Obligations.VectorLogicShiftsCounts := by
  unfold Obligations.VectorLogicShiftsCounts
  intro u ty k d x y amt s sg n ht t c cl X Y value signed pattern gives
  have hn : 0 < n := Nat.zero_lt_of_lt (vtypeD_int ht).1
  have hwidth : t.width = n := by rw [show t = _ from ht]; rfl
  have hX : ∀ l, X l < 2 ^ n := fun l => hwidth ▸ c.elem_lt cl t x l
  have hY : ∀ l, Y l < 2 ^ n := fun l => hwidth ▸ c.elem_lt cl t y l
  have hplace : ∀ p, p < 2 ^ n → placePat t d.w p = pattern p := fun p hp => by
    rw [show t = _ from ht]; exact placePat_int_of_lt d.w hn hp
  have hcount : ∀ z, fit t d.w false (.int z) = fitInt sg n d.w false z := fun z => by rw [show t = _ from ht]; rfl
  have hsra : ∀ a p, p < 2 ^ n → placePat t d.w (sraPat t a p) = pattern (signed p / (2 ^ a : Nat) % (2 ^ n : Nat)).toNat := fun a p hp => by
    rw [sraPat, hwidth, toSigned_of_lt hn hp]
    exact hplace _ (toPattern_lt n _)
  have eq_mod : ∀ {a b : Nat}, a = b → a % 2 ^ (4 * d.w) = b % 2 ^ (4 * d.w) := congrArg (· % _)
  refine ⟨?and, ?or, ?xor, ?not, ?shl, ?shr, ?sra, ?shli, ?shri, ?srai, ?clz, ?pop⟩
  case and => exact exec_lanes2 rfl rfl fun l _ => eq_mod (hplace _ (Nat.and_lt_two_pow _ (hY l)))
  case or => exact exec_lanes2 rfl rfl fun l _ => eq_mod (hplace _ (Nat.or_lt_two_pow (hX l) (hY l)))
  case xor => exact exec_lanes2 rfl rfl fun l _ => eq_mod (hplace _ (Nat.xor_lt_two_pow (hX l) (hY l)))
  case not => exact exec_lanes1 rfl rfl fun l _ => eq_mod (by rw [hwidth]; exact hplace _ (by have := hX l; omega))
  case shl => exact exec_lanes2 rfl rfl fun l _ => eq_mod (by rw [shlPat, hwidth]; exact hplace _ (Nat.mod_lt _ (Nat.two_pow_pos n)))
  case shli => exact exec_lanes1 rfl rfl fun l _ => eq_mod (by rw [shlPat, hwidth]; exact hplace _ (Nat.mod_lt _ (Nat.two_pow_pos n)))
  case shr => exact exec_lanes2 rfl rfl fun l _ => eq_mod (hplace _ ((Nat.div_le_self ..).trans_lt (hX l)))
  case shri => exact exec_lanes1 rfl rfl fun l _ => eq_mod (hplace _ ((Nat.div_le_self ..).trans_lt (hX l)))
  case sra => exact exec_lanes2 rfl rfl fun l _ => eq_mod (hsra _ _ (hX l))
  case srai => exact exec_lanes1 rfl rfl fun l _ => eq_mod (hsra _ _ (hX l))
  case clz => exact exec_lanes1 rfl rfl fun l _ => eq_mod (by rw [hwidth, hcount, clzBits_of_lt (hX l)])
  case pop => exact exec_lanes1 rfl rfl fun l _ => eq_mod (by rw [hwidth, hcount, popCount_eq_length_filter])

end Sys2Proof.Machine
end

section
/-! PROOFS. Moves, conversion, broadcasts and the operations across lanes (R168 to R172, R178 to R181). -/

open Sys2Proof Sys2Proof.Machine

namespace Sys2Proof.Machine

theorem nth_map_allLanes (f : Nat → Nat) {l : Nat} (hl : l < 256) : nth 0 (allLanes.map f) l = f l := nth_map_range 0 f 256 l hl

/-- A function of the raw lanes of an operand. -/
theorem Core.nth_map_lanes (c : Core) (cl : Bool) (o : SliceOp) (f : Nat → Nat) {l : Nat} (hl : l < 256) :
    nth 0 ((c.lanes cl o).map f) l = f (laneOf (c.sliceLines cl o.start.toNat o.w) l) := by
  rw [nth_map 0 0 _ _ _ (by simpa using hl), nth_lanes _ _ _ _ hl]

/-- VSEL places in every lane the operand that K selects there. -/
def selValues (c : Core) (cl : Bool) (t : NumFmt) (m : LaneMask) (w : Nat) (x y : SliceOp) : List Nat :=
  List.zipWith (fun i (ab : Nat × Nat) => placePat t w (if m.getLsbD i then ab.1 else ab.2)) allLanes
    (List.zip (c.patterns cl t x) (c.patterns cl t y))

theorem nth_selValues (c : Core) (cl : Bool) (t : NumFmt) (m : LaneMask) (w : Nat) (x y : SliceOp) {l : Nat} (hl : l < 256) :
    nth 0 (selValues c cl t m w x y) l = placePat t w (if m.getLsbD l then c.elem cl t x l else c.elem cl t y l) := by
  rw [selValues, nth_zipWith 0 0 (0, 0) _ _ _ l (by simpa using hl) (by simpa using hl), nth_allLanes l hl,
    nth_zip _ _ _ _ _ (by simpa using hl) (by simpa using hl), nth_patterns _ _ _ _ _ hl, nth_patterns _ _ _ _ _ hl]

theorem exec_vsel (s : State) (u : VectorSlot) (ty k : BitVec 4) (d x y : SliceOp) : exec (.vsel u ty k d x y) s =
    slotExec (.vsel u ty k d x y) s (fun s => s.record s.cur u.slot.index 1 (sliceResult (clusterOf u) d (BitVec.allOnes 256)
      (selValues (s.core s.cur) (clusterOf u) (vtypeD ty) ((s.core s.cur).mask (clusterOf u) k.toNat) d.w x y))) := rfl

theorem exec_xmov (s : State) (u : VectorSlot) (k : BitVec 4) (d x : SliceOp) : exec (.xmov u k d x) s =
    slotExec (.xmov u k d x) s (fun s => s.record s.cur u.slot.index 2 (sliceResult (!clusterOf u) d
      ((s.core s.cur).mask (!clusterOf u) k.toNat) (((s.core s.cur).lanes (clusterOf u) x).map (· % 2 ^ (4 * d.w))))) := rfl

/-- Settles O26: lanewise forms, values of all lanes, and VSEL, which sets every lane. -/
theorem vectorMovesAndConversion : Obligations.VectorMovesAndConversion := by
  unfold Obligations.VectorMovesAndConversion
  intro u ty k ts sat d x y imm r s t c cl m gives
  have hlen : ∀ v : Nat, (allLanes.map (fun _ => v)).length = 256 := fun v => by rw [List.length_map, allLanes_length]
  have hconst : ∀ (v : Nat) l, l < 256 → nth 0 (allLanes.map (fun _ => v)) l = v := fun v l hl => nth_map_allLanes (fun _ => v) hl
  refine ⟨?cvt, ?mov, ?bri, ?splat, ?sel, ?lane⟩
  case cvt | mov => exact exec_lanes1 rfl rfl fun l _ => rfl
  case bri | splat => exact exec_lanesTo rfl rfl (hlen _) fun l hl => congrArg (· % _) (hconst _ l hl)
  case sel =>
    refine exec_setsLanes (exec_vsel s u ty k d x y) rfl fun _ => (lanesSet_record s _ 1 cl d _ _ _ (by simp [selValues]) fun l hl => ?_)
    rw [nth_selValues c cl t m d.w x y hl]
    rfl
  case lane => exact exec_lanesTo rfl rfl (by simp) fun l hl => congrArg (· % _) (nth_map_allLanes _ hl)

/-- Settles O29: each form by the values of its lanes; XMOV records them in the other cluster. -/
theorem vectorCrossLane : Obligations.VectorCrossLane := by
  unfold Obligations.VectorCrossLane
  intro u ty k sat d x y dist fmt s t c cl raw gives
  refine ⟨?perm, ?rot, ?xmov, ?pack, ?unpk⟩
  case perm =>
    refine exec_lanesTo rfl rfl (by simp) fun l hl => ?_
    rw [Core.nth_map_lanes _ _ _ _ hl, nth_patterns _ _ _ _ _ (Nat.mod_lt _ (by decide))]
    rfl
  case rot =>
    refine exec_lanesTo rfl rfl (by simp) fun l hl => ?_
    rw [nth_map_allLanes _ hl, nth_patterns _ _ _ _ _ (Nat.mod_lt _ (by decide))]
    rfl
  case xmov =>
    refine exec_setsLanes (exec_xmov s u k d x) rfl fun _ => (lanesSet_record s _ 2 (!cl) d _ _ _ (by simp) fun l hl => ?_)
    rw [Core.nth_map_lanes _ _ _ _ hl, Nat.mod_mod]
  case pack =>
    refine exec_lanesTo rfl rfl (by simp) fun l hl => ?_
    rw [Core.nth_map_lanes _ _ _ _ hl, packLane, Nat.mod_mod]
    simp only [elemAt_eq]
    rfl
  case unpk =>
    refine exec_lanesTo rfl rfl (by simp) fun l hl => ?_
    rw [Core.nth_map_lanes _ _ _ _ hl, unpackLane, Nat.mod_mod]
    simp only [elemAt_eq]
    rfl

end Sys2Proof.Machine
end

section
/-! PROOFS. Compares, mask logic and VCMPU (R160, R173 to R176). -/

open Sys2Proof Sys2Proof.Machine

namespace Sys2Proof.Machine

/-! ## Compares -/

/-- A bit of a string of bits. -/
theorem testBit_packBits_one (l : List Nat) (k : Nat) : (packBits 1 l).testBit k = decide (nth 0 l k % 2 = 1) := by
  have h := packBits_elem 1 l k
  rw [Nat.one_mul, Nat.pow_one] at h
  rw [Nat.testBit_eq_decide_div_mod_eq, h]

/-- The mask that a compare writes: the relation where K enables the lane, and 0 elsewhere (R160). -/
def compareMask (c : Core) (cl : Bool) (t : NumFmt) (en : LaneMask) (x y : SliceOp) (r : Rel) : LaneMask :=
  BitVec.ofNat 256 (packBits 1 (List.zipWith (fun a b => b2n (r.on (t.value a) (t.value b))) (c.patterns cl t x) (c.patterns cl t y))) &&& en

theorem getLsbD_compareMask (c : Core) (cl : Bool) (t : NumFmt) (en : LaneMask) (x y : SliceOp) (r : Rel) {l : Nat} (hl : l < 256) :
    (compareMask c cl t en x y r).getLsbD l =
      (en.getLsbD l && r.on (t.value (c.elem cl t x l)) (t.value (c.elem cl t y l))) := by
  have hbit : ∀ b : Bool, decide (b2n b % 2 = 1) = b := by decide
  rw [compareMask, BitVec.getLsbD_and, BitVec.getLsbD_ofNat, decide_eq_true hl, Bool.true_and, testBit_packBits_one,
    nth_zipWith 0 0 0 _ _ _ l (by simpa using hl) (by simpa using hl), nth_patterns _ _ _ _ _ hl, nth_patterns _ _ _ _ _ hl, hbit, Bool.and_comm]

/-- A compare writes its whole mask half. -/
theorem exec_compares {s : State} {i : Instr} {u : VectorSlot} {ty k : BitVec 4} {m : BitVec 6} {x y : SliceOp} {r : Rel}
    (he : exec i s = slotExec i s (compareTo u ty k m x y r)) (hslot : slotOf i = some u.slot) (hw : WellFormed i) (hs : s.Serves i)
    (hp : ∀ c : Core, c.plan i = none := by intro _; rfl) (hn : ∀ c : Core, c.nonUniform i = none := by intro _; rfl)
    (hk : ∀ c : Core, c.parkBad i = none := by intro _; rfl) :
    ∃ v : LaneMask, (∀ l, l < 256 → v.getLsbD l = (((s.core s.cur).mask (clusterOf u) k.toNat).getLsbD l &&
        r.on ((vtypeD ty).value ((s.core s.cur).elem (clusterOf u) (vtypeD ty) x l))
          ((vtypeD ty).value ((s.core s.cur).elem (clusterOf u) (vtypeD ty) y l)))) ∧
      exec i s = .next (s.maskSet u.slot.index (if isClassI ty then 1 else 2) (clusterOf u) m v) :=
  ⟨compareMask (s.core s.cur) (clusterOf u) (vtypeD ty) ((s.core s.cur).mask (clusterOf u) k.toNat) x y r,
    fun _ hl => getLsbD_compareMask _ _ _ _ _ _ _ hl,
    (he.trans (slotExec_of_vector hslot hw hs hp hn hk)).trans (congrArg Host.Outcome.next (record_mask ..))⟩

/-! ## Mask logic -/

@[simp] theorem all_maskLoc (cl : Bool) (k : Nat) : (maskLoc cl k).all (fun l => l.kind != .sliceA && l.kind != .sliceB) = true := by
  unfold maskLoc
  split
  · rfl
  · cases cl <;> rfl

/-- The mask logic uses no unit: the locations it names are mask halves. -/
theorem usesNoUnit_maskLogic (u : VectorSlot) (d a b : BitVec 6) : UsesNoUnit (.kand u d a b) ∧ UsesNoUnit (.kor u d a b) ∧
    UsesNoUnit (.kxor u d a b) ∧ UsesNoUnit (.kandn u d a b) ∧ UsesNoUnit (.knot u d a) := by
  have h2 : (maskLoc (clusterOf u) a.toNat ++ maskLoc (clusterOf u) b.toNat ++ maskLoc (clusterOf u) d.toNat).all
      (fun l => l.kind != .sliceA && l.kind != .sliceB) = true := by simp
  have h1 : (maskLoc (clusterOf u) a.toNat ++ maskLoc (clusterOf u) d.toNat).all
      (fun l => l.kind != .sliceA && l.kind != .sliceB) = true := by simp
  exact ⟨{ noSlices := h2 }, { noSlices := h2 }, { noSlices := h2 }, { noSlices := h2 }, { noSlices := h1 }⟩

/-- Mask logic records the mask that it forms, in all lanes. -/
theorem exec_maskLogic {s : State} {i : Instr} {u : VectorSlot} {d : BitVec 6} {f : (Nat → LaneMask) → LaneMask} {g : Nat → Bool}
    (he : exec i s = slotExec i s (maskTo u d f)) (hslot : slotOf i = some u.slot) (hunit : UsesNoUnit i)
    (hg : ∀ l, l < 256 → (f ((s.core s.cur).mask (clusterOf u))).getLsbD l = g l) (hw : WellFormed i) :
    ∃ v : LaneMask, (∀ l, l < 256 → v.getLsbD l = g l) ∧ exec i s = .next (s.maskSet u.slot.index 1 (clusterOf u) d v) :=
  ⟨_, hg, (he.trans (slotExec_plain s i _ u.slot hslot (vectorSlot_ne_ct u) hw hunit.noPlan hunit.noMx hunit.noSf hunit.noBusy hunit.noCond
    hunit.noPark hunit.noSlices hunit.noWait)).trans (congrArg Host.Outcome.next (record_mask ..))⟩

/-! ## VCMPU (R174, R175) -/

section Vcmpu

variable (s : State) (u : VectorSlot) (k : BitVec 4) (j m : BitVec 6)

/-- ENABLED: the lanes that K enables. -/
def enabledCount (e : LaneMask) : Nat := ((List.range 256).filter (fun l => e.getLsbD l)).length

/-- ONES: those of them whose bit of the mask is one. -/
def onesCount (e v : LaneMask) : Nat := ((List.range 256).filter (fun l => e.getLsbD l && v.getLsbD l)).length

theorem popCount_toNat (v : LaneMask) : popCount 256 v.toNat = enabledCount v := popCount_eq_length_filter 256 v.toNat

theorem popCount_and (e v : LaneMask) : popCount 256 (e &&& v).toNat = onesCount e v := by
  rw [popCount_toNat, enabledCount, onesCount]
  simp only [BitVec.getLsbD_and]

theorem onesCount_of_subset {e v : LaneMask} (h : e &&& v = e) : onesCount e v = enabledCount e := by
  rw [← popCount_and, ← popCount_toNat, h]

theorem onesCount_of_disjoint {e v : LaneMask} (h : e &&& v = 0) : onesCount e v = 0 := by
  simp only [onesCount, ← BitVec.getLsbD_and, h]
  simp

theorem onesCount_pos {e v : LaneMask} {p : Nat} (hp : p < 256) (he : e.getLsbD p = true) (hv : v.getLsbD p = true) : 0 < onesCount e v :=
  List.length_pos_of_mem (List.mem_filter.mpr ⟨List.mem_range.mpr hp, by rw [he, hv]; rfl⟩)

theorem onesCount_lt {e v : LaneMask} {q : Nat} (hq : q < 256) (he : e.getLsbD q = true) (hv : v.getLsbD q = false) :
    onesCount e v < enabledCount e := by
  have hsplit : onesCount e v = (((List.range 256).filter (fun l => e.getLsbD l)).filter (fun l => v.getLsbD l)).length := by
    rw [onesCount, List.filter_filter]
    simp only [Bool.and_comm]
  rw [hsplit, enabledCount, List.length_filter_lt_length_iff_exists]
  exact ⟨q, List.mem_filter.mpr ⟨List.mem_range.mpr hq, he⟩, by simp [hv]⟩

/-- VCMPU raises its condition when some enabled lanes hold 1, and not all of them. -/
theorem nonUniform_vcmpu (c : Core) : c.nonUniform (.vcmpu u k j m) =
    if 0 < onesCount (c.mask (clusterOf u) k.toNat) (c.mask (clusterOf u) m.toNat) ∧
        onesCount (c.mask (clusterOf u) k.toNat) (c.mask (clusterOf u) m.toNat) < enabledCount (c.mask (clusterOf u) k.toNat)
    then some (enabledCount (c.mask (clusterOf u) k.toNat), onesCount (c.mask (clusterOf u) k.toNat) (c.mask (clusterOf u) m.toNat))
    else none := by
  rw [← popCount_toNat, ← popCount_and]
  rfl

theorem exec_vcmpu : exec (.vcmpu u k j m) s = slotExec (.vcmpu u k j m) s (fun s => s.condSet u.slot.index j
    ((s.core s.cur).mask (clusterOf u) k.toNat != 0 &&
      ((s.core s.cur).mask (clusterOf u) k.toNat &&& (s.core s.cur).mask (clusterOf u) m.toNat) ==
        (s.core s.cur).mask (clusterOf u) k.toNat)) := rfl

/-- VCMPU uses no unit. -/
theorem serves_vcmpu : s.Serves (.vcmpu u k j m) := by
  refine outOfService_of_no_unit s s.cur (.vcmpu u k j m) rfl rfl rfl rfl ?_
  change (maskLoc _ _ ++ maskLoc _ _ ++ [condLoc _]).all _ = true
  simp [condLoc]

variable {s u k j m} (hw : WellFormed (.vcmpu u k j m))
include hw

/-- Without the condition of R175 VCMPU records what R174 says. -/
theorem exec_vcmpu_records {v : Bool} (hn : (s.core s.cur).nonUniform (.vcmpu u k j m) = none)
    (hv : ((s.core s.cur).mask (clusterOf u) k.toNat != 0 &&
      ((s.core s.cur).mask (clusterOf u) k.toNat &&& (s.core s.cur).mask (clusterOf u) m.toNat) ==
        (s.core s.cur).mask (clusterOf u) k.toNat) = v) :
    exec (.vcmpu u k j m) s = .next (s.condSet u.slot.index j v) :=
  hv ▸ (exec_vcmpu s u k j m).trans (slotExec_of_clear s _ _
    (faultOf_of_checks s s.cur _ u.slot rfl (vectorSlot_ne_ct u) hw (serves_vcmpu s u k j m) hn rfl))

/-- With it VCMPU takes the trap, whose detail holds ENABLED and ONES. -/
theorem exec_vcmpu_traps {enabledN ones : Nat} (hn : (s.core s.cur).nonUniform (.vcmpu u k j m) = some (enabledN, ones)) :
    exec (.vcmpu u k j m) s = .next (s.takeTrap s.cur ⟨5, 2 ^ u.slot.index, ones + enabledN * 2 ^ 16, 0, (s.core s.cur).regs.pc.toNat⟩) := by
  refine (exec_vcmpu s u k j m).trans (slotExec_of_fault s _ _ _ ?_)
  have hform : instrReasons (.vcmpu u k j m) = Reasons.none := hw
  have hunit : s.outOfService s.cur (.vcmpu u k j m) = none := serves_vcmpu s u k j m
  have hslot : slotOf (.vcmpu u k j m) = some u.slot := rfl
  have hcontrol : s.controlFault s.cur (.vcmpu u k j m) = none := by cases u <;> rfl
  simp [State.faultOf, State.illegalFault, State.serviceFault, State.uniformFault, hform, hunit, hslot, hcontrol, hn, nonUniformDetail, slotBit,
    Core.trapAt]

end Vcmpu

/-- Settles O27: the compares and the mask logic by the mask that they record, and VCMPU by the count of its enabled lanes that hold 1. -/
theorem vectorComparesAndMasks : Obligations.VectorComparesAndMasks := by
  unfold Obligations.VectorComparesAndMasks
  intro u ty k m j a b x y s t c cl E X Y compares logic
  obtain ⟨hand, hor, hxor, handn, hnot⟩ := usesNoUnit_maskLogic u m a b
  have hcompl : ∀ (v : LaneMask) l, l < 256 → (~~~v).getLsbD l = !v.getLsbD l := fun v l hl => by
    rw [BitVec.getLsbD_not, decide_eq_true hl, Bool.true_and]
  have hvcmpu : j.toNat < 12 → m.toNat < 16 → WellFormed (.vcmpu u k j m) := fun hj hm =>
    need_true_of (by simp [steerOk, maskOk, hj, hm])
  refine ⟨?eq, ?ne, ?lt, ?le, ?and, ?or, ?xor, ?andn, ?not, fun hj hm hall => ?ones, fun hj hm hnone => ?zeros,
    fun p q hj hm hp hq hEp hEq hmp hmq => ?mixed⟩
  case eq | ne | lt | le => exact exec_compares rfl rfl
  case and => exact exec_maskLogic rfl rfl hand fun _ _ => BitVec.getLsbD_and
  case or => exact exec_maskLogic rfl rfl hor fun _ _ => BitVec.getLsbD_or
  case xor => exact exec_maskLogic rfl rfl hxor fun _ _ => BitVec.getLsbD_xor
  case andn => exact exec_maskLogic rfl rfl handn fun l hl =>
    BitVec.getLsbD_and.trans (congrArg _ (hcompl _ l hl))
  case not => exact exec_maskLogic rfl rfl hnot fun l hl => hcompl _ l hl
  case ones =>
    have hE : E &&& c.mask cl m.toNat = E := BitVec.eq_of_getLsbD_eq fun l hl => by
      cases h : E.getLsbD l <;> simp [h, hall l hl]
    have hn : c.nonUniform (.vcmpu u k j m) = none := by
      rw [nonUniform_vcmpu, onesCount_of_subset hE]
      exact if_neg fun h => absurd h.2 (lt_irrefl _)
    have hvalue : (E != 0 && (E &&& c.mask cl m.toNat) == E) = decide (E ≠ 0) := by
      rw [hE, beq_self_eq_true, Bool.and_true, Bool.eq_iff_iff, bne_iff_ne, decide_eq_true_iff]
    exact exec_vcmpu_records (hvcmpu hj hm) hn hvalue
  case zeros =>
    have hE : E &&& c.mask cl m.toNat = 0 := BitVec.eq_of_getLsbD_eq fun l hl => by
      cases h : E.getLsbD l <;> simp [h, hnone l hl]
    have hn : c.nonUniform (.vcmpu u k j m) = none := by
      rw [nonUniform_vcmpu, onesCount_of_disjoint hE]
      exact if_neg fun h => absurd h.1 (lt_irrefl _)
    have hvalue : (E != 0 && (E &&& c.mask cl m.toNat) == E) = false := by
      rw [hE]
      by_cases h0 : E = 0
      · rw [h0, bne_self_eq_false, Bool.false_and]
      · rw [beq_false_of_ne (Ne.symm h0), Bool.and_false]
    exact exec_vcmpu_records (hvcmpu hj hm) hn hvalue
  case mixed =>
    refine exec_vcmpu_traps (hvcmpu hj hm) ?_
    rw [nonUniform_vcmpu, if_pos ⟨onesCount_pos hp hEp hmp, onesCount_lt hq hEq hmq⟩]
    rfl

end Sys2Proof.Machine
end

section
/-! PROOFS. The pairwise tree and the reductions (R177). -/

open Sys2Proof Sys2Proof.Machine

namespace Sys2Proof.Machine

/-! ## The tree -/

section Tree

variable {α : Type} {op : α → α → α} {e : α}

theorem pairUp_length (op : α → α → α) (l : List α) : (pairUp op l).length = (l.length + 1) / 2 := by
  induction l using pairUp.induct with
  | case1 a b rest ih => simp only [pairUp, List.length_cons, ih]; omega
  | case2 l h =>
    match l, h with
    | [], _ => simp [pairUp]
    | [a], _ => simp [pairUp]
    | a :: b :: rest, h => exact absurd rfl (h a b rest)

/-- A step of the tree keeps the order of its operands, so an associative operation folds to the same value. -/
theorem foldr_pairUp (hassoc : ∀ a b c, op (op a b) c = op a (op b c)) (l : List α) : (pairUp op l).foldr op e = l.foldr op e := by
  induction l using pairUp.induct with
  | case1 a b rest ih => simp only [pairUp, List.foldr_cons, ih, hassoc]
  | case2 l h =>
    match l, h with
    | [], _ => rfl
    | [a], _ => rfl
    | a :: b :: rest, h => exact absurd rfl (h a b rest)

theorem absorbs_pairUp (hassoc : ∀ a b c, op (op a b) c = op a (op b c)) (l : List α) (h : ∀ a ∈ l, op a e = a) :
    ∀ a ∈ pairUp op l, op a e = a := by
  induction l using pairUp.induct with
  | case1 a b rest ih =>
    have hb : op b e = b := h b (by simp)
    simp only [pairUp, List.forall_mem_cons]
    exact ⟨by rw [hassoc, hb], ih fun x hx => h x (by simp [hx])⟩
  | case2 l hl =>
    match l, hl with
    | [], _ => exact h
    | [a], _ => exact h
    | a :: b :: rest, hl => exact absurd rfl (hl a b rest)

/-- Over 256 values that absorb e the tree of an associative operation gives their fold from e. -/
theorem treeOf_eq_foldr (d : α) (hassoc : ∀ a b c, op (op a b) c = op a (op b c)) {l : List α} (hlen : l.length = 256)
    (h : ∀ a ∈ l, op a e = a) : treeOf d op l = l.foldr op e := by
  have hstep : ∀ l : List α, (∀ a ∈ l, op a e = a) →
      (pairUp op l).length = (l.length + 1) / 2 ∧ (pairUp op l).foldr op e = l.foldr op e ∧ ∀ a ∈ pairUp op l, op a e = a :=
    fun l h => ⟨pairUp_length op l, foldr_pairUp hassoc l, absorbs_pairUp hassoc l h⟩
  obtain ⟨l1, f1, h1⟩ := hstep _ h
  obtain ⟨l2, f2, h2⟩ := hstep _ h1
  obtain ⟨l3, f3, h3⟩ := hstep _ h2
  obtain ⟨l4, f4, h4⟩ := hstep _ h3
  obtain ⟨l5, f5, h5⟩ := hstep _ h4
  obtain ⟨l6, f6, h6⟩ := hstep _ h5
  obtain ⟨l7, f7, h7⟩ := hstep _ h6
  obtain ⟨l8, f8, h8⟩ := hstep _ h7
  rw [← f1, ← f2, ← f3, ← f4, ← f5, ← f6, ← f7, ← f8]
  rw [l7, l6, l5, l4, l3, l2, l1, hlen] at l8
  obtain ⟨x, hx⟩ := List.length_eq_one_iff.mp l8
  rw [hx] at h8
  rw [treeOf, hx]
  exact (h8 x (by simp)).symm

/-- Lanes that hold e where they are not enabled fold as the enabled lanes alone. -/
theorem foldr_masked (hcomm : ∀ a b c, op a (op b c) = op b (op a c)) (he : op e e = e) (p : Nat → Bool) (v : Nat → α) (l : List Nat) :
    (l.map (fun i => if p i then v i else e)).foldr op e = ((l.filter p).map v).foldr op e := by
  have habsorb : ∀ r : List α, op e (r.foldr op e) = r.foldr op e := fun r => by
    induction r with
    | nil => exact he
    | cons a r ih => rw [List.foldr_cons, hcomm, ih]
  induction l with
  | nil => rfl
  | cons i l ih =>
    rw [List.map_cons, List.foldr_cons, ih, List.filter_cons]
    split
    · rfl
    · exact habsorb _

end Tree

/-! ## The lanes of a reduction -/

theorem Core.patterns_eq (c : Core) (cl : Bool) (t : NumFmt) (o : SliceOp) : c.patterns cl t o = (List.range 256).map (c.elem cl t o) := by
  simp only [Core.patterns, Core.lanes, List.map_map]
  rfl

theorem maskedVals_map {α : Type} (en : LaneMask) (e : α) (v : Nat → α) :
    maskedVals en e ((List.range 256).map v) = (List.range 256).map (fun l => if en.getLsbD l then v l else e) := by
  rw [maskedVals, allLanes, List.zipWith_map_right, List.zipWith_self]

/-- The number of a pattern lies in the range of its type (R87). -/
theorem value_mem_range {sg : Bool} {n p : Nat} (hn : 0 < n) (hp : p < 2 ^ n) :
    intMin sg n ≤ ((NumFmt.int sg n).value p).toI ∧ ((NumFmt.int sg n).value p).toI ≤ intMax sg n := by
  obtain ⟨k, rfl⟩ : ∃ k, n = k + 1 := ⟨n - 1, by omega⟩
  have hpow : 2 ^ (k + 1) = 2 * 2 ^ k := Nat.pow_succ'
  cases sg with
  | false =>
    simp only [NumFmt.value, Val.toI, intMin, intMax, Bool.false_eq_true, if_false, Nat.mod_eq_of_lt hp]
    omega
  | true =>
    simp only [NumFmt.value, Val.toI, intMin, intMax, if_true, toSigned_of_lt hn hp, Nat.add_sub_cancel]
    split <;> omega

/-- The types of class I are the integers, and with them those that a reduction takes. -/
theorem isClassI_of_int : ∀ {ty : BitVec 4} {sg : Bool} {n : Nat}, isIF ty = true → vtypeD ty = .int sg n → isClassI ty = true := by
  have h : ∀ ty : BitVec 4, isIF ty = true → isClassI ty = false → vtypeD ty ∈ [NumFmt.flt .f64, .flt .f32, .flt .bf16, .flt .f16, .flt .e8m10] := by
    decide
  intro ty sg n hIF ht
  by_contra hI
  have := h ty hIF (Bool.eq_false_iff.mpr hI)
  simp [ht] at this

/-- What a well-formed instruction says of its type. -/
theorem need_type {a b : Bool} (h : need a b = Reasons.none) : a = true := by
  have : (!a) = false := congrArg Reasons.type h
  simpa using this

theorem need3_type {a b c : Bool} (h : need3 a b c = Reasons.none) : a = true := by
  have : (!a) = false := congrArg Reasons.type h
  simpa using this

theorem not_isClassI_of_flt : ∀ {ty : BitVec 4} {g : FFmt}, vtypeD ty = .flt g → isClassI ty = false := by
  have h : ∀ ty : BitVec 4, isClassI ty = true → vtypeD ty = .int (decide (ty.toNat < 4)) (8 * 2 ^ (ty.toNat % 4)) := by decide
  intro ty g ht
  by_contra hI
  have := h ty (Bool.not_eq_false _ ▸ hI)
  simp [ht] at this

/-- The tree over lanes that hold e where they are not enabled is the fold over the enabled lanes. -/
theorem treeOf_masked {α : Type} {op : α → α → α} {e : α} (d : α) (hassoc : ∀ a b c, op (op a b) c = op a (op b c))
    (hcomm : ∀ a b c, op a (op b c) = op b (op a c)) (he : op e e = e) (en : LaneMask) {v : Nat → α} (hv : ∀ l, op (v l) e = v l) :
    treeOf d op (maskedVals en e ((List.range 256).map v)) =
      (((List.range 256).filter (fun l => en.getLsbD l)).map v).foldr op e := by
  rw [maskedVals_map, treeOf_eq_foldr d hassoc (by simp) ?_, foldr_masked hcomm he]
  intro a ha
  obtain ⟨l, -, rfl⟩ := List.mem_map.mp ha
  split
  · exact hv l
  · exact he

/-- One value in every lane. -/
theorem lanesSet_const (s : State) (u : VectorSlot) (lat : Nat) (k : BitVec 4) (d : SliceOp) (v : Core → Nat) :
    s.LanesSet (lanesTo u lat k d (fun c => allLanes.map (fun _ => v c)) s) u.slot.index lat (clusterOf u) d
      ((s.core s.cur).mask (clusterOf u) k.toNat) (fun _ => v (s.core s.cur)) :=
  lanesSet_lanesTo s u lat k d _ _ (by rw [List.length_map, allLanes_length]) fun _ hl =>
    congrArg (· % _) (nth_map_allLanes (fun _ => v (s.core s.cur)) hl)

/-- The value of a reduction (R177). -/
def reduceValue (c : Core) (cl : Bool) (t : NumFmt) (k : BitVec 4) (sat : Bool) (d x : SliceOp) (fi : Int → Int → Int) (idI : NumFmt → Int)
    (ff : FFmt → Nat → Nat → Nat) (idF : FFmt → Nat) : Nat :=
  match t with
  | .int _ _ => fit t d.w sat (.int (treeOf 0 fi (maskedVals (c.mask cl k.toNat) (idI t) ((c.patterns cl t x).map (fun p => (t.value p).toI)))))
  | .flt f => fit t d.w false (.pat (treeOf 0 (ff f) (maskedVals (c.mask cl k.toNat) (idF f) (c.patterns cl t x))))

theorem reduceTo_eq (u : VectorSlot) (ty k : BitVec 4) (sat : Bool) (d x : SliceOp) (li lf : Nat) (fi : Int → Int → Int)
    (idI : NumFmt → Int) (ff : FFmt → Nat → Nat → Nat) (idF : FFmt → Nat) : reduceTo u ty k sat d x li lf fi idI ff idF =
      lanesTo u (latIF ty li lf) k d (fun c => allLanes.map (fun _ => reduceValue c (clusterOf u) (vtypeD ty) k sat d x fi idI ff idF)) := rfl

section Reduce

variable {s : State} {u : VectorSlot} {ty k : BitVec 4} {sat : Bool} {d x : SliceOp} {li lf : Nat} {fi : Int → Int → Int}
  {idI : NumFmt → Int} {ff : FFmt → Nat → Nat → Nat} {idF : FFmt → Nat}

/-- A reduction of an integer type sets the value of the tree, placed once, in every enabled lane. -/
theorem lanesSet_reduceTo_int {sg : Bool} {n : Nat} (hIF : isIF ty = true) (ht : vtypeD ty = .int sg n) :
    s.LanesSet (reduceTo u ty k sat d x li lf fi idI ff idF s) u.slot.index li (clusterOf u) d ((s.core s.cur).mask (clusterOf u) k.toNat) (fun _ =>
      fitInt sg n d.w sat (treeOf 0 fi (maskedVals ((s.core s.cur).mask (clusterOf u) k.toNat) (idI (vtypeD ty)) ((List.range 256).map
        (fun l => ((vtypeD ty).value ((s.core s.cur).elem (clusterOf u) (vtypeD ty) x l)).toI))))) := by
  have hlat : latIF ty li lf = li := if_pos (isClassI_of_int hIF ht)
  rw [reduceTo_eq, hlat]
  refine (lanesSet_const s u _ k d _).congr fun l _ => ?_
  rw [ht, reduceValue, Core.patterns_eq, List.map_map]
  rfl

/-- A reduction of a floating type sets the value of the tree over its patterns. -/
theorem lanesSet_reduceTo_flt {g : FFmt} (ht : vtypeD ty = .flt g) : s.LanesSet (reduceTo u ty k sat d x li lf fi idI ff idF s)
    u.slot.index lf (clusterOf u) d ((s.core s.cur).mask (clusterOf u) k.toNat) (fun _ =>
      treeOf 0 (ff g) ((List.range 256).map (fun l => if ((s.core s.cur).mask (clusterOf u) k.toNat).getLsbD l
        then (s.core s.cur).elem (clusterOf u) (vtypeD ty) x l else idF g))) := by
  have hlat : latIF ty li lf = lf := if_neg (by rw [not_isClassI_of_flt ht]; exact Bool.false_ne_true)
  rw [reduceTo_eq, hlat]
  refine (lanesSet_const s u _ k d _).congr fun l _ => ?_
  rw [ht, reduceValue, Core.patterns_eq, maskedVals_map]
  exact Nat.mod_mod ..

end Reduce

/-- Settles O28: the tree of an associative and commutative operation is the fold over the enabled lanes (`treeOf_masked`). -/
theorem vectorReductions : Obligations.VectorReductions := by
  unfold Obligations.VectorReductions
  intro u ty k sat d x s t c cl m lanes ints pats gives
  refine ⟨fun sg n ht => ?ints, fun g ht => ?floats⟩
  case ints =>
    have hpos : 0 < n := Nat.zero_lt_of_lt (vtypeD_int ht).1
    have hrange : ∀ l, intMin sg n ≤ (t.value (c.elem cl t x l)).toI ∧ (t.value (c.elem cl t x l)).toI ≤ intMax sg n := fun l => by
      have hlt := c.elem_lt cl t x l
      rw [show t = _ from ht] at hlt ⊢
      exact value_mem_range hpos hlt
    have hmin : typeMin t = intMin sg n := congrArg typeMin ht
    have hmax : typeMax t = intMax sg n := congrArg typeMax ht
    refine ⟨?add, ?max, ?min⟩
    case add =>
      refine exec_setsLanes rfl rfl fun hw => ?_
      refine (lanesSet_reduceTo_int (need3_type hw) ht).congr fun _ _ => ?_
      rw [treeOf_masked 0 add_assoc add_left_comm (add_zero 0) m fun _ => add_zero _]
    case max =>
      refine exec_setsLanes rfl rfl fun hw => ?_
      refine (lanesSet_reduceTo_int (need_type hw) ht).congr fun _ _ => ?_
      rw [treeOf_masked 0 max_assoc max_left_comm (max_self _) m fun l => max_eq_left (hmin.trans_le (hrange l).1), hmin]
    case min =>
      refine exec_setsLanes rfl rfl fun hw => ?_
      refine (lanesSet_reduceTo_int (need_type hw) ht).congr fun _ _ => ?_
      rw [treeOf_masked 0 min_assoc min_left_comm (min_self _) m fun l => min_eq_left ((hrange l).2.trans_eq hmax.symm), hmax]
  case floats =>
    refine ⟨?fadd, ?fmax, ?fmin⟩
    case fadd | fmax | fmin => exact exec_setsLanes rfl rfl fun _ => lanesSet_reduceTo_flt ht

end Sys2Proof.Machine
end

section
/-! PROOFS. The integer square root that the model computes by Newton's step is the one of the library (R98, R183). -/

open Sys2Proof Sys2Proof.Machine

namespace Sys2Proof.Machine

/-- Newton's step from a number that is not below the root does not fall below the root. -/
theorem sqrt_le_newton {n g : Nat} (hg : 0 < g) : n.sqrt ≤ (g + n / g) / 2 := by
  have hroot : n.sqrt ^ 2 ≤ n := n.sqrt_le'
  have hdiv : n < g * (n / g + 1) := by rw [Nat.mul_comm]; exact Nat.lt_mul_of_div_lt (Nat.lt_succ_self _) hg
  have hamgm : 4 * g * (n / g + 1) ≤ (g + (n / g + 1)) ^ 2 := four_mul_le_pow_two_add g (n / g + 1)
  have hsq : (2 * n.sqrt) ^ 2 < (g + (n / g + 1)) ^ 2 := by nlinarith
  have := lt_of_pow_lt_pow_left₀ 2 (Nat.zero_le _) hsq
  omega

/-- Newton's step halves the distance to the root. -/
theorem newton_sub_sqrt_le {n g : Nat} (hg : n.sqrt < g) : 2 * ((g + n / g) / 2) ≤ g + n.sqrt := by
  have hdiv : n / g ≤ n.sqrt := by
    have hlt : n < (n.sqrt + 1) * (n.sqrt + 1) := n.lt_succ_sqrt
    have hle : (n.sqrt + 1) * (n.sqrt + 1) ≤ (n.sqrt + 1) * g := Nat.mul_le_mul_left _ hg
    exact Nat.lt_succ_iff.mp (Nat.div_lt_of_lt_mul (by rw [Nat.mul_comm]; exact hlt.trans_le hle))
  omega

/-- On k steps of fuel the iteration ends at the root when it begins less than 2^k above it. -/
theorem isqrtFrom_eq_sqrt (k n g : Nat) (hlo : n.sqrt ≤ g) (hhi : g < n.sqrt + 2 ^ k) : isqrtFrom k n g = n.sqrt := by
  induction k generalizing g with
  | zero => rw [isqrtFrom]; omega
  | succ k ih =>
    rw [isqrtFrom]
    obtain rfl | hlt := hlo.eq_or_lt
    · obtain h0 | hpos := Nat.eq_zero_or_pos n.sqrt
      · simp [h0]
      · rw [if_pos (sqrt_le_newton hpos)]
    · have hnewton := sqrt_le_newton (n := n) (Nat.zero_lt_of_lt hlt)
      have hhalf := newton_sub_sqrt_le hlt
      rw [if_neg (by omega), ih _ hnewton (by rw [Nat.pow_succ] at hhi; omega)]

/-- The model begins above the root, at a power of two. -/
theorem isqrtFrom_start_eq_sqrt {n k : Nat} (hn : n ≠ 0) (hk : n.log2 / 2 + 1 ≤ k) : isqrtFrom k n (2 ^ (n.log2 / 2 + 1)) = n.sqrt := by
  have habove : n < (2 ^ (n.log2 / 2 + 1)) ^ 2 :=
    calc n < 2 ^ (n.log2 + 1) := Nat.lt_log2_self
      _ ≤ 2 ^ ((n.log2 / 2 + 1) * 2) := Nat.pow_le_pow_right (by decide) (by omega)
      _ = _ := Nat.pow_mul ..
  have hpos : 0 < n.sqrt := Nat.sqrt_pos.mpr (Nat.pos_of_ne_zero hn)
  have hfuel : 2 ^ (n.log2 / 2 + 1) ≤ 2 ^ k := Nat.pow_le_pow_right (by decide) hk
  exact isqrtFrom_eq_sqrt k n _ (Nat.sqrt_lt'.mpr habove).le (by omega)

theorem isqrt_eq_sqrt {n k : Nat} (h : n < 2 ^ k) (hk : k ≤ 3000) : isqrt n = n.sqrt := by
  by_cases h0 : n = 0
  · subst h0; rfl
  · have hlog : n.log2 < k := (Nat.log2_lt h0).mpr h
    rw [isqrt, if_neg h0, isqrtFrom_start_eq_sqrt h0 (by omega)]

end Sys2Proof.Machine
end

section
/-! PROOFS. Rounding half-even in a binade, and the pattern nearest to a magnitude (R82, R83, R95). -/

open Sys2Proof Sys2Proof.Machine

namespace Sys2Proof.Machine

/-! ## Magnitudes of patterns -/

/-- The unit in the last place of binade k; binade 0 holds the subnormal numbers too. -/
def FFmt.ulp (f : FFmt) (k : Nat) : ℚ := 2 ^ ((k : ℤ) + 1 - f.params.bias - f.params.p)

theorem FFmt.ulp_pos (f : FFmt) (k : Nat) : 0 < f.ulp k := zpow_pos two_pos _

theorem FFmt.ulp_succ (f : FFmt) (k : Nat) : f.ulp (k + 1) = 2 * f.ulp k := by
  rw [FFmt.ulp, FFmt.ulp, ← zpow_one_add₀ two_ne_zero]
  congr 1
  push_cast
  ring

theorem FFmt.mag_subnormal (f : FFmt) {x : Nat} (hx : x < 2 ^ f.params.p) : f.mag x = x * f.ulp 0 := by
  simp [FFmt.mag, ratOf, FFmt.ulp, Nat.div_eq_of_lt hx, Nat.mod_eq_of_lt hx]

theorem FFmt.mag_normal (f : FFmt) (k : Nat) {x : Nat} (hx : x < 2 ^ f.params.p) :
    f.mag ((k + 1) * 2 ^ f.params.p + x) = ((2 ^ f.params.p + x : ℕ) : ℚ) * f.ulp k := by
  have hdiv : ((k + 1) * 2 ^ f.params.p + x) / 2 ^ f.params.p = k + 1 := by
    rw [Nat.add_comm, Nat.add_mul_div_right _ _ (Nat.two_pow_pos _), Nat.div_eq_of_lt hx, Nat.zero_add]
  have hmod : ((k + 1) * 2 ^ f.params.p + x) % 2 ^ f.params.p = x := by
    rw [Nat.add_comm, Nat.add_mul_mod_self_right, Nat.mod_eq_of_lt hx]
  simp [FFmt.mag, ratOf, FFmt.ulp, hdiv, hmod]

/-- The pattern r above the start of binade k stands for r units of that binade, also where r reaches the next binade. -/
theorem FFmt.mag_binade (f : FFmt) {k r : Nat} (hk : k = 0 ∨ 2 ^ f.params.p ≤ r) (hr : r ≤ 2 ^ (f.params.p + 1)) :
    f.mag (k * 2 ^ f.params.p + r) = r * f.ulp k := by
  rw [Nat.pow_succ] at hr
  obtain hsub | hnormal := Nat.lt_or_ge r (2 ^ f.params.p)
  · obtain rfl : k = 0 := by omega
    rw [Nat.zero_mul, Nat.zero_add, f.mag_subnormal hsub]
  · obtain ⟨x, rfl⟩ := Nat.exists_eq_add_of_le hnormal
    obtain hx | hx := Nat.lt_or_ge x (2 ^ f.params.p)
    · rw [← f.mag_normal k hx]
      congr 1
      ring
    · obtain rfl : x = 2 ^ f.params.p := by omega
      have hnext : k * 2 ^ f.params.p + (2 ^ f.params.p + 2 ^ f.params.p) = (k + 1 + 1) * 2 ^ f.params.p + 0 := by ring
      rw [hnext, f.mag_normal (k + 1) (Nat.two_pow_pos _), f.ulp_succ]
      push_cast
      ring

/-- Every pattern stands in a binade, below its end. -/
theorem FFmt.exists_binade (f : FFmt) (a : Nat) :
    ∃ k r, a = k * 2 ^ f.params.p + r ∧ (k = 0 ∨ 2 ^ f.params.p ≤ r) ∧ r < 2 ^ (f.params.p + 1) := by
  have hdecomp := Nat.div_add_mod' a (2 ^ f.params.p)
  have hmod := Nat.mod_lt a (Nat.two_pow_pos f.params.p)
  have hpow : 2 ^ (f.params.p + 1) = 2 * 2 ^ f.params.p := Nat.pow_succ'
  cases hfield : a / 2 ^ f.params.p with
  | zero => exact ⟨0, a % 2 ^ f.params.p, by rw [hfield] at hdecomp; omega, .inl rfl, by omega⟩
  | succ k =>
    refine ⟨k, 2 ^ f.params.p + a % 2 ^ f.params.p, ?_, .inr (Nat.le_add_right ..), by omega⟩
    rw [hfield, Nat.succ_mul] at hdecomp
    omega

theorem FFmt.mag_strictMono (f : FFmt) : StrictMono f.mag := by
  refine strictMono_nat_of_lt_succ fun a => ?_
  obtain ⟨k, r, rfl, hk, hr⟩ := f.exists_binade a
  have hsucc : k * 2 ^ f.params.p + r + 1 = k * 2 ^ f.params.p + (r + 1) := rfl
  rw [hsucc, f.mag_binade hk hr.le, f.mag_binade (hk.imp_right Nat.le_succ_of_le) hr]
  have := f.ulp_pos k
  push_cast
  nlinarith

theorem FFmt.mag_nonneg (f : FFmt) (a : Nat) : 0 ≤ f.mag a := by
  have h0 : f.mag 0 = 0 := by rw [f.mag_subnormal (Nat.two_pow_pos _)]; simp
  exact h0 ▸ f.mag_strictMono.monotone (Nat.zero_le a)

/-! ## The nearest pattern -/

/-- The midpoint of two patterns. -/
def FFmt.mid (f : FFmt) (a b : Nat) : ℚ := (f.mag a + f.mag b) / 2

theorem FFmt.mid_nonneg (f : FFmt) (a b : Nat) : 0 ≤ f.mid a b :=
  div_nonneg (add_nonneg (f.mag_nonneg a) (f.mag_nonneg b)) zero_le_two

/-- In binade k the magnitude V rounds to r units, ties to even. -/
structure FFmt.NearestAt (f : FFmt) (V : ℝ) (k r : Nat) : Prop where
  normal : k = 0 ∨ 2 ^ (f.params.p + 1) * (f.ulp k : ℝ) ≤ 2 * V
  below : 2 * V < 2 ^ (f.params.p + 2) * (f.ulp k : ℝ)
  lower : (2 * r - 1) * (f.ulp k : ℝ) ≤ 2 * V
  upper : 2 * V ≤ (2 * r + 1) * (f.ulp k : ℝ)
  tie : 2 * V = (2 * r - 1) * (f.ulp k : ℝ) ∨ 2 * V = (2 * r + 1) * (f.ulp k : ℝ) → r % 2 = 0

/-- y is the pattern nearest to V among all, ties to even; patterns past the finite ones continue the binades. -/
structure FFmt.Nearest (f : FFmt) (V : ℝ) (y : Nat) : Prop where
  above : ∀ b, y < b → V ≤ f.mid y b
  below : ∀ b, b < y → f.mid y b ≤ V
  even : ∀ b, b ≠ y → V = f.mid y b → y % 2 = 0

section NearestAt

variable {f : FFmt} {V : ℝ} {k r : Nat}

theorem FFmt.NearestAt.ulp_pos' (_ : f.NearestAt V k r) : (0 : ℝ) < f.ulp k := by exact_mod_cast f.ulp_pos k

/-- A binade that is not the first has at least 2^p units below its magnitudes. -/
theorem FFmt.NearestAt.le_r (h : f.NearestAt V k r) : k = 0 ∨ 2 ^ f.params.p ≤ r := by
  refine h.normal.imp_right fun hn => ?_
  have hlt : (2 ^ (f.params.p + 1) : ℝ) ≤ 2 * r + 1 := le_of_mul_le_mul_right (hn.trans h.upper) h.ulp_pos'
  have : 2 ^ (f.params.p + 1) ≤ 2 * r + 1 := by exact_mod_cast hlt
  rw [Nat.pow_succ] at this
  omega

theorem FFmt.NearestAt.r_le (h : f.NearestAt V k r) : r ≤ 2 ^ (f.params.p + 1) := by
  have hlt : (2 * r - 1 : ℝ) < 2 ^ (f.params.p + 2) := lt_of_mul_lt_mul_right (h.lower.trans_lt h.below) h.ulp_pos'.le
  have hlt' : (2 * r : ℝ) < 2 ^ (f.params.p + 2) + 1 := by linarith
  have : 2 * r < 2 ^ (f.params.p + 2) + 1 := by exact_mod_cast hlt'
  rw [Nat.pow_succ] at this
  omega

/-- A magnitude above its pattern lies below the midpoint with the next one. -/
theorem FFmt.NearestAt.le_mid (h : f.NearestAt V k r) {b : Nat} (hb : k * 2 ^ f.params.p + r < b) :
    V ≤ f.mid (k * 2 ^ f.params.p + r) b ∧ (V = f.mid (k * 2 ^ f.params.p + r) b → r % 2 = 0) := by
  have hu := h.ulp_pos'
  have hy := f.mag_binade h.le_r h.r_le
  have hyb := f.mag_strictMono hb
  have hyb' : (f.mag (k * 2 ^ f.params.p + r) : ℝ) < f.mag b := by exact_mod_cast hyb
  have hy' : (f.mag (k * 2 ^ f.params.p + r) : ℝ) = r * f.ulp k := by rw [hy]; push_cast; rfl
  rw [FFmt.mid]
  push_cast
  obtain hle | hlt := le_or_gt V (r * f.ulp k)
  · constructor
    · linarith
    · intro e; linarith
  · have hr : r + 1 ≤ 2 ^ (f.params.p + 1) := by
      have h1 : (2 * r : ℝ) * f.ulp k < 2 ^ (f.params.p + 2) * f.ulp k := by linarith [h.below]
      have h2 : (2 * r : ℝ) < 2 ^ (f.params.p + 2) := lt_of_mul_lt_mul_right h1 hu.le
      have h3 : 2 * r < 2 ^ (f.params.p + 2) := by exact_mod_cast h2
      rw [Nat.pow_succ] at h3
      omega
    have hnext := f.mag_binade (h.le_r.imp_right Nat.le_succ_of_le) hr
    have hnext' : ((r + 1 : ℝ)) * f.ulp k ≤ f.mag b := by
      have : f.mag (k * 2 ^ f.params.p + (r + 1)) ≤ f.mag b := f.mag_strictMono.monotone hb
      rw [hnext] at this
      exact_mod_cast this
    have hup := h.upper
    constructor
    · linarith
    · intro e
      exact h.tie (.inr (le_antisymm hup (by linarith)))

theorem FFmt.NearestAt.mid_le (h : f.NearestAt V k r) {b : Nat} (hb : b < k * 2 ^ f.params.p + r) :
    f.mid (k * 2 ^ f.params.p + r) b ≤ V ∧ (V = f.mid (k * 2 ^ f.params.p + r) b → r % 2 = 0) := by
  have hu := h.ulp_pos'
  have hy := f.mag_binade h.le_r h.r_le
  have hyb := f.mag_strictMono hb
  have hyb' : (f.mag b : ℝ) < f.mag (k * 2 ^ f.params.p + r) := by exact_mod_cast hyb
  have hy' : (f.mag (k * 2 ^ f.params.p + r) : ℝ) = r * f.ulp k := by rw [hy]; push_cast; rfl
  rw [FFmt.mid]
  push_cast
  obtain hle | hlt := le_or_gt (r * f.ulp k : ℝ) V
  · constructor
    · linarith
    · intro e; linarith
  · have hr : k = 0 ∨ 2 ^ f.params.p ≤ r - 1 := by
      refine h.normal.imp_right fun hn => ?_
      have h1 : (2 ^ (f.params.p + 1) : ℝ) * f.ulp k < 2 * r * f.ulp k := by linarith
      have h2 : (2 ^ (f.params.p + 1) : ℝ) < 2 * r := lt_of_mul_lt_mul_right h1 hu.le
      have h3 : 2 ^ (f.params.p + 1) < 2 * r := by exact_mod_cast h2
      rw [Nat.pow_succ] at h3
      omega
    have hpos : 1 ≤ r := by
      obtain rfl | hr := hr
      · omega
      · have := Nat.two_pow_pos f.params.p; omega
    obtain ⟨q, rfl⟩ : ∃ q, r = q + 1 := ⟨r - 1, by omega⟩
    have hprev := f.mag_binade (r := q) hr (by have := h.r_le; omega)
    have hprev' : (f.mag b : ℝ) ≤ q * f.ulp k := by
      have : f.mag b ≤ f.mag (k * 2 ^ f.params.p + q) := f.mag_strictMono.monotone (by omega)
      rw [hprev] at this
      exact_mod_cast this
    have hlow := h.lower
    push_cast at hlow hy'
    constructor
    · linarith
    · intro e
      refine h.tie (.inl ?_)
      push_cast
      exact le_antisymm (by linarith) hlow

end NearestAt

end Sys2Proof.Machine
end

section
/-! PROOFS. The pattern that `FFmt.roundMag` gives is the one nearest to its operand (R95). -/

open Sys2Proof Sys2Proof.Machine

namespace Sys2Proof.Machine

/-- The patterns of a binade are even where their units are. -/
theorem FFmt.binade_mod_two (f : FFmt) (k r : Nat) : (k * 2 ^ f.params.p + r) % 2 = r % 2 := by
  have hp : 2 ∣ 2 ^ f.params.p := by cases f <;> decide
  obtain ⟨c, hc⟩ := hp
  rw [hc, Nat.mul_left_comm, Nat.mul_add_mod]

theorem FFmt.NearestAt.nearest {f : FFmt} {V : ℝ} {k r : Nat} (h : f.NearestAt V k r) : f.Nearest V (k * 2 ^ f.params.p + r) where
  above _ hb := (h.le_mid hb).1
  below _ hb := (h.mid_le hb).1
  even b hb e := by
    rw [f.binade_mod_two]
    obtain hlt | hgt := Nat.lt_or_gt_of_ne hb
    · exact (h.mid_le hlt).2 e
    · exact (h.le_mid hgt).2 e

/-! ## Overflow -/

/-- The overflow rule of R95: a pattern past the largest finite one gives infinity, or the largest finite one in a format without infinity. -/
def FFmt.clamp (f : FFmt) (y : Nat) : Nat := if y ≤ f.maxFinite then y else if f.hasInf then f.infPattern else f.maxFinite

theorem FFmt.maxFinite_succ {f : FFmt} (hinf : f.hasInf = true) : f.maxFinite + 1 = f.infPattern := by
  cases f <;> first | rfl | cases hinf

theorem FFmt.maxFinite_mod_two {f : FFmt} (hinf : f.hasInf = true) : f.maxFinite % 2 = 1 := by
  cases f <;> first | rfl | cases hinf

/-- Halfway past the largest finite magnitude stands the midpoint with the pattern of infinity, taken as a number. -/
theorem FFmt.overflow_eq_mid {f : FFmt} (hinf : f.hasInf = true) : f.overflow = f.mid f.maxFinite f.infPattern := by
  obtain ⟨K, hK⟩ : ∃ K, 2 ^ f.params.eb = K + 3 := Nat.exists_eq_add_of_le' (by cases f <;> decide)
  have hpos := Nat.two_pow_pos (f.params.p + 1)
  have hsucc : 2 ^ (f.params.p + 1) = 2 * 2 ^ f.params.p := Nat.pow_succ'
  have hpat : f.infPattern = K * 2 ^ f.params.p + 2 ^ (f.params.p + 1) := by
    rw [FFmt.infPattern, hK, hsucc]; change (K + 2) * _ = _; ring
  have hmax : f.maxFinite = K * 2 ^ f.params.p + (2 ^ (f.params.p + 1) - 1) := by
    have := FFmt.maxFinite_succ hinf
    omega
  have hexp : (2 ^ f.params.eb - 2 - (f.params.bias : ℤ)) = (K : ℤ) + 1 - f.params.bias - f.params.p + f.params.p := by
    have : (2 ^ f.params.eb : ℤ) = K + 3 := by exact_mod_cast hK
    rw [this]; ring
  rw [FFmt.mid, hmax, hpat, f.mag_binade (.inr (by omega)) (Nat.sub_le ..), f.mag_binade (.inr (by omega)) le_rfl, Nat.cast_sub hpos]
  simp only [FFmt.overflow]
  rw [hexp, zpow_add₀ two_ne_zero, ← FFmt.ulp, zpow_sub₀ two_ne_zero, zpow_neg, zpow_natCast, zpow_one]
  push_cast
  rw [pow_succ]
  field_simp
  ring

theorem FFmt.mid_le_mid (f : FFmt) {a b c d : Nat} (h1 : a ≤ c) (h2 : b ≤ d) : f.mid a b ≤ f.mid c d :=
  div_le_div_of_nonneg_right (add_le_add (f.mag_strictMono.monotone h1) (f.mag_strictMono.monotone h2)) zero_le_two

theorem FFmt.mid_lt_mid (f : FFmt) {a b c : Nat} (h : a < b) : f.mid a c < f.mid b c :=
  div_lt_div_of_pos_right (add_lt_add_left (f.mag_strictMono h) _) two_pos

theorem FFmt.mid_comm (f : FFmt) (a b : Nat) : f.mid a b = f.mid b a := by rw [FFmt.mid, FFmt.mid, add_comm]

section Nearest

variable {f : FFmt} {V : ℝ} {y : Nat}

/-- The nearest pattern is past the finite ones exactly from the overflow threshold on: there the tie goes to infinity, whose pattern is even. -/
theorem FFmt.Nearest.overflow_le_iff (h : f.Nearest V y) (hinf : f.hasInf = true) : f.overflow ≤ V ↔ f.maxFinite < y := by
  have hsucc := FFmt.maxFinite_succ hinf
  rw [FFmt.overflow_eq_mid hinf]
  constructor
  · intro hV
    by_contra hy
    have hle := h.above f.infPattern (by omega)
    obtain rfl | hlt := (Nat.le_of_not_lt hy).eq_or_lt
    · have heven := h.even f.infPattern (by omega) (le_antisymm hle hV)
      rw [FFmt.maxFinite_mod_two hinf] at heven
      cases heven
    · have hmid : (f.mid y f.infPattern : ℝ) < f.mid f.maxFinite f.infPattern := by exact_mod_cast f.mid_lt_mid hlt
      linarith
  · intro hy
    have hge := h.below f.maxFinite hy
    have hmid : (f.mid f.maxFinite f.infPattern : ℝ) ≤ f.mid y f.maxFinite := by
      rw [f.mid_comm y]
      exact_mod_cast f.mid_le_mid le_rfl (by omega)
    linarith

/-- The nearest pattern, infinity past the finite ones, is what R95 rounds to. -/
theorem FFmt.Nearest.rounds (h : f.Nearest V y) (hinf : f.hasInf = true) :
    f.Rounds (fun μ => V ≤ μ) (fun μ => (μ : ℝ) ≤ V) (f.clamp y) := by
  refine ⟨fun _ hge => ?_, fun hfin => ?_⟩
  · have hy := (h.overflow_le_iff hinf).mp hge
    rw [FFmt.clamp, if_neg (Nat.not_le.mpr hy), if_pos hinf]
  · have hy : y ≤ f.maxFinite := Nat.le_of_not_lt fun hy => hfin ⟨hinf, (h.overflow_le_iff hinf).mpr hy⟩
    rw [FFmt.clamp, if_pos hy]
    exact ⟨⟨hy, fun b _ => ⟨h.above b, h.below b⟩⟩, fun b _ hb hle hge => h.even b hb (le_antisymm hle hge)⟩

end Nearest

/-! ## Quotients, shifted and rounded -/

/-- r is the natural number nearest to v / 2, ties to even. -/
structure IsHalfEven (v : ℝ) (r : Nat) : Prop where
  lower : 2 * (r : ℝ) - 1 ≤ v
  upper : v ≤ 2 * r + 1
  tie : v = 2 * r - 1 ∨ v = 2 * r + 1 → r % 2 = 0

/-- The same of natural numbers. -/
theorem isHalfEven_div {num den r : Nat} (hden : 0 < den) (hlo : 2 * r * den ≤ 2 * num + den) (hhi : 2 * num ≤ (2 * r + 1) * den)
    (htie : 2 * r * den = 2 * num + den ∨ 2 * num = (2 * r + 1) * den → r % 2 = 0) : IsHalfEven (2 * (num / den)) r := by
  have hd : (0 : ℝ) < den := by exact_mod_cast hden
  have hv : (2 * (num / den) : ℝ) = 2 * num / den := by ring
  have hlo' : (2 * r * den : ℝ) ≤ 2 * num + den := by exact_mod_cast hlo
  have hhi' : (2 * num : ℝ) ≤ (2 * r + 1) * den := by exact_mod_cast hhi
  rw [hv]
  refine ⟨?_, ?_, fun h => htie (h.imp (fun e => ?_) (fun e => ?_))⟩
  · rw [le_div_iff₀ hd]; linarith
  · rwa [div_le_iff₀ hd]
  · rw [div_eq_iff hd.ne'] at e
    exact_mod_cast (by linarith : (2 * r * den : ℝ) = 2 * num + den)
  · rw [div_eq_iff hd.ne'] at e
    exact_mod_cast e

theorem roundHalfEven_isHalfEven (num : Nat) {den : Nat} (hden : 0 < den) : IsHalfEven (2 * (num / den)) (roundHalfEven num den) := by
  have hdecomp := Nat.div_add_mod num den
  have hmod := Nat.mod_lt num hden
  simp only [roundHalfEven]
  generalize num / den = q, num % den = t at *
  split
  next hlt => exact isHalfEven_div hden (by nlinarith) (by nlinarith) (by rintro (h | h) <;> exfalso <;> nlinarith)
  next hge =>
    split
    next hgt => exact isHalfEven_div hden (by nlinarith) (by nlinarith) (by rintro (h | h) <;> exfalso <;> nlinarith)
    next hle =>
      obtain h0 | h1 := Nat.mod_two_eq_zero_or_one q
      · rw [h0, Nat.add_zero]
        exact isHalfEven_div hden (by nlinarith) (by nlinarith) fun _ => h0
      · rw [h1]
        exact isHalfEven_div hden (by nlinarith) (by nlinarith) fun _ => by omega

theorem roundScaled_isHalfEven (num : Nat) {den : Nat} (hden : 0 < den) (e : ℤ) :
    IsHalfEven (2 * (num / den * 2 ^ e)) (roundScaled num den e) := by
  rw [roundScaled]
  split
  next he =>
    obtain ⟨n, rfl⟩ := Int.eq_ofNat_of_zero_le he
    have h := roundHalfEven_isHalfEven (num <<< n) hden
    rw [Nat.shiftLeft_eq] at h
    push_cast at h
    convert h using 2
    · simp; ring
    · simp [Nat.shiftLeft_eq]
  next he =>
    obtain ⟨n, hn⟩ := Int.eq_ofNat_of_zero_le (by omega : 0 ≤ -e)
    obtain rfl : e = -n := by omega
    have h := roundHalfEven_isHalfEven num (Nat.mul_pos hden (Nat.two_pow_pos n))
    push_cast at h
    convert h using 2
    · rw [zpow_neg, zpow_natCast, ← div_eq_mul_inv, div_div]
    · simp [Nat.shiftLeft_eq]

theorem pow_log2_mul_le {num : Nat} (hnum : 0 < num) (den : Nat) : (2 : ℝ) ^ ((num.log2 : ℤ) - den.log2 - 1) * den < num := by
  have h1 : (2 : ℝ) ^ num.log2 ≤ num := by exact_mod_cast Nat.log2_self_le hnum.ne'
  have h2 : (den : ℝ) < 2 ^ (den.log2 + 1) := by exact_mod_cast Nat.lt_log2_self
  have hpow : (2 : ℝ) ^ ((num.log2 : ℤ) - den.log2 - 1) * 2 ^ (den.log2 + 1) = 2 ^ num.log2 := by
    rw [← zpow_natCast, ← zpow_natCast, ← zpow_add₀ two_ne_zero]
    congr 1
    push_cast
    ring
  calc (2 : ℝ) ^ ((num.log2 : ℤ) - den.log2 - 1) * den < 2 ^ ((num.log2 : ℤ) - den.log2 - 1) * 2 ^ (den.log2 + 1) :=
        mul_lt_mul_of_pos_left h2 (zpow_pos two_pos _)
    _ = 2 ^ num.log2 := hpow
    _ ≤ num := h1

theorem lt_pow_log2_mul (num : Nat) {den : Nat} (hden : 0 < den) : (num : ℝ) < 2 ^ ((num.log2 : ℤ) - den.log2 + 1) * den := by
  have h1 : (num : ℝ) < 2 ^ (num.log2 + 1) := by exact_mod_cast Nat.lt_log2_self
  have h2 : (2 : ℝ) ^ den.log2 ≤ den := by exact_mod_cast Nat.log2_self_le hden.ne'
  have hpow : (2 : ℝ) ^ ((num.log2 : ℤ) - den.log2 + 1) * 2 ^ den.log2 = 2 ^ (num.log2 + 1) := by
    rw [← zpow_natCast, ← zpow_natCast, ← zpow_add₀ two_ne_zero]
    congr 1
    push_cast
    ring
  calc (num : ℝ) < 2 ^ (num.log2 + 1) := h1
    _ = 2 ^ ((num.log2 : ℤ) - den.log2 + 1) * 2 ^ den.log2 := hpow.symm
    _ ≤ _ := mul_le_mul_of_nonneg_left h2 (zpow_pos two_pos _).le

/-- The test of `floorLog2Q` compares num with den·2^g. -/
theorem floorLog2Q_test (num den : Nat) (g : ℤ) :
    (if 0 ≤ g then decide (den <<< g.toNat ≤ num) else decide (den ≤ num <<< (-g).toNat)) = true ↔ (2 : ℝ) ^ g * den ≤ num := by
  split
  next hg =>
    obtain ⟨n, rfl⟩ := Int.eq_ofNat_of_zero_le hg
    rw [decide_eq_true_iff, Int.toNat_natCast, Nat.shiftLeft_eq, zpow_natCast, mul_comm]
    exact_mod_cast Iff.rfl
  next hg =>
    obtain ⟨n, hn⟩ := Int.eq_ofNat_of_zero_le (by omega : 0 ≤ -g)
    obtain rfl : g = -n := by omega
    rw [decide_eq_true_iff, neg_neg, Int.toNat_natCast, Nat.shiftLeft_eq, zpow_neg, zpow_natCast, inv_mul_le_iff₀ (by positivity), mul_comm]
    exact_mod_cast Iff.rfl

/-- A quotient lies between the power of two below it and the next one. -/
theorem floorLog2Q_spec {num den : Nat} (hnum : 0 < num) (hden : 0 < den) :
    (2 : ℝ) ^ floorLog2Q num den ≤ num / den ∧ (num / den : ℝ) < 2 ^ (floorLog2Q num den + 1) := by
  have hd : (0 : ℝ) < den := by exact_mod_cast hden
  have hbelow := pow_log2_mul_le hnum den
  have habove := lt_pow_log2_mul num hden
  unfold floorLog2Q
  extract_lets g le
  have htest : le = true ↔ (2 : ℝ) ^ g * den ≤ num := floorLog2Q_test num den g
  rw [le_div_iff₀ hd, div_lt_iff₀ hd]
  split
  next hle => exact ⟨htest.mp hle, habove⟩
  next hgt =>
    rw [htest, not_le] at hgt
    exact ⟨hbelow.le, by rwa [sub_add_cancel]⟩

/-! ## The rounding of R95 -/

/-- `FFmt.roundMag` rounds (num / den)·2^e half-even in its binade and applies the overflow rule. -/
theorem FFmt.roundMag_nearestAt (f : FFmt) (num : Nat) {den : Nat} (hden : 0 < den) (e : ℤ) :
    ∃ k r, f.roundMag num den e = f.clamp (k * 2 ^ f.params.p + r) ∧ f.NearestAt (num / den * 2 ^ e) k r := by
  obtain rfl | hnum := Nat.eq_zero_or_pos num
  · have hu : (0 : ℝ) < f.ulp 0 := by exact_mod_cast f.ulp_pos 0
    refine ⟨0, 0, by simp [FFmt.roundMag, FFmt.clamp], .inl rfl, ?_, ?_, ?_, fun _ => rfl⟩ <;> simp [hu, hu.le]
  · obtain ⟨hlo, hhi⟩ := floorLog2Q_spec hnum hden
    obtain ⟨k, hk⟩ := Int.eq_ofNat_of_zero_le (sub_nonneg.mpr (le_max_right (floorLog2Q num den + e) (1 - (f.params.bias : ℤ))))
    set x := max (floorLog2Q num den + e) (1 - (f.params.bias : ℤ)) with hx
    have hu : (f.ulp k : ℝ) = 2 ^ (x - f.params.p) := by
      rw [FFmt.ulp]; push_cast; congr 1; omega
    have hhalf := roundScaled_isHalfEven num hden (e - (x - f.params.p))
    have hunits : (2 * (num / den * 2 ^ (e - (x - f.params.p))) : ℝ) = 2 * (num / den * 2 ^ e) / f.ulp k := by
      rw [hu, zpow_sub₀ two_ne_zero e]; ring
    have hupos : (0 : ℝ) < f.ulp k := by exact_mod_cast f.ulp_pos k
    rw [hunits] at hhalf
    have hscale : (2 ^ (f.params.p + 1) * 2 ^ (x - f.params.p) : ℝ) = 2 * 2 ^ x := by
      rw [zpow_sub₀ two_ne_zero, zpow_natCast, pow_succ]
      field_simp
    refine ⟨k, roundScaled num den (e - (x - f.params.p)), ?_, ?_, ?_, ?_, ?_, ?_⟩
    · simp only [FFmt.roundMag, hnum.ne', if_false, ← hx, hk]
      rfl
    · refine or_iff_not_imp_left.mpr fun h0 => ?_
      have hnormal : x = floorLog2Q num den + e := by omega
      rw [hu, hscale, hnormal, zpow_add₀ two_ne_zero]
      linarith [mul_le_mul_of_nonneg_right hlo (zpow_pos two_pos e).le]
    · have hexp : (2 : ℝ) ^ (floorLog2Q num den + 1 + e) ≤ 2 ^ (x + 1) := zpow_le_zpow_right₀ one_le_two (by omega)
      rw [zpow_add₀ two_ne_zero] at hexp
      have hbelow := (mul_lt_mul_of_pos_right hhi (zpow_pos two_pos e)).trans_le hexp
      rw [zpow_add_one₀ two_ne_zero] at hbelow
      rw [pow_succ, mul_right_comm, hu, hscale]
      linarith
    · exact (le_div_iff₀ hupos).mp hhalf.lower
    · exact (div_le_iff₀ hupos).mp hhalf.upper
    · exact fun h => hhalf.tie (h.imp (div_eq_iff hupos.ne').mpr (div_eq_iff hupos.ne').mpr)

end Sys2Proof.Machine
end

section
/-! PROOFS. Reciprocal and reciprocal root, rounded once (R98, R183). -/

open Sys2Proof Sys2Proof.Machine

namespace Sys2Proof.Machine

/-! ## Rounding by another order -/

theorem FFmt.overflow_nonneg {f : FFmt} (hinf : f.hasInf = true) : 0 ≤ f.overflow := by
  rw [FFmt.overflow_eq_mid hinf]
  exact f.mid_nonneg ..

/-- Only comparisons with magnitudes count. -/
theorem FFmt.Rounds.congr {f : FFmt} (hinf : f.hasInf = true) {le ge le' ge' : ℚ → Prop} {y : Nat} (h : f.Rounds le ge y)
    (hle : ∀ μ, 0 ≤ μ → (le μ ↔ le' μ)) (hge : ∀ μ, 0 ≤ μ → (ge μ ↔ ge' μ)) : f.Rounds le' ge' y := by
  have hover := hge _ (FFmt.overflow_nonneg hinf)
  obtain ⟨hinfinite, hfinite⟩ := h
  refine ⟨fun hi ho => hinfinite hi (hover.mpr ho), fun hfin => ?_⟩
  obtain ⟨⟨hmax, hbetween⟩, heven⟩ := hfinite fun ho => hfin ⟨ho.1, hover.mp ho.2⟩
  refine ⟨⟨hmax, fun b hb => ⟨fun hlt => ?_, fun hlt => ?_⟩⟩, fun b hb hne h1 h2 => ?_⟩
  · exact (hle _ (f.mid_nonneg _ _)).mp ((hbetween b hb).1 hlt)
  · exact (hge _ (f.mid_nonneg _ _)).mp ((hbetween b hb).2 hlt)
  · exact heven b hb hne ((hle _ (f.mid_nonneg _ _)).mpr h1) ((hge _ (f.mid_nonneg _ _)).mpr h2)

/-- `FFmt.roundMag` rounds (num / den)·2^e. -/
theorem FFmt.roundMag_rounds {f : FFmt} (hinf : f.hasInf = true) (num : Nat) {den : Nat} (hden : 0 < den) (e : ℤ) :
    f.Rounds (fun μ => (num / den * 2 ^ e : ℝ) ≤ μ) (fun μ => (μ : ℝ) ≤ num / den * 2 ^ e) (f.roundMag num den e) := by
  obtain ⟨k, r, heq, hnear⟩ := f.roundMag_nearestAt num hden e
  rw [heq]
  exact hnear.nearest.rounds hinf

theorem FFmt.signed_eq (f : FFmt) (neg : Bool) (mag : Nat) : f.signed neg mag = mag + f.signBit neg := by
  cases neg <;> simp [FFmt.signed, FFmt.signBit, b2n, Nat.shiftLeft_eq]

/-! ## Reciprocal -/

theorem ratOf_false_pos {m : Nat} (hm : m ≠ 0) (e : ℤ) : 0 < ratOf false m e := by
  have : (0 : ℚ) < m := by exact_mod_cast Nat.pos_of_ne_zero hm
  simp only [ratOf, Bool.false_eq_true, if_false, one_mul]
  positivity

theorem ratOf_false_cast (m : Nat) (e : ℤ) : ((ratOf false m e : ℚ) : ℝ) = m * 2 ^ e := by
  simp [ratOf]

theorem FFmt.recip_fin (f : FFmt) (neg : Bool) {m : Nat} (hm : m ≠ 0) (e : ℤ) :
    f.recip (.fin neg m e) = f.roundMag 1 m (0 - e) + f.signBit neg := by
  rw [FFmt.recip, FFmt.div, if_neg hm, FFmt.signed_eq]
  cases neg <;> rfl

theorem FFmt.recip_rounds {f : FFmt} (hinf : f.hasInf = true) {m : Nat} (hm : m ≠ 0) (e : ℤ) :
    f.Rounds (fun μ => 1 ≤ ratOf false m e * μ) (fun μ => ratOf false m e * μ ≤ 1) (f.roundMag 1 m (0 - e)) := by
  have hX : (0 : ℝ) < m * 2 ^ e := by rw [← ratOf_false_cast]; exact_mod_cast ratOf_false_pos hm e
  have hV : ((1 : ℕ) / m * 2 ^ (0 - e) : ℝ) = 1 / (m * 2 ^ e) := by
    rw [zpow_sub₀ two_ne_zero, zpow_zero, Nat.cast_one, div_mul_div_comm, one_mul]
  have h := FFmt.roundMag_rounds hinf 1 (Nat.pos_of_ne_zero hm) (0 - e)
  rw [hV] at h
  refine h.congr hinf (fun μ _ => ?_) (fun μ _ => ?_)
  · rw [div_le_iff₀' hX, ← ratOf_false_cast]; exact_mod_cast Iff.rfl
  · rw [le_div_iff₀' hX, ← ratOf_false_cast]; exact_mod_cast Iff.rfl

/-! ## Values in a cell of a finer grid -/

/-- A value strictly between neighbours of a grid lies below a point of the grid when the lower neighbour does. -/
theorem lt_grid_iff {U V : ℝ} (hU : 0 < U) {c : ℤ} (hlo : c * U < V) (hhi : V < (c + 1) * U) (j : ℤ) : V < j * U ↔ c < j := by
  constructor
  · intro h
    exact_mod_cast lt_of_mul_lt_mul_right (hlo.trans h) hU.le
  · intro h
    have : (c + 1 : ℝ) ≤ j := by exact_mod_cast h
    exact hhi.trans_le (mul_le_mul_of_nonneg_right this hU.le)

theorem ne_grid {U V : ℝ} (hU : 0 < U) {c : ℤ} (hlo : c * U < V) (hhi : V < (c + 1) * U) (j : ℤ) : V ≠ j * U := by
  rintro rfl
  have h1 : c < j := by exact_mod_cast lt_of_mul_lt_mul_right hlo hU.le
  have h2 : j < c + 1 := by exact_mod_cast lt_of_mul_lt_mul_right hhi hU.le
  omega

/-- Values in the same cell of a grid that refines half the unit of their binade round alike. -/
theorem FFmt.NearestAt.of_cell {f : FFmt} {V W U : ℝ} {k r t : Nat} {c : ℤ} (h : f.NearestAt W k r) (hU : 0 < U)
    (hu : (f.ulp k : ℝ) = 2 * (t * U)) (hVlo : c * U < V) (hVhi : V < (c + 1) * U) (hWlo : c * U < W) (hWhi : W < (c + 1) * U) :
    f.NearestAt V k r := by
  have hmul : ∀ j : ℤ, (j : ℝ) * f.ulp k = 2 * (((j * t : ℤ) : ℝ) * U) := fun j => by rw [hu]; push_cast; ring
  have hlt : ∀ j : ℤ, 2 * V < j * f.ulp k ↔ 2 * W < j * f.ulp k := fun j => by
    rw [hmul, mul_lt_mul_iff_right₀ two_pos, mul_lt_mul_iff_right₀ two_pos, lt_grid_iff hU hVlo hVhi, lt_grid_iff hU hWlo hWhi]
  have hge : ∀ j : ℤ, j * f.ulp k ≤ 2 * V ↔ j * f.ulp k ≤ 2 * W := fun j => by rw [← not_lt, ← not_lt, hlt]
  have hne : ∀ j : ℤ, 2 * V ≠ j * f.ulp k := fun j => by
    rw [hmul]
    exact fun e => ne_grid hU hVlo hVhi _ (mul_left_cancel₀ two_ne_zero e)
  have hneW : ∀ j : ℤ, 2 * W ≠ j * f.ulp k := fun j => by
    rw [hmul]
    exact fun e => ne_grid hU hWlo hWhi _ (mul_left_cancel₀ two_ne_zero e)
  have hnormal := hge (2 ^ (f.params.p + 1))
  have hbelow := hlt (2 ^ (f.params.p + 2))
  have hlower := hge (2 * r - 1)
  have hupper := hlt (2 * r + 1)
  have htie1 := hne (2 * r - 1)
  have htie2 := hne (2 * r + 1)
  have hstrict := hneW (2 * r + 1)
  push_cast at hnormal hbelow hlower hupper htie1 htie2 hstrict
  exact ⟨h.normal.imp_right hnormal.mpr, hbelow.mpr h.below, hlower.mpr h.lower, (hupper.mpr (h.upper.lt_of_ne hstrict)).le,
    fun e => absurd e (not_or.mpr ⟨htie1, htie2⟩)⟩

/-! ## Reciprocal root -/

/-- Twice the root of 2^N / m, an inexact root taken half a unit up: the digits that the model rounds. -/
def rsqrtDigits (N m : Nat) : Nat :=
  let r := isqrt ((1 <<< N) / m)
  if r * r * m = 1 <<< N then 2 * r else 2 * r + 1

/-- The significand at an even exponent. -/
theorem FFmt.rsqrt_fin (f : FFmt) {m : Nat} (hm : m ≠ 0) (hlt : m < 2 ^ 64) (e : ℤ) : ∃ (n : Nat) (c : ℤ),
    n ≠ 0 ∧ n < 2 ^ 65 ∧ (n * 2 ^ (2 * c) : ℝ) = m * 2 ^ e ∧ f.rsqrt (.fin false m e) = f.roundMag (rsqrtDigits 400 n) 1 (-c - 201) := by
  by_cases he : e % 2 = 0
  · refine ⟨m, e / 2, hm, by omega, by rw [Int.mul_ediv_cancel' (Int.dvd_of_emod_eq_zero he)], ?_⟩
    simp only [FFmt.rsqrt, if_neg hm, Bool.false_eq_true, if_false, if_pos he]
    rfl
  · have hodd : e - 1 = 2 * ((e - 1) / 2) := by omega
    refine ⟨2 * m, (e - 1) / 2, by omega, by omega, ?_, ?_⟩
    · rw [← hodd, zpow_sub_one₀ two_ne_zero]
      push_cast
      ring
    · simp only [FFmt.rsqrt, if_neg hm, Bool.false_eq_true, if_false, if_neg he]
      rfl

/-- The root of 2^N / m, and the integer below it. -/
theorem rsqrt_cell {N m : Nat} {v : ℝ} (hm : 0 < m) (hv : 0 < v) (hroot : v ^ 2 * m = 2 ^ N) :
    let r := ((2 ^ N) / m).sqrt
    (r : ℝ) ≤ v ∧ v < r + 1 ∧ (v = r ↔ r * r * m = 2 ^ N) := by
  intro r
  have hm' : (0 : ℝ) < m := by exact_mod_cast hm
  have hlo : r ^ 2 * m ≤ 2 ^ N := (Nat.le_div_iff_mul_le hm).mp (Nat.sqrt_le' _)
  have hhi : 2 ^ N < (r + 1) ^ 2 * m := (Nat.div_lt_iff_lt_mul hm).mp (Nat.lt_succ_sqrt' _)
  have hlo' : (r ^ 2 * m : ℝ) ≤ v ^ 2 * m := by rw [hroot]; exact_mod_cast hlo
  have hhi' : (v ^ 2 * m : ℝ) < (r + 1) ^ 2 * m := by rw [hroot]; exact_mod_cast hhi
  refine ⟨?_, ?_, ?_⟩
  · exact (pow_le_pow_iff_left₀ (Nat.cast_nonneg r) hv.le two_ne_zero).mp (le_of_mul_le_mul_right hlo' hm')
  · exact lt_of_pow_lt_pow_left₀ 2 (by positivity) (lt_of_mul_lt_mul_right hhi' hm'.le)
  · constructor
    · rintro rfl
      have : (r ^ 2 * m : ℝ) = 2 ^ N := hroot
      rw [← pow_two]
      exact_mod_cast this
    · intro h
      have h' : (r ^ 2 * m : ℝ) = v ^ 2 * m := by rw [hroot]; rw [← pow_two] at h; exact_mod_cast h
      exact ((pow_left_inj₀ (Nat.cast_nonneg r) hv.le two_ne_zero).mp (mul_right_cancel₀ hm'.ne' h')).symm

theorem rsqrtDigits_eq {N m : Nat} (hN : N < 3000) :
    rsqrtDigits N m = let r := ((2 ^ N) / m).sqrt; if r * r * m = 2 ^ N then 2 * r else 2 * r + 1 := by
  have hroot : isqrt (2 ^ N / m) = (2 ^ N / m).sqrt :=
    isqrt_eq_sqrt (k := N + 1) ((Nat.div_le_self ..).trans_lt (Nat.pow_lt_pow_right (by decide) N.lt_succ_self)) hN
  simp only [rsqrtDigits, Nat.shiftLeft_eq, Nat.one_mul, hroot]

/-- Half a unit of the last place that is wider than U is a multiple of U. -/
theorem FFmt.exists_ulp_eq (f : FFmt) {k : Nat} {z : ℤ} (h : (2 : ℝ) ^ z < f.ulp k) : ∃ t : Nat, (f.ulp k : ℝ) = 2 * (t * 2 ^ z) := by
  have hulp : (f.ulp k : ℝ) = 2 ^ ((k : ℤ) + 1 - f.params.bias - f.params.p) := by rw [FFmt.ulp]; push_cast; rfl
  rw [hulp] at h ⊢
  have hz := (zpow_lt_zpow_iff_right₀ one_lt_two).mp h
  obtain ⟨i, hi⟩ := Int.eq_ofNat_of_zero_le (by omega : 0 ≤ (k : ℤ) + 1 - f.params.bias - f.params.p - z - 1)
  refine ⟨2 ^ i, ?_⟩
  rw [show (k : ℤ) + 1 - f.params.bias - f.params.p = 1 + (i + z) by omega, zpow_add₀ two_ne_zero, zpow_add₀ two_ne_zero, zpow_one,
    zpow_natCast, Nat.cast_pow, Nat.cast_ofNat]

/-- The root has more digits than any format keeps. -/
theorem pow_le_sqrt_div {N n p : Nat} (hn : 0 < n) (hlt : n < 2 ^ 65) (hN : 2 * p + 65 ≤ N) : 2 ^ p ≤ (2 ^ N / n).sqrt := by
  rw [Nat.le_sqrt', Nat.le_div_iff_mul_le hn]
  calc (2 ^ p) ^ 2 * n ≤ (2 ^ p) ^ 2 * 2 ^ 65 := Nat.mul_le_mul_left _ hlt.le
    _ = 2 ^ (p * 2 + 65) := by rw [← Nat.pow_mul, ← Nat.pow_add]
    _ ≤ 2 ^ N := Nat.pow_le_pow_right two_pos (by omega)

/-- `FFmt.rsqrt` rounds the positive V whose square is the reciprocal. -/
theorem FFmt.rsqrt_rounds_root {f : FFmt} (hinf : f.hasInf = true) {m : Nat} (hm : m ≠ 0) (hlt : m < 2 ^ 64) (e : ℤ) {V : ℝ} (hV : 0 < V)
    (hroot : V ^ 2 * (m * 2 ^ e) = 1) : f.Rounds (fun μ => V ≤ μ) (fun μ => (μ : ℝ) ≤ V) (f.rsqrt (.fin false m e)) := by
  obtain ⟨n, c, hn, hn65, hX, heq⟩ := f.rsqrt_fin hm hlt e
  have hUpos : (0 : ℝ) < 2 ^ (-c - 200) := zpow_pos two_pos _
  have hhalf : (2 * 2 ^ (-c - 201) : ℝ) = 2 ^ (-c - 200) := by
    rw [← zpow_one_add₀ two_ne_zero]; congr 1; ring
  have hv2 : (V / 2 ^ (-c - 200)) ^ 2 * n = 2 ^ 400 := by
    have hU2 : ((2 : ℝ) ^ (-c - 200)) ^ 2 * 2 ^ 400 * 2 ^ (2 * c) = 1 := by
      rw [← zpow_natCast, ← zpow_natCast, ← zpow_mul, ← zpow_add₀ two_ne_zero, ← zpow_add₀ two_ne_zero, ← zpow_zero (2 : ℝ)]
      congr 1
      push_cast
      ring
    have hpow : (0 : ℝ) < 2 ^ (2 * c) := zpow_pos two_pos _
    rw [← hX, ← mul_assoc] at hroot
    rw [div_pow, div_mul_eq_mul_div, div_eq_iff (pow_pos hUpos 2).ne']
    refine mul_right_cancel₀ hpow.ne' ?_
    rw [hroot, mul_comm (2 ^ 400 : ℝ), hU2]
  obtain ⟨hlo, hhi, hexact⟩ := rsqrt_cell (Nat.pos_of_ne_zero hn) (div_pos hV hUpos) hv2
  rw [heq, rsqrtDigits_eq (by decide)]
  simp only
  set r := (2 ^ 400 / n).sqrt with hr
  split
  next hsq =>
    have hval : ((2 * r : ℕ) / (1 : ℕ) * 2 ^ (-c - 201) : ℝ) = V := by
      have hVr := (div_eq_iff hUpos.ne').mp (hexact.mpr hsq)
      rw [hVr, ← hhalf]
      push_cast
      ring
    have h := FFmt.roundMag_rounds hinf (2 * r) one_pos (-c - 201)
    rwa [hval] at h
  next hsq =>
    obtain ⟨k, q, hpat, hnear⟩ := f.roundMag_nearestAt (2 * r + 1) one_pos (-c - 201)
    have hW : ((2 * r + 1 : ℕ) / (1 : ℕ) * 2 ^ (-c - 201) : ℝ) = r * 2 ^ (-c - 200) + 2 ^ (-c - 201) := by
      rw [← hhalf]; push_cast; ring
    rw [hW] at hnear
    have hpos : (0 : ℝ) < 2 ^ (-c - 201) := zpow_pos two_pos _
    have hbig : 2 ^ (f.params.p + 1) ≤ r := by
      have hp : f.params.p ≤ 52 := by cases f <;> decide
      exact pow_le_sqrt_div (Nat.pos_of_ne_zero hn) hn65 (by omega)
    have hulp : (2 : ℝ) ^ (-c - 200) < f.ulp k := by
      have hbig' : (2 ^ (f.params.p + 1) : ℝ) ≤ r := by exact_mod_cast hbig
      have hbelow := hnear.below
      have hdouble : (2 ^ (f.params.p + 2) : ℝ) = 2 * 2 ^ (f.params.p + 1) := pow_succ' ..
      have hscaled := mul_le_mul_of_nonneg_right hbig' hUpos.le
      refine lt_of_mul_lt_mul_left (a := 2 ^ (f.params.p + 2)) (hbelow.trans_le' ?_) (by positivity)
      rw [hdouble]
      linarith only [hscaled, hpos]
    obtain ⟨t, ht⟩ := f.exists_ulp_eq hulp
    have hVlo : (r : ℝ) * 2 ^ (-c - 200) < V := (lt_div_iff₀ hUpos).mp (lt_of_le_of_ne hlo fun e => hsq (hexact.mp e.symm))
    have hVhi : V < (r + 1 : ℝ) * 2 ^ (-c - 200) := (div_lt_iff₀ hUpos).mp hhi
    rw [hpat]
    exact (hnear.of_cell (c := r) hUpos ht (by exact_mod_cast hVlo) (by exact_mod_cast hVhi) (by push_cast; linarith)
      (by push_cast; linarith)).nearest.rounds hinf

theorem FFmt.rsqrt_rounds {f : FFmt} (hinf : f.hasInf = true) {m : Nat} (hm : m ≠ 0) (hlt : m < 2 ^ 64) (e : ℤ) :
    f.Rounds (fun μ => 1 ≤ ratOf false m e * (μ * μ)) (fun μ => ratOf false m e * (μ * μ) ≤ 1) (f.rsqrt (.fin false m e)) := by
  have hX : (0 : ℝ) < m * 2 ^ e := by rw [← ratOf_false_cast]; exact_mod_cast ratOf_false_pos hm e
  have hV : 0 < (√(m * 2 ^ e : ℝ))⁻¹ := inv_pos.mpr (Real.sqrt_pos.mpr hX)
  have hroot : (√(m * 2 ^ e : ℝ))⁻¹ ^ 2 * (m * 2 ^ e) = 1 := by
    rw [inv_pow, Real.sq_sqrt hX.le, inv_mul_cancel₀ hX.ne']
  have hcmp : ∀ μ : ℚ, ((ratOf false m e * (μ * μ) : ℚ) : ℝ) = (μ : ℝ) ^ 2 * (m * 2 ^ e) := fun μ => by
    rw [Rat.cast_mul, ratOf_false_cast]; push_cast; ring
  refine (FFmt.rsqrt_rounds_root hinf hm hlt e hV hroot).congr hinf (fun μ hμ => ?_) (fun μ hμ => ?_)
  · have hμ' : (0 : ℝ) ≤ μ := by exact_mod_cast hμ
    rw [← Rat.cast_le (K := ℝ), hcmp, Rat.cast_one, ← hroot, mul_le_mul_iff_left₀ hX, pow_le_pow_iff_left₀ hV.le hμ' two_ne_zero]
  · have hμ' : (0 : ℝ) ≤ μ := by exact_mod_cast hμ
    rw [← Rat.cast_le (K := ℝ), hcmp, Rat.cast_one, ← hroot, mul_le_mul_iff_left₀ hX, pow_le_pow_iff_left₀ hμ' hV.le two_ne_zero]

end Sys2Proof.Machine
end

section
/-! PROOFS. The power of two that the model forms from square roots (R183). -/

open Sys2Proof Sys2Proof.Machine

namespace Sys2Proof.Machine

/-! ## Roots of two -/

/-- root is 2^c in units of 2^-256, at most two units too small. -/
structure IsRoot (root : Nat) (c : ℝ) : Prop where
  one_le : 2 ^ 256 ≤ root
  le_pow : (root : ℝ) ≤ 2 ^ 256 * (2 : ℝ) ^ c
  pow_le : 2 ^ 256 * (2 : ℝ) ^ c ≤ root + 2

theorem isRoot_two : IsRoot (2 <<< 256) 1 := by
  have h : ((2 <<< 256 : ℕ) : ℝ) = 2 ^ 256 * 2 := by rw [Nat.shiftLeft_eq]; push_cast; ring
  refine ⟨?_, ?_, ?_⟩
  · rw [Nat.shiftLeft_eq]; omega
  · rw [h, Real.rpow_one]
  · rw [h, Real.rpow_one]; linarith

/-- The integer square root loses less than one unit beside half of what its operand had lost: q is the exact root, in units of 1 / B. -/
theorem sqrt_mul_bounds {B root : Nat} {q : ℝ} (hq : 0 ≤ q) (hB : B ≤ root) (hle : (root : ℝ) ≤ B * q ^ 2) (hge : B * q ^ 2 ≤ (root : ℝ) + 2) :
    B ≤ (root * B).sqrt ∧ ((root * B).sqrt : ℝ) ≤ B * q ∧ B * q ≤ (root * B).sqrt + 2 := by
  have hBs : B ≤ (root * B).sqrt := Nat.le_sqrt.mpr (Nat.mul_le_mul_right B hB)
  have hlo : (((root * B).sqrt : ℝ)) ^ 2 ≤ root * B := by exact_mod_cast Nat.sqrt_le' (root * B)
  have hhi : (root * B : ℝ) < ((root * B).sqrt + 1) ^ 2 := by exact_mod_cast Nat.lt_succ_sqrt' (root * B)
  have hBs' : (B : ℝ) ≤ (root * B).sqrt := by exact_mod_cast hBs
  have hB0 : (0 : ℝ) ≤ B := Nat.cast_nonneg B
  generalize (root * B).sqrt = t at *
  refine ⟨hBs, ?_, ?_⟩
  · refine (pow_le_pow_iff_left₀ (Nat.cast_nonneg t) (mul_nonneg hB0 hq) two_ne_zero).mp ?_
    nlinarith
  · refine (pow_le_pow_iff_left₀ (mul_nonneg hB0 hq) (by positivity) two_ne_zero).mp ?_
    nlinarith

theorem mul_two_pow_lt {root a : Nat} (h : root ≤ 2 ^ a * 2) : root * 2 ^ a < 2 ^ (a + 1 + a + 1) := by
  have hpos : 0 < 2 ^ (a + 1 + a) := Nat.two_pow_pos _
  calc root * 2 ^ a ≤ 2 ^ a * 2 * 2 ^ a := Nat.mul_le_mul_right _ h
    _ = 2 ^ (a + 1 + a) := by rw [← Nat.pow_succ, ← Nat.pow_add]
    _ < 2 ^ (a + 1 + a + 1) := by rw [Nat.pow_succ]; omega

/-- Each root of the model is again a root of two. -/
theorem IsRoot.half {root : Nat} {c : ℝ} (h : IsRoot root c) (hc : c ≤ 1) : IsRoot (isqrt (root <<< 256)) (c / 2) := by
  have hsq : ((2 : ℝ) ^ (c / 2)) ^ 2 = 2 ^ c := by
    rw [← Real.rpow_natCast, ← Real.rpow_mul zero_le_two]; congr 1; push_cast; ring
  have htwo : (2 : ℝ) ^ c ≤ 2 := (Real.rpow_le_rpow_of_exponent_le one_le_two hc).trans_eq (Real.rpow_one 2)
  have hlt : root ≤ 2 ^ 256 * 2 := by
    exact_mod_cast h.le_pow.trans (mul_le_mul_of_nonneg_left htwo (by positivity))
  have hroot : isqrt (root <<< 256) = (root * 2 ^ 256).sqrt := by
    rw [Nat.shiftLeft_eq, isqrt_eq_sqrt (mul_two_pow_lt hlt) (by decide)]
  have hle := h.le_pow
  have hge := h.pow_le
  rw [← hsq] at hle hge
  obtain ⟨h1, h2, h3⟩ := sqrt_mul_bounds (B := 2 ^ 256) (Real.rpow_nonneg zero_le_two (c / 2)) h.one_le (by exact_mod_cast hle) (by exact_mod_cast hge)
  rw [hroot]
  exact ⟨h1, by exact_mod_cast h2, by exact_mod_cast h3⟩

/-! ## The product of the roots -/

/-- A product in units of 1 / B, cut to whole units, with a root that is at most two units too small. -/
theorem mul_div_bounds {B acc root : Nat} {q : ℝ} (hB : 0 < B) (hacc : B ≤ acc) (hroot : B ≤ root) (hle : (root : ℝ) ≤ B * q)
    (hge : B * q ≤ (root : ℝ) + 2) :
    B ≤ acc * root / B ∧ ((acc * root / B : ℕ) : ℝ) ≤ acc * q ∧ acc * q * (1 - 3 / B) ≤ (acc * root / B : ℕ) := by
  have hB' : (0 : ℝ) < B := by exact_mod_cast hB
  have hacc' : (B : ℝ) ≤ acc := by exact_mod_cast hacc
  have hroot' : (B : ℝ) ≤ root := by exact_mod_cast hroot
  have hlo : (((acc * root / B : ℕ) : ℝ)) * B ≤ acc * root := by exact_mod_cast Nat.div_mul_le_self (acc * root) B
  have hhi : (acc * root : ℝ) < ((acc * root / B : ℕ) + 1) * B := by
    exact_mod_cast (Nat.lt_mul_div_succ (acc * root) hB).trans_eq (Nat.mul_comm ..)
  have hone : 1 ≤ q := by
    refine le_of_mul_le_mul_left ?_ hB'
    linarith
  refine ⟨(Nat.le_div_iff_mul_le hB).mpr (Nat.mul_le_mul hacc hroot), ?_, ?_⟩
  · refine le_of_mul_le_mul_right (hlo.trans ?_) hB'
    nlinarith
  · generalize ((acc * root / B : ℕ) : ℝ) = t at *
    have hexpand : acc * q * (1 - 3 / B) * B = acc * (B * q) - 3 * (acc * q) := by field_simp
    refine le_of_mul_le_mul_right ?_ hB'
    rw [hexpand]
    nlinarith

/-- After n bits the product is acc·2^(c·fr/2^n), each bit losing at most 3 units in 2^256. -/
theorem exp2Frac_bounds (n fr : Nat) {root acc : Nat} {c : ℝ} (h : IsRoot root c) (hc : c ≤ 1) (hacc : 2 ^ 256 ≤ acc) :
    (exp2Frac n fr root acc : ℝ) ≤ acc * (2 : ℝ) ^ (c * ((fr % 2 ^ n : ℕ) / 2 ^ n)) ∧
      acc * (2 : ℝ) ^ (c * ((fr % 2 ^ n : ℕ) / 2 ^ n)) * (1 - 3 / 2 ^ 256) ^ n ≤ exp2Frac n fr root acc := by
  induction n generalizing root acc c with
  | zero => simp [exp2Frac, Nat.mod_one]
  | succ n ih =>
    have hhalf := h.half hc
    have hc' : c / 2 ≤ 1 := by linarith
    have hloss0 : (0 : ℝ) ≤ 1 - 3 / 2 ^ 256 := by norm_num
    have hloss1 : (1 - 3 / 2 ^ 256 : ℝ) ≤ 1 := by norm_num
    have hmod : fr % 2 ^ (n + 1) = fr % 2 ^ n + 2 ^ n * (bit fr n).toNat := by
      rw [bit, Nat.toNat_testBit, Nat.mod_pow_succ]
    rw [exp2Frac, hmod]
    cases hbit : bit fr n with
    | false =>
      have hexp : c * ((fr % 2 ^ n + 2 ^ n * false.toNat : ℕ) / 2 ^ (n + 1)) = c / 2 * ((fr % 2 ^ n : ℕ) / 2 ^ n) := by
        rw [Bool.toNat_false, Nat.mul_zero, Nat.add_zero, pow_succ]; field_simp
      obtain ⟨hup, hlow⟩ := ih hhalf hc' hacc
      rw [hexp, if_neg Bool.false_ne_true]
      refine ⟨hup, hlow.trans' (mul_le_mul_of_nonneg_left ?_ (by positivity))⟩
      exact pow_le_pow_of_le_one hloss0 hloss1 (Nat.le_succ n)
    | true =>
      have hexp : c * ((fr % 2 ^ n + 2 ^ n * true.toNat : ℕ) / 2 ^ (n + 1)) = c / 2 + c / 2 * ((fr % 2 ^ n : ℕ) / 2 ^ n) := by
        rw [Bool.toNat_true, Nat.mul_one, pow_succ]; push_cast; field_simp; ring
      obtain ⟨hacc', hle, hge⟩ := mul_div_bounds (B := 2 ^ 256) (Nat.two_pow_pos 256) hacc hhalf.one_le
        (by exact_mod_cast hhalf.le_pow) (by exact_mod_cast hhalf.pow_le)
      obtain ⟨hup, hlow⟩ := ih hhalf hc' hacc'
      rw [hexp, if_pos rfl, Real.rpow_add two_pos, Nat.shiftRight_eq_div_pow]
      generalize acc * isqrt (root <<< 256) / 2 ^ 256 = acc' at *
      generalize exp2Frac n fr (isqrt (root <<< 256)) acc' = q at *
      rw [← mul_assoc]
      have hE : (0 : ℝ) < 2 ^ (c / 2 * ((fr % 2 ^ n : ℕ) / 2 ^ n)) := Real.rpow_pos_of_pos two_pos _
      generalize (2 : ℝ) ^ (c / 2 * ((fr % 2 ^ n : ℕ) / 2 ^ n)) = E at *
      refine ⟨hup.trans (mul_le_mul_of_nonneg_right hle hE.le), hlow.trans' ?_⟩
      have hloss := mul_le_mul_of_nonneg_right hge (mul_nonneg hE.le (pow_nonneg hloss0 n))
      rw [pow_succ]
      push_cast at hloss
      linarith only [hloss]

end Sys2Proof.Machine
end

section
/-! PROOFS. The power of two, rounded to P12 (R183). -/

open Sys2Proof Sys2Proof.Machine

namespace Sys2Proof.Machine

/-! ## The cases of the exponent -/

theorem ratOf_of_nonneg (neg : Bool) (m : Nat) {e : ℤ} (he : 0 ≤ e) : ratOf neg m e = alignTo 0 neg m e := by
  obtain ⟨k, rfl⟩ := Int.eq_ofNat_of_zero_le he
  cases neg <;> simp [ratOf, alignTo, Nat.shiftLeft_eq]

theorem ratOf_of_neg (neg : Bool) (m : Nat) {e : ℤ} (he : e < 0) :
    ratOf neg m e = ((if neg then -(m : ℤ) else m : ℤ) : ℚ) / (2 ^ (-e).toNat : ℕ) := by
  obtain ⟨k, hk⟩ := Int.eq_ofNat_of_zero_le (by omega : 0 ≤ -e)
  obtain rfl : e = -(k : ℤ) := by omega
  cases neg <;> simp [ratOf, div_eq_mul_inv]

theorem FFmt.round_one (f : FFmt) (i : ℤ) : f.round (.fin false 1 i) = f.roundMag 1 1 i := by
  rw [FFmt.round, FFmt.signed_eq]
  rfl

theorem pow_twelve_le_ratOf_of_nonneg {m : Nat} (hm : m ≠ 0) {e : ℤ} (he : 0 ≤ e) (h : 12 < e ∨ 2 ^ 12 ≤ m <<< e.toNat) :
    2 ^ 12 ≤ ratOf false m e := by
  have hbig : 2 ^ 12 ≤ m * 2 ^ e.toNat := by
    rw [Nat.shiftLeft_eq] at h
    obtain h12 | hge := h
    · have hpow : 2 ^ 12 ≤ 2 ^ e.toNat := Nat.pow_le_pow_right two_pos (by omega)
      exact hpow.trans (Nat.le_mul_of_pos_left _ (Nat.pos_of_ne_zero hm))
    · exact hge
  have hval : ratOf false m e = (m * 2 ^ e.toNat : ℕ) := by
    rw [ratOf_of_nonneg false m he]
    simp [alignTo, Nat.shiftLeft_eq]
  rw [hval]
  exact_mod_cast hbig

theorem pow_twelve_le_ratOf_of_neg {m : Nat} {e : ℤ} (he : e < 0) (h : 2 ^ 12 ≤ m >>> (-e).toNat) : 2 ^ 12 ≤ ratOf false m e := by
  rw [Nat.shiftRight_eq_div_pow, Nat.le_div_iff_mul_le (Nat.two_pow_pos _)] at h
  rw [ratOf_of_neg false m he, if_neg Bool.false_ne_true, le_div_iff₀ (by exact_mod_cast Nat.two_pow_pos _)]
  exact_mod_cast h

/-- The power saturates, is an integer power, or is a product of roots at an integer power. -/
theorem FFmt.exp2_fin (f : FFmt) (neg : Bool) (m : Nat) (e : ℤ) :
    (2 ^ 12 ≤ ratOf false m e ∧ f.exp2 (.fin neg m e) = if neg then 0 else f.round (.inf false)) ∨
    (∃ i : ℤ, ratOf neg m e = i ∧ f.exp2 (.fin neg m e) = f.roundMag 1 1 i) ∨
    ∃ (fr : Nat) (i : ℤ), e < 0 ∧ 0 < fr ∧ fr < 2 ^ (-e).toNat ∧ ratOf neg m e = i + fr / (2 ^ (-e).toNat : ℕ) ∧
      f.exp2 (.fin neg m e) = f.roundMag (2 * exp2Frac (-e).toNat fr (2 <<< 256) (1 <<< 256) + 1) 1 (i - 257) := by
  by_cases hm : m = 0
  · subst hm
    exact .inr (.inl ⟨0, by simp [ratOf], by rw [FFmt.exp2, if_pos rfl, f.round_one]⟩)
  by_cases he : 0 ≤ e
  · by_cases hsat : 12 < e ∨ 2 ^ 12 ≤ m <<< e.toNat
    · exact .inl ⟨pow_twelve_le_ratOf_of_nonneg hm he hsat, by rw [FFmt.exp2, if_neg hm, if_pos he, if_pos hsat]⟩
    · exact .inr (.inl ⟨_, ratOf_of_nonneg neg m he, by rw [FFmt.exp2, if_neg hm, if_pos he, if_neg hsat]⟩)
  · have hneg : e < 0 := by omega
    by_cases hsat : 2 ^ 12 ≤ m >>> (-e).toNat
    · exact .inl ⟨pow_twelve_le_ratOf_of_neg hneg hsat, by rw [FFmt.exp2, if_neg hm, if_neg he, if_pos hsat]⟩
    set x : ℤ := if neg then -(m : ℤ) else m with hx
    set D : ℕ := 2 ^ (-e).toNat with hD
    have hexp : f.exp2 (.fin neg m e) = if (x % (D : ℤ)).toNat = 0 then f.roundMag 1 1 (x / D)
        else f.roundMag (2 * exp2Frac (-e).toNat (x % (D : ℤ)).toNat (2 <<< 256) (1 <<< 256) + 1) 1 (x / D - 257) := by
      rw [FFmt.exp2, if_neg hm, if_neg he, if_neg hsat]
    have hDpos : (0 : ℤ) < D := by exact_mod_cast Nat.two_pow_pos _
    have hmod : ((x % (D : ℤ)).toNat : ℤ) = x % D := Int.toNat_of_nonneg (Int.emod_nonneg _ hDpos.ne')
    have hlt : (x % (D : ℤ)).toNat < D := by exact_mod_cast hmod.trans_lt (Int.emod_lt_of_pos x hDpos)
    have hval : ratOf neg m e = (x / D : ℤ) + ((x % (D : ℤ)).toNat : ℚ) / D := by
      have hsplit : (x : ℚ) = D * (x / D : ℤ) + ((x % (D : ℤ)).toNat : ℤ) := by
        rw [hmod]
        exact_mod_cast (Int.mul_ediv_add_emod x D).symm
      have hD0 : (D : ℚ) ≠ 0 := by exact_mod_cast hDpos.ne'
      rw [ratOf_of_neg neg m hneg, ← hx, ← hD, hsplit]
      field_simp
      push_cast
      rfl
    by_cases hfr : (x % (D : ℤ)).toNat = 0
    · refine .inr (.inl ⟨x / D, ?_, hexp.trans (if_pos hfr)⟩)
      rw [hval, hfr, Nat.cast_zero, zero_div, add_zero]
    · exact .inr (.inr ⟨(x % (D : ℤ)).toNat, x / D, hneg, Nat.pos_of_ne_zero hfr, hlt, hval, hexp.trans (if_neg hfr)⟩)

/-! ## Its rounding -/

theorem FFmt.rounds_zero {f : FFmt} (hinf : f.hasInf = true) {V : ℝ} (h0 : 0 ≤ V) (h : 2 * V ≤ f.ulp 0) :
    f.Rounds (fun μ => V ≤ μ) (fun μ => (μ : ℝ) ≤ V) 0 := by
  have hu : (0 : ℝ) < f.ulp 0 := by exact_mod_cast f.ulp_pos 0
  have hp : (2 : ℝ) ≤ 2 ^ (f.params.p + 2) := le_self_pow₀ one_le_two (Nat.succ_ne_zero _)
  have hnear : f.NearestAt V 0 0 := by
    refine ⟨.inl rfl, ?_, ?_, ?_, fun _ => rfl⟩ <;> push_cast <;> nlinarith
  have hr := hnear.nearest.rounds hinf
  rwa [Nat.zero_mul, Nat.zero_add, show f.clamp 0 = 0 from if_pos (Nat.zero_le _)] at hr

theorem FFmt.rounds_infPattern {f : FFmt} (hinf : f.hasInf = true) {V : ℝ} (h : f.overflow ≤ V) :
    f.Rounds (fun μ => V ≤ μ) (fun μ => (μ : ℝ) ≤ V) f.infPattern :=
  ⟨fun _ _ => rfl, fun hfin => absurd ⟨hinf, h⟩ hfin⟩

/-- A magnitude known to an interval. -/
theorem FFmt.Rounds.of_interval {f : FFmt} (hinf : f.hasInf = true) {V lo hi : ℝ} {y : Nat}
    (h : f.Rounds (fun μ => V ≤ μ) (fun μ => (μ : ℝ) ≤ V) y) (hlo : lo ≤ V) (hhi : V ≤ hi) :
    (f.overflow ≤ lo → y = f.infPattern) ∧ (hi < f.overflow → f.Between (fun μ => lo ≤ (μ : ℝ)) (fun μ => (μ : ℝ) ≤ hi) y) := by
  refine ⟨fun ho => h.1 hinf (ho.trans hlo), fun ho => ?_⟩
  obtain ⟨⟨hmax, hbetween⟩, -⟩ := h.2 fun hfin => (hhi.trans_lt ho).not_ge hfin.2
  exact ⟨hmax, fun b hb => ⟨fun hlt => hlo.trans ((hbetween b hb).1 hlt), fun hlt => ((hbetween b hb).2 hlt).trans hhi⟩⟩

theorem p12_overflow_le : FFmt.p12.overflow ≤ 2 ^ 128 := by
  norm_num [FFmt.overflow, FFmt.params]

theorem p12_ulp_zero : FFmt.p12.ulp 0 = 2 ^ (-137 : ℤ) := rfl

theorem FFmt.roundMag_one_rounds {f : FFmt} (hinf : f.hasInf = true) (num : Nat) (e : ℤ) :
    f.Rounds (fun μ => (num * 2 ^ e : ℝ) ≤ μ) (fun μ => (μ : ℝ) ≤ num * 2 ^ e) (f.roundMag num 1 e) := by
  have h := FFmt.roundMag_rounds hinf num one_pos e
  rwa [Nat.cast_one, div_one] at h

theorem ratOf_neg (neg : Bool) (m : Nat) (e : ℤ) : ratOf neg m e = if neg then -ratOf false m e else ratOf false m e := by
  cases neg <;> simp [ratOf]

/-- Where the exponent saturates, so does the power. -/
theorem p12_rounds_saturated {x : ℚ} (h : 2 ^ 12 ≤ x) (neg : Bool) : 
    FFmt.p12.Rounds (fun μ => (2 : ℝ) ^ ((if neg then -x else x : ℚ) : ℝ) ≤ μ) (fun μ => (μ : ℝ) ≤ (2 : ℝ) ^ ((if neg then -x else x : ℚ) : ℝ))
      (if neg then 0 else FFmt.p12.round (.inf false)) := by
  have hx : (2 ^ 12 : ℝ) ≤ x := by exact_mod_cast h
  cases neg with
  | false =>
    have hpow : (2 : ℝ) ^ (128 : ℝ) ≤ 2 ^ (x : ℝ) := Real.rpow_le_rpow_of_exponent_le one_le_two (hx.trans' (by norm_num))
    have hover : (FFmt.p12.overflow : ℝ) ≤ 2 ^ (128 : ℝ) := by
      rw [Real.rpow_ofNat]
      exact_mod_cast p12_overflow_le
    exact FFmt.rounds_infPattern rfl (hover.trans hpow)
  | true =>
    refine FFmt.rounds_zero rfl (Real.rpow_nonneg zero_le_two _) ?_
    have hpow : (2 : ℝ) ^ ((-x : ℚ) : ℝ) ≤ 2 ^ ((-138 : ℤ) : ℝ) :=
      Real.rpow_le_rpow_of_exponent_le one_le_two (by push_cast; linarith)
    rw [Real.rpow_intCast] at hpow
    rw [p12_ulp_zero]
    push_cast
    calc 2 * (2 : ℝ) ^ ((if true then -x else x : ℚ) : ℝ) ≤ 2 * 2 ^ (-138 : ℤ) := mul_le_mul_of_nonneg_left hpow zero_le_two
      _ = 2 ^ (-137 : ℤ) := by rw [← zpow_one_add₀ two_ne_zero]; rfl

/-- A number of whole units, half a unit up. -/
theorem half_unit_up_bounds {R A B d : ℝ} (hB : 0 < B) (hR : 1 ≤ R) (hd : 1 ≤ 2 * (d * B)) (hup : A ≤ B * R) (hlow : B * R * (1 - d) ≤ A) :
    R * (1 - d) ≤ (2 * A + 1) / (2 * B) ∧ (2 * A + 1) / (2 * B) ≤ R * (1 + d) := by
  constructor
  · rw [le_div_iff₀ (by positivity)]
    linarith only [hlow]
  · rw [div_le_iff₀ (by positivity)]
    nlinarith

/-- The product of roots, half a unit up, is the power, to within 2^-200 of it. -/
theorem exp2Frac_near_pow {n fr : Nat} (hn : n ≤ 1100) (hfr : fr < 2 ^ n) :
    (2 : ℝ) ^ ((fr : ℝ) / 2 ^ n) * ((1 : ℝ) - (2 : ℝ) ^ (-200 : ℤ)) ≤ (2 * (exp2Frac n fr (2 <<< 256) (1 <<< 256) : ℝ) + 1) / (2 * 2 ^ 256) ∧
      (2 * (exp2Frac n fr (2 <<< 256) (1 <<< 256) : ℝ) + 1) / (2 * 2 ^ 256) ≤ (2 : ℝ) ^ ((fr : ℝ) / 2 ^ n) * (1 + 2 ^ (-200 : ℤ)) := by
  have hstart : (1 <<< 256 : ℕ) = 2 ^ 256 := by rw [Nat.shiftLeft_eq, Nat.one_mul]
  obtain ⟨hup, hlow⟩ := exp2Frac_bounds n fr isRoot_two le_rfl hstart.ge
  rw [one_mul, Nat.mod_eq_of_lt hfr, hstart, Nat.cast_pow, Nat.cast_ofNat] at hup hlow
  rw [hstart]
  have hR : (1 : ℝ) ≤ 2 ^ ((fr : ℝ) / 2 ^ n) := Real.one_le_rpow one_le_two (div_nonneg (Nat.cast_nonneg _) (by positivity))
  have hn' : (n : ℝ) ≤ 1100 := by exact_mod_cast hn
  have hloss : 1 - 2 ^ (-200 : ℤ) ≤ (1 - 3 / 2 ^ 256 : ℝ) ^ n := by
    have h := one_add_mul_le_pow (a := (-3 / 2 ^ 256 : ℝ)) (by norm_num) n
    rw [neg_div, ← sub_eq_add_neg] at h
    refine h.trans' ?_
    norm_num
    linarith only [hn']
  exact half_unit_up_bounds (by positivity) hR (by norm_num) hup
    (hlow.trans' (mul_le_mul_of_nonneg_left hloss (mul_nonneg (by positivity) (hR.trans' zero_le_one))))

/-- `FFmt.exp2` rounds a value within 2^-200 of the power. -/
theorem p12_exp2_rounds (neg : Bool) (m : Nat) {e : ℤ} (he : -1100 ≤ e) :
    let P := (2 : ℝ) ^ ((ratOf neg m e : ℚ) : ℝ)
    ∃ V, P * (1 - 2 ^ (-200 : ℤ)) ≤ V ∧ V ≤ P * (1 + 2 ^ (-200 : ℤ)) ∧
      FFmt.p12.Rounds (fun μ => V ≤ μ) (fun μ => (μ : ℝ) ≤ V) (FFmt.p12.exp2 (.fin neg m e)) := by
  intro P
  have hP : 0 < P := Real.rpow_pos_of_pos two_pos _
  have hexact : P * (1 - 2 ^ (-200 : ℤ)) ≤ P ∧ P ≤ P * (1 + 2 ^ (-200 : ℤ)) := by
    have hδ : (0 : ℝ) < 2 ^ (-200 : ℤ) := zpow_pos two_pos _
    constructor <;> nlinarith
  obtain ⟨hsat, heq⟩ | ⟨i, hi, heq⟩ | ⟨fr, i, hneg, -, hlt, hx, heq⟩ := FFmt.p12.exp2_fin neg m e
  · refine ⟨P, hexact.1, hexact.2, ?_⟩
    have h := p12_rounds_saturated hsat neg
    rwa [← ratOf_neg, ← heq] at h
  · refine ⟨P, hexact.1, hexact.2, ?_⟩
    have h := FFmt.roundMag_one_rounds (f := .p12) rfl 1 i
    have hPi : P = (1 : ℕ) * 2 ^ i := by
      change (2 : ℝ) ^ ((ratOf neg m e : ℚ) : ℝ) = _
      rw [hi, Rat.cast_intCast, Real.rpow_intCast, Nat.cast_one, one_mul]
    rwa [← hPi, ← heq] at h
  · obtain ⟨hlo, hhi⟩ := exp2Frac_near_pow (by omega : (-e).toNat ≤ 1100) hlt
    have h := FFmt.roundMag_one_rounds (f := .p12) rfl (2 * exp2Frac (-e).toNat fr (2 <<< 256) (1 <<< 256) + 1) (i - 257)
    rw [← heq] at h
    have hPi : P = 2 ^ ((fr : ℝ) / 2 ^ (-e).toNat) * 2 ^ i := by
      change (2 : ℝ) ^ ((ratOf neg m e : ℚ) : ℝ) = _
      rw [hx, Rat.cast_add, Rat.cast_intCast, Real.rpow_add two_pos, Real.rpow_intCast, mul_comm]
      push_cast
      rfl
    have hVi : ((2 * exp2Frac (-e).toNat fr (2 <<< 256) (1 <<< 256) + 1 : ℕ) * 2 ^ (i - 257) : ℝ) =
        (2 * exp2Frac (-e).toNat fr (2 <<< 256) (1 <<< 256) + 1) / (2 * 2 ^ 256) * 2 ^ i := by
      have hunit : (2 * 2 ^ 256 : ℝ) = 2 ^ (257 : ℤ) := (pow_succ' (2 : ℝ) 256).symm
      rw [hunit, zpow_sub₀ two_ne_zero]
      push_cast
      ring
    have hpow : (0 : ℝ) ≤ 2 ^ i := zpow_nonneg zero_le_two i
    rw [hVi] at h
    refine ⟨_, ?_, ?_, h⟩
    · rw [hPi, mul_right_comm]
      exact mul_le_mul_of_nonneg_right hlo hpow
    · rw [hPi, mul_right_comm]
      exact mul_le_mul_of_nonneg_right hhi hpow

/-! ## Integer exponents -/

/-- A magnitude rounds to one pattern. -/
theorem FFmt.Rounds.unique {f : FFmt} {V : ℝ} {y y' : Nat} (h : f.Rounds (fun μ => V ≤ μ) (fun μ => (μ : ℝ) ≤ V) y)
    (h' : f.Rounds (fun μ => V ≤ μ) (fun μ => (μ : ℝ) ≤ V) y') : y = y' := by
  by_cases hover : f.hasInf = true ∧ f.overflow ≤ V
  · rw [h.1 hover.1 hover.2, h'.1 hover.1 hover.2]
  wlog hlt : y < y' generalizing y y' with swap
  · obtain hgt | heq := (Nat.le_of_not_lt hlt).lt_or_eq
    · exact (swap h' h hgt).symm
    · exact heq.symm
  obtain ⟨⟨hmax, hbetween⟩, heven⟩ := h.2 hover
  obtain ⟨⟨hmax', hbetween'⟩, heven'⟩ := h'.2 hover
  have hle : V ≤ (f.mid y y' : ℚ) := (hbetween y' hmax').1 hlt
  have hge : (f.mid y' y : ℚ) ≤ V := (hbetween' y hmax).2 hlt
  have hge' : (f.mid y y' : ℚ) ≤ V := by rwa [f.mid_comm]
  have hle' : V ≤ (f.mid y' y : ℚ) := by rwa [f.mid_comm]
  have h0 := heven y' hmax' hlt.ne' hle hge'
  have h0' := heven' y hmax hlt.ne hle' hge
  have hnext : V ≤ (f.mid y (y + 1) : ℚ) := (hbetween (y + 1) (by omega)).1 y.lt_succ_self
  have hmid : f.mid y (y + 1) < f.mid y y' := by
    rw [f.mid_comm, f.mid_comm y]
    exact f.mid_lt_mid (by omega)
  exact absurd (hnext.trans_lt (by exact_mod_cast hmid)) hge'.not_gt

theorem p12_exp2_int {neg : Bool} {m : Nat} {e i : ℤ} (h : ratOf neg m e = i) :
    FFmt.p12.exp2 (.fin neg m e) = FFmt.p12.round (.fin false 1 i) := by
  rw [FFmt.round_one]
  obtain ⟨hsat, heq⟩ | ⟨j, hj, heq⟩ | ⟨fr, j, -, hpos, hlt, hx, -⟩ := FFmt.p12.exp2_fin neg m e
  · have hround := p12_rounds_saturated hsat neg
    have hone := FFmt.roundMag_one_rounds (f := .p12) rfl 1 i
    rw [← ratOf_neg, h, Rat.cast_intCast, Real.rpow_intCast, ← heq] at hround
    rw [Nat.cast_one, one_mul] at hone
    exact hround.unique hone
  · obtain rfl : j = i := by exact_mod_cast hj.symm.trans h
    exact heq
  · have hD : (0 : ℚ) < (2 ^ (-e).toNat : ℕ) := by exact_mod_cast Nat.two_pow_pos _
    have hpos' : (0 : ℚ) < fr := by exact_mod_cast hpos
    have hlt' : (fr : ℚ) < (2 ^ (-e).toNat : ℕ) := by exact_mod_cast hlt
    have hlow : (j : ℚ) < i := by
      rw [← h, hx]
      exact lt_add_of_pos_right _ (div_pos hpos' hD)
    have hhigh : (i : ℚ) < j + 1 := by
      rw [← h, hx]
      exact add_lt_add_right ((div_lt_one hD).mpr hlt') _
    have h1 : j < i := by exact_mod_cast hlow
    have h2 : i < j + 1 := by exact_mod_cast hhigh
    omega

end Sys2Proof.Machine
end

section
/-! PROOFS. The logarithm, rounded to P12 (R183). -/

open Sys2Proof Sys2Proof.Machine

namespace Sys2Proof.Machine

/-! ## Fraction bits of a logarithm -/

/-- The whole units z of a number w·B lose at most 2 / B of its logarithm. -/
theorem logb_units_bounds {B z : Nat} {w : ℝ} (hB : 0 < B) (hz : B ≤ z) (hlo : z ≤ w * B) (hhi : w * B ≤ z + 1) :
    Real.logb 2 (z / B) ≤ Real.logb 2 w ∧ Real.logb 2 w ≤ Real.logb 2 (z / B) + 2 / B := by
  have hB' : (0 : ℝ) < B := by exact_mod_cast hB
  have hz' : (B : ℝ) ≤ z := by exact_mod_cast hz
  have hz0 : (0 : ℝ) < z := hB'.trans_le hz'
  have hzB : (0 : ℝ) < z / B := div_pos hz0 hB'
  have hw : (z / B : ℝ) ≤ w := (div_le_iff₀ hB').mpr hlo
  refine ⟨Real.logb_le_logb_of_le one_lt_two hzB hw, ?_⟩
  have hratio : w ≤ z / B * (1 + 1 / B) := by
    refine le_of_mul_le_mul_right ?_ hB'
    have : (z / B * (1 + 1 / B) * B : ℝ) = z + z / B := by field_simp
    rw [this]
    exact hhi.trans (add_le_add_right ((one_le_div hB').mpr hz') _)
  have hlog2 : 1 / 2 ≤ Real.log 2 := by linarith only [Real.log_two_gt_d9]
  have hunit : Real.logb 2 (1 + 1 / B) ≤ 2 / B := by
    have hpos : (0 : ℝ) < 1 + 1 / B := by positivity
    rw [Real.logb, div_le_iff₀ (by linarith only [hlog2])]
    calc Real.log (1 + 1 / B) ≤ 1 / B := (Real.log_le_sub_one_of_pos hpos).trans_eq (add_sub_cancel_left _ _)
      _ = 2 / B * (1 / 2) := by ring
      _ ≤ 2 / B * Real.log 2 := mul_le_mul_of_nonneg_left hlog2 (by positivity)
  calc Real.logb 2 w ≤ Real.logb 2 (z / B * (1 + 1 / B)) := Real.logb_le_logb_of_le one_lt_two (hzB.trans_le hw) hratio
    _ = Real.logb 2 (z / B) + Real.logb 2 (1 + 1 / B) := Real.logb_mul hzB.ne' (by positivity)
    _ ≤ Real.logb 2 (z / B) + 2 / B := add_le_add_right hunit _

theorem natDiv_bounds (a : Nat) {b : Nat} (hb : 0 < b) : ((a / b : ℕ) : ℝ) ≤ a / b ∧ (a / b : ℝ) ≤ (a / b : ℕ) + 1 := by
  have hb' : (0 : ℝ) < b := by exact_mod_cast hb
  refine ⟨Nat.cast_div_le, (div_le_iff₀ hb').mpr ?_⟩
  exact_mod_cast ((Nat.lt_mul_div_succ a hb).trans_eq (Nat.mul_comm ..)).le

/-- The square of z / B over c, cut to whole units, has twice the logarithm less that of c. -/
theorem logb_square_bounds {B z c : Nat} (hB : 0 < B) (hz : B ≤ z) (hc : 0 < c) (hge : B ≤ z * z / (B * c)) :
    Real.logb 2 ((z * z / (B * c) : ℕ) / B) ≤ 2 * Real.logb 2 (z / B) - Real.logb 2 c ∧
      2 * Real.logb 2 (z / B) - Real.logb 2 c ≤ Real.logb 2 ((z * z / (B * c) : ℕ) / B) + 2 / B := by
  have hB' : (0 : ℝ) < B := by exact_mod_cast hB
  have hc' : (0 : ℝ) < c := by exact_mod_cast hc
  have hz' : (0 : ℝ) < z := by exact_mod_cast hB.trans_le hz
  have hw : Real.logb 2 ((z / B : ℝ) ^ 2 / c) = 2 * Real.logb 2 (z / B) - Real.logb 2 c := by
    rw [Real.logb_div (by positivity) hc'.ne', Real.logb_pow, Nat.cast_ofNat]
  have hunits : ((z / B : ℝ) ^ 2 / c) * B = (z * z : ℕ) / (B * c : ℕ) := by
    push_cast
    field_simp
  obtain ⟨hlo, hhi⟩ := natDiv_bounds (z * z) (Nat.mul_pos hB hc)
  rw [← hw]
  exact logb_units_bounds hB hge (hlo.trans_eq hunits.symm) (hunits.trans_le hhi)

theorem log2Frac_succ (n z acc : Nat) : log2Frac (n + 1) z acc = if 2 ^ 256 * 2 ≤ z * z / 2 ^ 256
    then log2Frac n (z * z / (2 ^ 256 * 2)) (2 * acc + 1) else log2Frac n (z * z / 2 ^ 256) (2 * acc) := by
  rw [log2Frac, Nat.shiftRight_eq_div_pow, Nat.shiftLeft_eq, Nat.mul_comm 2, Nat.div_div_eq_div_mul]

/-- One bit b of a fraction before n others. -/
theorem leading_bit_bounds {n d : Nat} (b : Nat) {L L' E : ℝ} (hcut : L' ≤ 2 * L - b) (hloss : 2 * L - b ≤ L' + E) (hlow : d / 2 ^ n ≤ L')
    (hup : L' ≤ (d + 1) / 2 ^ n + E) :
    ((b * 2 ^ n + d : ℕ) : ℝ) / 2 ^ (n + 1) ≤ L ∧ L ≤ ((b * 2 ^ n + d : ℕ) + 1) / 2 ^ (n + 1) + E := by
  have hfirst : ∀ v : ℝ, (b * 2 ^ n + v) / 2 ^ (n + 1) = (b + v / 2 ^ n) / 2 := fun v => by
    rw [pow_succ]
    field_simp
  push_cast
  rw [add_assoc, hfirst, hfirst]
  constructor <;> linarith

/-- The bits formed are the floor of the logarithm's, up to what the cut squares lose. -/
theorem log2Frac_spec (n : Nat) {z : Nat} (acc : Nat) (hlo : 2 ^ 256 ≤ z) (hhi : z < 2 ^ 256 * 2) : ∃ d, d < 2 ^ n ∧
    log2Frac n z acc = acc * 2 ^ n + d ∧ (d : ℝ) / 2 ^ n ≤ Real.logb 2 (z / (2 ^ 256 : ℕ)) ∧
      Real.logb 2 (z / (2 ^ 256 : ℕ)) ≤ (d + 1) / 2 ^ n + 2 / (2 ^ 256 : ℕ) := by
  have hB : 0 < 2 ^ 256 := Nat.two_pow_pos 256
  induction n generalizing z acc with
  | zero =>
    have hB' : (0 : ℝ) < (2 ^ 256 : ℕ) := by exact_mod_cast hB
    have hone : (1 : ℝ) ≤ z / (2 ^ 256 : ℕ) := (one_le_div hB').mpr (by exact_mod_cast hlo)
    have htwo : (z / (2 ^ 256 : ℕ) : ℝ) ≤ 2 := (div_le_iff₀ hB').mpr (by exact_mod_cast hhi.le.trans_eq (Nat.mul_comm ..))
    have hlog := (Real.logb_le_logb_of_le one_lt_two (hone.trans_lt' one_pos) htwo).trans_eq (Real.logb_self_eq_one one_lt_two)
    refine ⟨0, one_pos, by rw [log2Frac, pow_zero, Nat.mul_one, Nat.add_zero], ?_, ?_⟩
    · simpa using Real.logb_nonneg one_lt_two hone
    · simpa using hlog.trans (le_add_of_nonneg_right (div_nonneg zero_le_two hB'.le))
  | succ n ih =>
    have hsquare : z * z < 2 ^ 256 * 2 * (2 ^ 256 * 2) := Nat.mul_lt_mul'' hhi hhi
    rw [log2Frac_succ]
    split
    next hbit =>
      have hge : 2 ^ 256 ≤ z * z / (2 ^ 256 * 2) := by
        rw [Nat.le_div_iff_mul_le (by omega)] at hbit ⊢
        linarith only [hbit]
      obtain ⟨d, hd, heq, hlow, hup⟩ := ih (2 * acc + 1) hge (by rw [Nat.div_lt_iff_lt_mul (by omega)]; exact hsquare)
      obtain ⟨hcut, hloss⟩ := logb_square_bounds hB hlo two_pos hge
      rw [Nat.cast_ofNat, Real.logb_self_eq_one one_lt_two] at hcut hloss
      refine ⟨1 * 2 ^ n + d, by rw [pow_succ]; omega, by rw [heq, pow_succ]; ring, ?_⟩
      exact leading_bit_bounds 1 (by exact_mod_cast hcut) (by exact_mod_cast hloss) hlow hup
    next hbit =>
      have hge : 2 ^ 256 ≤ z * z / (2 ^ 256 * 1) := by
        rw [Nat.mul_one, Nat.le_div_iff_mul_le hB]
        exact Nat.mul_le_mul hlo hlo
      obtain ⟨hcut, hloss⟩ := logb_square_bounds hB hlo one_pos hge
      rw [Nat.cast_one, Real.logb_one] at hcut hloss
      rw [Nat.mul_one] at hge hcut hloss
      obtain ⟨d, hd, heq, hlow, hup⟩ := ih (2 * acc) hge (Nat.lt_of_not_le hbit)
      refine ⟨0 * 2 ^ n + d, by rw [pow_succ]; omega, by rw [heq, pow_succ]; ring, ?_⟩
      exact leading_bit_bounds 0 (by exact_mod_cast hcut) (by exact_mod_cast hloss) hlow hup

/-! ## The logarithm of a value -/

theorem FFmt.log2_pow_two (f : FFmt) (j : Nat) (e : ℤ) :
    f.log2 (.fin false (2 ^ j) e) = f.round (.fin (decide (e + j < 0)) (e + j).natAbs 0) := by
  rw [FFmt.log2, if_neg (Nat.two_pow_pos j).ne', if_neg Bool.false_ne_true, Nat.log2_two_pow, if_pos rfl]

/-- The integer and the fraction bits, half a unit up, in units of 2^-101. -/
def log2Digits (m : Nat) (e : ℤ) : ℤ := 2 * ((e + m.log2) * (2 ^ 100 : Nat) + log2Frac 100 (m <<< (256 - m.log2)) 0) + 1

theorem FFmt.log2_not_pow_two (f : FFmt) {m : Nat} (hm : m ≠ 0) (h : m ≠ 2 ^ m.log2) (e : ℤ) :
    f.log2 (.fin false m e) = f.round (.fin (decide (log2Digits m e < 0)) (log2Digits m e).natAbs (-101)) := by
  rw [FFmt.log2, if_neg hm, if_neg Bool.false_ne_true, if_neg h, log2Digits]

theorem ratOf_false_lt_one_iff {m : Nat} (hm : m ≠ 0) (e : ℤ) : ratOf false m e < 1 ↔ e + m.log2 < 0 := by
  have hlo : (2 ^ m.log2 : ℚ) ≤ m := by exact_mod_cast Nat.log2_self_le hm
  have hhi : (m : ℚ) < 2 ^ (m.log2 + 1) := by exact_mod_cast Nat.lt_log2_self
  have hpow : (0 : ℚ) < 2 ^ e := zpow_pos two_pos e
  have hval : ratOf false m e = m * 2 ^ e := by simp [ratOf]
  have hone : ∀ j : ℤ, (2 : ℚ) ^ j < 1 ↔ j < 0 := fun j => by
    rw [← zpow_zero (2 : ℚ), zpow_lt_zpow_iff_right₀ one_lt_two]
  rw [hval]
  constructor
  · intro h
    rw [← hone, add_comm, zpow_add₀ two_ne_zero, zpow_natCast]
    exact (mul_le_mul_of_nonneg_right hlo hpow.le).trans_lt h
  · intro h
    have hle : (2 : ℚ) ^ (m.log2 + 1) * 2 ^ e ≤ 1 := by
      rw [← zpow_natCast, ← zpow_add₀ two_ne_zero, ← zpow_zero (2 : ℚ)]
      exact zpow_le_zpow_right₀ one_le_two (by push_cast; omega)
    exact (mul_lt_mul_of_pos_right hhi hpow).trans_le hle

theorem logb_two_zpow (i : ℤ) : Real.logb 2 ((2 : ℝ) ^ i) = i := by
  rw [← Real.rpow_intCast, Real.logb_rpow two_pos (OfNat.ofNat_ne_one 2)]

theorem logb_two_pow (k : Nat) : Real.logb 2 ((2 : ℝ) ^ k) = k := by
  rw [← zpow_natCast, logb_two_zpow, Int.cast_natCast]

theorem logb_ratOf {m : Nat} (hm : m ≠ 0) (e : ℤ) : Real.logb 2 ((ratOf false m e : ℚ) : ℝ) = Real.logb 2 m + e := by
  rw [ratOf_false_cast, Real.logb_mul (by exact_mod_cast hm) (zpow_ne_zero _ two_ne_zero), logb_two_zpow]

/-- The digits are the logarithm's, half a unit up, to within 2^-99; they have its sign. -/
theorem log2Digits_spec {m : Nat} (hm : m ≠ 0) (hlt : m < 2 ^ 64) (e : ℤ) :
    |log2Digits m e * 2 ^ (-101 : ℤ) - Real.logb 2 ((ratOf false m e : ℚ) : ℝ)| ≤ 2 ^ (-99 : ℤ) ∧
      (log2Digits m e < 0 ↔ e + m.log2 < 0) := by
  have hk : m.log2 < 64 := (Nat.log2_lt hm).mpr hlt
  have hpowk : 2 ^ m.log2 * 2 ^ (256 - m.log2) = 2 ^ 256 := by rw [← Nat.pow_add]; congr 1; omega
  have hz : m <<< (256 - m.log2) = m * 2 ^ (256 - m.log2) := Nat.shiftLeft_eq ..
  have hlo : 2 ^ 256 ≤ m <<< (256 - m.log2) := by
    rw [hz, ← hpowk]
    exact Nat.mul_le_mul_right _ (Nat.log2_self_le hm)
  have hhi : m <<< (256 - m.log2) < 2 ^ 256 * 2 := by
    rw [hz, ← hpowk, Nat.mul_right_comm, ← Nat.pow_succ]
    exact Nat.mul_lt_mul_of_pos_right Nat.lt_log2_self (Nat.two_pow_pos _)
  obtain ⟨d, hd, heq, hlow, hup⟩ := log2Frac_spec 100 0 hlo hhi
  have hdigits : log2Digits m e = 2 * ((e + m.log2) * 2 ^ 100 + d) + 1 := by
    rw [log2Digits, heq]
    push_cast
    ring
  have hlog : Real.logb 2 ((ratOf false m e : ℚ) : ℝ) = e + m.log2 + Real.logb 2 ((m <<< (256 - m.log2) : ℕ) / (2 ^ 256 : ℕ)) := by
    have hm' : (m : ℝ) ≠ 0 := by exact_mod_cast hm
    have hfrac : ((m <<< (256 - m.log2) : ℕ) / (2 ^ 256 : ℕ) : ℝ) = m / 2 ^ m.log2 := by
      rw [hz, ← hpowk]
      push_cast
      field_simp
    rw [hfrac, logb_ratOf hm, Real.logb_div hm' (by positivity), logb_two_pow]
    ring
  refine ⟨?_, by omega⟩
  rw [hlog, hdigits, abs_le]
  push_cast
  generalize Real.logb 2 _ = L at *
  norm_num at hlow hup ⊢
  constructor <;> linarith only [hlow, hup]

/-! ## Its rounding -/

theorem FFmt.round_fin (f : FFmt) (neg : Bool) (m : Nat) (e : ℤ) : f.round (.fin neg m e) = f.roundMag m 1 e + f.signBit neg := by
  rw [FFmt.round, FFmt.signed_eq]

theorem eq_pow_two_of_ratOf {m : Nat} {e i : ℤ} (h : ratOf false m e = 2 ^ i) : ∃ j : Nat, m = 2 ^ j ∧ i = e + j := by
  have hval : (m : ℚ) = 2 ^ (i - e) := by
    rw [zpow_sub₀ two_ne_zero, ← h, eq_div_iff (zpow_ne_zero _ two_ne_zero)]
    simp [ratOf]
  have hpos : (0 : ℚ) < m := by rw [hval]; exact zpow_pos two_pos _
  have hone : (1 : ℚ) ≤ m := by exact_mod_cast Nat.pos_of_ne_zero (by rintro rfl; exact hpos.false)
  have hexp : 0 ≤ i - e := by
    rw [hval, ← zpow_zero (2 : ℚ)] at hone
    exact (zpow_le_zpow_iff_right₀ one_lt_two).mp hone
  obtain ⟨j, hj⟩ := Int.eq_ofNat_of_zero_le hexp
  refine ⟨j, ?_, by omega⟩
  rw [hj, zpow_natCast] at hval
  exact_mod_cast hval

theorem FFmt.log2_int (f : FFmt) {m : Nat} {e i : ℤ} (h : ratOf false m e = 2 ^ i) :
    f.log2 (.fin false m e) = f.round (.fin (decide (i < 0)) i.natAbs 0) := by
  obtain ⟨j, rfl, rfl⟩ := eq_pow_two_of_ratOf h
  exact f.log2_pow_two j e

theorem abs_logb_lt {m : Nat} (hm : m ≠ 0) (hlt : m < 2 ^ 64) {e : ℤ} (hlo : -1100 ≤ e) (hhi : e ≤ 1100) :
    |Real.logb 2 ((ratOf false m e : ℚ) : ℝ)| ≤ 1164 := by
  have hm' : (1 : ℝ) ≤ m := by exact_mod_cast Nat.pos_of_ne_zero hm
  have hlt' : (m : ℝ) ≤ 2 ^ 64 := by exact_mod_cast hlt.le
  have h0 : 0 ≤ Real.logb 2 m := Real.logb_nonneg one_lt_two hm'
  have h64 : Real.logb 2 m ≤ 64 := by
    have h := Real.logb_le_logb_of_le one_lt_two (hm'.trans_lt' one_pos) hlt'
    rwa [logb_two_pow, Nat.cast_ofNat] at h
  have hlo' : (-1100 : ℝ) ≤ e := by exact_mod_cast hlo
  have hhi' : (e : ℝ) ≤ 1100 := by exact_mod_cast hhi
  rw [logb_ratOf hm, abs_le]
  constructor <;> linarith

theorem le_p12_overflow : 2 ^ 127 ≤ FFmt.p12.overflow := by
  norm_num [FFmt.overflow, FFmt.params]

/-- `FFmt.log2` rounds a value within 2^-99 of the logarithm. -/
theorem p12_log2_rounds {m : Nat} (hm : m ≠ 0) (hlt : m < 2 ^ 64) (e : ℤ) :
    let log := |Real.logb 2 ((ratOf false m e : ℚ) : ℝ)|
    ∃ V p, |V - log| ≤ 2 ^ (-99 : ℤ) ∧ FFmt.p12.Rounds (fun μ => V ≤ μ) (fun μ => (μ : ℝ) ≤ V) p ∧
      FFmt.p12.log2 (.fin false m e) = p + FFmt.p12.signBit (decide (ratOf false m e < 1)) := by
  intro log
  have hsign := ratOf_false_lt_one_iff hm e
  by_cases hpow : m = 2 ^ m.log2
  · have heq := FFmt.p12.log2_pow_two m.log2 e
    rw [← hpow, FFmt.round_fin, ← decide_eq_decide.mpr hsign] at heq
    have hround := FFmt.roundMag_one_rounds (f := .p12) rfl (e + m.log2).natAbs 0
    refine ⟨_, _, ?_, hround, heq⟩
    have hlog : log = |((e + m.log2 : ℤ) : ℝ)| := by
      have hm' : (m : ℝ) = 2 ^ m.log2 := by exact_mod_cast hpow
      have hlogm : Real.logb 2 m = m.log2 := (congrArg (Real.logb 2) hm').trans (logb_two_pow _)
      rw [Int.cast_add, Int.cast_natCast, add_comm, ← hlogm, ← logb_ratOf hm]
    rw [hlog, zpow_zero, mul_one, Nat.cast_natAbs, Int.cast_abs, sub_self, abs_zero]
    exact zpow_nonneg zero_le_two _
  · obtain ⟨hnear, hneg⟩ := log2Digits_spec hm hlt e
    have heq := FFmt.p12.log2_not_pow_two hm hpow e
    rw [FFmt.round_fin, ← decide_eq_decide.mpr (hsign.trans hneg.symm)] at heq
    have hround := FFmt.roundMag_one_rounds (f := .p12) rfl (log2Digits m e).natAbs (-101)
    refine ⟨_, _, ?_, hround, heq⟩
    have habs : ((log2Digits m e).natAbs * 2 ^ (-101 : ℤ) : ℝ) = |(log2Digits m e : ℝ) * 2 ^ (-101 : ℤ)| := by
      rw [Nat.cast_natAbs, Int.cast_abs, abs_mul, abs_of_nonneg (zpow_nonneg (zero_le_two (α := ℝ)) (-101))]
    rw [habs]
    exact (abs_abs_sub_abs_le _ _).trans hnear

theorem p12_log2_between {m : Nat} (hm : m ≠ 0) (hlt : m < 2 ^ 64) {e : ℤ} (hlo : -1100 ≤ e) (hhi : e ≤ 1100) :
    let log := |Real.logb 2 ((ratOf false m e : ℚ) : ℝ)|
    ∃ p, FFmt.p12.log2 (.fin false m e) = p + FFmt.p12.signBit (decide (ratOf false m e < 1)) ∧
      FFmt.p12.Between (fun μ => log - 2 ^ (-99 : ℤ) ≤ (μ : ℝ)) (fun μ => (μ : ℝ) ≤ log + 2 ^ (-99 : ℤ)) p := by
  intro log
  obtain ⟨V, p, hV, hround, heq⟩ := p12_log2_rounds hm hlt e
  obtain ⟨hle, hge⟩ := abs_sub_le_iff.mp hV
  refine ⟨p, heq, (hround.of_interval rfl (sub_le_comm.mp hge) (sub_le_iff_le_add'.mp hle)).2 ?_⟩
  have hover : (2 ^ 127 : ℝ) ≤ FFmt.p12.overflow := by exact_mod_cast le_p12_overflow
  have hlog := abs_logb_lt hm hlt hlo hhi
  refine hover.trans_lt' ?_
  norm_num at hlog ⊢
  linarith only [hlog]

end Sys2Proof.Machine
end

section
/-! PROOFS. The long operations of vb and the deprecated instructions (R182 to R184). -/

open Sys2Proof Sys2Proof.Machine

namespace Sys2Proof.Machine

/-! ## Their lanes -/

section Long

variable {s : State} {ty k : BitVec 4} {d x : SliceOp} {g : FFmt}

/-- A long function of one source sets the pattern that it rounds to. -/
theorem lanesSet_longTo (ht : vtypeD ty = .flt g) (lat : Core → Nat) (f : FFmt → FVal → Nat) :
    s.LanesSet (longTo lat ty k d x f s) 4 (lat (s.core s.cur)) true d ((s.core s.cur).mask true k.toNat)
      (fun l => f g (g.value ((s.core s.cur).elem true (vtypeD ty) x l))) := by
  refine lanesSet_lanes1 s .vb _ _ k d x _ _ fun l _ => ?_
  rw [ht]
  exact Nat.mod_mod ..

/-- VDIV: the quotient, rounded once. -/
theorem exec_vdiv {y : SliceOp} (ht : vtypeD ty = .flt g) : WellFormed (.vdiv ty k d x y) → s.Serves (.vdiv ty k d x y) →
    ∃ z, exec (.vdiv ty k d x y) s = .next z ∧ s.LanesSet z 4 ((s.core s.cur).divLat ty) true d ((s.core s.cur).mask true k.toNat)
      (fun l => g.div (g.value ((s.core s.cur).elem true (vtypeD ty) x l)) (g.value ((s.core s.cur).elem true (vtypeD ty) y l))) := by
  refine exec_lanes2 (u := .vb) rfl rfl fun l _ => ?_
  rw [ht]
  exact Nat.mod_mod ..

/-- A deprecated instruction records its lanes and holds the next bundle back. -/
theorem exec_expands {i : Instr} {u : VectorSlot} {eff : State → State} {slot lat steps : Nat} {cl : Bool} {en : LaneMask} {f : Nat → Nat}
    (he : exec i s = slotExec i s (fun s => s.expandFor steps eff)) (hslot : slotOf i = some u.slot)
    (hset : s.LanesSet (eff s) slot lat cl d en f) (hp : ∀ c : Core, c.plan i = none := by intro _; rfl)
    (hn : ∀ c : Core, c.nonUniform i = none := by intro _; rfl) (hk : ∀ c : Core, c.parkBad i = none := by intro _; rfl) :
    WellFormed i → s.Serves i → ∃ z, s.LanesSet z slot lat cl d en f ∧ exec i s = .next (z.updCore s.cur (fun e => { e with
      expand := some (s.now + steps, (s.core s.cur).nextId)
      markLoops := (s.core s.cur).regs.loops
      markPc := (s.core s.cur).regs.pc.toNat })) :=
  fun hw hs => ⟨eff s, hset, (he.trans (slotExec_of_vector hslot hw hs hp hn hk)).trans (by rw [State.expandFor])⟩

end Long

/-- VSUMX: the exact sum of the enabled lanes, rounded once, in every enabled lane. -/
theorem exec_vsumx {s : State} (u : VectorSlot) {ty k : BitVec 4} {d x : SliceOp} {g : FFmt} (ht : vtypeD ty = .flt g) :
    WellFormed (.vsumx u ty k d x) → s.Serves (.vsumx u ty k d x) → ∃ z, s.LanesSet z u.slot.index 12 (clusterOf u) d
      ((s.core s.cur).mask (clusterOf u) k.toNat) (fun _ => g.round (exactSum (((List.range 256).filter
        (fun l => ((s.core s.cur).mask (clusterOf u) k.toNat).getLsbD l)).map
          (fun l => g.value ((s.core s.cur).elem (clusterOf u) (vtypeD ty) x l))))) ∧
      exec (.vsumx u ty k d x) s = .next (z.updCore s.cur (fun e => { e with
        expand := some (s.now + 10, (s.core s.cur).nextId)
        markLoops := (s.core s.cur).regs.loops
        markPc := (s.core s.cur).regs.pc.toNat })) := by
  refine exec_expands (u := u) rfl rfl ?_
  refine (lanesSet_const s u 12 k d _).congr fun l _ => ?_
  rw [ht]
  have hvals : (enabled ((s.core s.cur).mask (clusterOf u) k.toNat)).map
      (fun l => g.value (nth 0 ((s.core s.cur).patterns (clusterOf u) (.flt g) x) l)) =
      ((List.range 256).filter (fun l => ((s.core s.cur).mask (clusterOf u) k.toNat).getLsbD l)).map
        (fun l => g.value ((s.core s.cur).elem (clusterOf u) (.flt g) x l)) :=
    List.map_congr_left fun l hl =>
      congrArg g.value (nth_patterns _ _ _ _ _ (List.mem_range.mp (List.mem_of_mem_filter hl)))
  rw [← hvals]
  exact Nat.mod_mod ..

/-! ## Special values -/

theorem p12_special_nan : FFmt.p12.recip .nan = FFmt.p12.round .nan ∧ FFmt.p12.rsqrt .nan = FFmt.p12.round .nan ∧
    FFmt.p12.exp2 .nan = FFmt.p12.round .nan ∧ FFmt.p12.log2 .nan = FFmt.p12.round .nan := ⟨rfl, rfl, rfl, rfl⟩

theorem p12_special_inf (neg : Bool) : FFmt.p12.recip (.inf neg) = FFmt.p12.signBit neg ∧
    FFmt.p12.rsqrt (.inf neg) = (if neg then FFmt.p12.round .nan else 0) ∧
    FFmt.p12.exp2 (.inf neg) = (if neg then 0 else FFmt.p12.infPattern + FFmt.p12.signBit false) ∧
    FFmt.p12.log2 (.inf neg) = (if neg then FFmt.p12.round .nan else FFmt.p12.infPattern + FFmt.p12.signBit false) := by
  cases neg <;> decide

/-- Zero has an infinite reciprocal, root and negative logarithm. -/
theorem p12_special_zero (neg : Bool) (e : ℤ) : FFmt.p12.recip (.fin neg 0 e) = FFmt.p12.infPattern + FFmt.p12.signBit neg ∧
    FFmt.p12.rsqrt (.fin neg 0 e) = FFmt.p12.infPattern + FFmt.p12.signBit neg ∧
    FFmt.p12.exp2 (.fin neg 0 e) = FFmt.p12.round (.fin false 1 0) ∧
    FFmt.p12.log2 (.fin neg 0 e) = FFmt.p12.infPattern + FFmt.p12.signBit true := by
  have hround : ∀ n : Bool, FFmt.p12.round (.inf n) = FFmt.p12.infPattern + FFmt.p12.signBit n := by decide
  refine ⟨?_, hround neg, rfl, hround true⟩
  rw [← hround]
  cases neg <;> rfl

theorem FFmt.rsqrt_log2_negative (f : FFmt) {m : Nat} (hm : m ≠ 0) (e : ℤ) :
    f.rsqrt (.fin true m e) = f.round .nan ∧ f.log2 (.fin true m e) = f.round .nan := by
  rw [FFmt.rsqrt, FFmt.log2, if_neg hm, if_neg hm, if_pos rfl, if_pos rfl]
  exact ⟨rfl, rfl⟩

/-! ## The obligation -/

/-- Settles O30: each approximation rounds a magnitude that stands for the exact one (`FFmt.recip_rounds`, `FFmt.rsqrt_rounds`,
`p12_exp2_rounds`, `p12_log2_between`). -/
theorem longAndDeprecatedOperations : Obligations.LongAndDeprecatedOperations := by
  unfold Obligations.LongAndDeprecatedOperations
  intro u ty k d x y s g ht t c X Y dv twice gives expands
  refine ⟨exec_vdiv ht, ?sqrt, ?rcp, ?rsq, ?exp2, ?log2, ?recipL, exec_vsumx u ht, p12_special_nan, p12_special_inf, ?values⟩
  case sqrt => exact exec_setsLanes (u := .vb) rfl rfl fun _ => lanesSet_longTo ht _ FFmt.sqrt
  case rcp => exact exec_setsLanes (u := .vb) rfl rfl fun _ => lanesSet_longTo ht _ (viaP12 FFmt.p12.recip)
  case rsq => exact exec_setsLanes (u := .vb) rfl rfl fun _ => lanesSet_longTo ht _ (viaP12 FFmt.p12.rsqrt)
  case exp2 => exact exec_setsLanes (u := .vb) rfl rfl fun _ => lanesSet_longTo ht _ (viaP12 FFmt.p12.exp2)
  case log2 => exact exec_setsLanes (u := .vb) rfl rfl fun _ => lanesSet_longTo ht _ (viaP12 FFmt.p12.log2)
  case recipL => exact exec_expands (u := .vb) rfl rfl (lanesSet_longTo ht _ FFmt.recip)
  case values =>
    intro neg m e v X pow log δ ε
    refine ⟨?zero, fun hm => ⟨_, FFmt.recip_fin .p12 neg hm e, FFmt.recip_rounds rfl hm e⟩, ?negative, ?root, fun i => p12_exp2_int, ?logInt,
      fun _ he => ?power, ?logarithm⟩
    case zero =>
      rintro rfl
      exact p12_special_zero neg e
    case negative =>
      rintro hm rfl
      exact FFmt.rsqrt_log2_negative .p12 hm e
    case root =>
      rintro hm hlt rfl
      exact FFmt.rsqrt_rounds rfl hm hlt e
    case logInt =>
      rintro i rfl hX
      exact FFmt.log2_int .p12 hX
    case power =>
      obtain ⟨V, hlo, hhi, hround⟩ := p12_exp2_rounds neg m he
      exact hround.of_interval rfl hlo hhi
    case logarithm =>
      rintro hm hlt hlo hhi rfl
      exact p12_log2_between hm hlt hlo hhi

end Sys2Proof.Machine
end

section
/-! PROOFS. An instruction that records something on its own core at issue, and what that leaves alone (R38, R193). -/

open Sys2Proof Sys2Proof.Machine

namespace Sys2Proof.Machine

/-- t is what an instruction leaves that records something on its core: there f is applied, and reservations of banks may be new; no register
and no buffer changes, and nothing elsewhere. -/
structure State.Issues (s t : State) (f : Core → Core) : Prop where
  keeps : s.CoreKeeps t s.cur
  core : ∃ rsv, t.core s.cur = { f (s.core s.cur) with rsv := rsv }

section Issues

variable {s t : State} {i : Instr} {sl : Slot} {eff : State → State} {f g h : Core → Core}

theorem State.issues_updCore (hr : (s.core s.cur).SameRegisters (f (s.core s.cur)) := by simp [Core.SameRegisters])
    (hb : (s.core s.cur).SameBuffers (f (s.core s.cur)) := by exact ⟨rfl, rfl, rfl⟩) : s.Issues (s.updCore s.cur f) f :=
  ⟨s.setCore_coreKeeps s.cur _ hr hb, (f (s.core s.cur)).rsv, State.core_updCore_self ..⟩

/-- One more update of the core, with which f comes to h but for reservations. -/
theorem State.Issues.updCore (hf : s.Issues t f) (hg : ∀ c rsv, ∃ rsv', g { f c with rsv := rsv } = { h c with rsv := rsv' })
    (hr : ∀ c : Core, c.SameRegisters (g c) := by simp [Core.SameRegisters])
    (hb : ∀ c : Core, c.SameBuffers (g c) := by exact fun _ => ⟨rfl, rfl, rfl⟩) : s.Issues (t.updCore s.cur g) h := by
  obtain ⟨hkeeps, rsv, hcore⟩ := hf
  refine ⟨hkeeps.trans (t.setCore_coreKeeps s.cur _ (hr _) (hb _)), ?_⟩
  rw [State.core_updCore_self, hcore]
  exact hg _ rsv

theorem State.Issues.reserve (hf : s.Issues t f) (now : Nat) (u : User) (banks : Core → List (Buf × Nat × Nat)) :
    s.Issues (t.updCore s.cur (fun c => c.reserve now u (banks c))) f :=
  hf.updCore (fun _ _ => ⟨_, rfl⟩) (by simp [Core.SameRegisters, Core.reserve])

theorem State.Issues.mxReserve (hf : s.Issues t f) (i : Instr) : s.Issues (t.mxReserve s.cur i) f := hf.reserve t.now .matrix _

theorem State.Issues.sfReserve (hf : s.Issues t f) (i : Instr) (last : Nat) : s.Issues (t.sfReserve s.cur i last) f :=
  hf.reserve t.now .issue _

/-- A well-formed instruction outside the control slot, whose units serve and whose address and condition raise nothing, takes its effect. -/
theorem exec_issues (hslot : slotOf i = some sl) (hct : sl ≠ .ct) (he : exec i s = slotExec i s eff) (heff : s.Issues (eff s) f)
    (hn : (s.core s.cur).nonUniform i = none) (ha : s.addressFault s.cur i = none) (hw : WellFormed i) (hs : s.Serves i) :
    ∃ z, exec i s = .next z ∧ s.Issues z f :=
  ⟨eff s, he.trans (slotExec_of_clear s i eff (faultOf_of_checks s s.cur i sl hslot hct hw hs hn ha)), heff⟩

end Issues

/-! ## What is recorded -/

/-- A core with one more result of its present bundle on slices (R38). -/
def Core.withSlices (c : Core) (slot land : Nat) (cl : Bool) (start : Nat) (en : LaneMask) (lines : List SliceLine) : Core :=
  { c with
    nextId := c.nextId + 1
    results := c.results ++ [⟨c.nextId, c.regs.pc.toNat, slot, ResVal.locs (.slices cl start en lines), land, .slices cl start en lines⟩] }

theorem State.issues_record (s : State) (slot lat : Nat) (cl : Bool) (start : Nat) (en : LaneMask) (lines : List SliceLine) :
    s.Issues (s.record s.cur slot lat (.slices cl start en lines)) (fun c => c.withSlices slot (s.now + lat) cl start en lines) := by
  rw [State.record, if_neg (by simp [ResVal.locs])]
  exact State.issues_updCore

/-- A core with one more pending landing on a tile (R194). -/
def Core.withTile (c : Core) (land t : Nat) (array : Bool) (r : Nat × Nat) : Core :=
  { c with
    nextId := c.nextId + 1
    tiles := c.tiles ++ [⟨c.nextId, t, land, array, 0, r.2, r.1, c.regs.pc.toNat, c.schedule⟩] }

theorem State.issues_tileResult (s : State) (i : Instr) (t : Nat) (array : Bool) (r : Nat × Nat) :
    s.Issues (s.tileResult s.cur i t array r) (fun c => c.withTile (s.now + c.mxLat i) t array r) :=
  State.Issues.mxReserve State.issues_updCore i

theorem State.issues_arrayStart (s : State) (i : Instr) (af bf : BitVec 5) (t : BitVec 4) (aoff : BitVec 11) (woff : BitVec 12)
    (zero trans : Bool) : s.Issues (s.arrayStart s.cur i af bf t aoff woff zero trans) (fun c =>
      { c.withTile (s.now + c.mxLat i) t.toNat true ((s.core s.cur).arrayResult s.now af bf t aoff woff zero trans) with
        arrayFree := s.now + mxBusy i }) :=
  (s.issues_tileResult i t.toNat true _).updCore (g := fun c => { c with arrayFree := s.now + mxBusy i }) (fun _ _ => ⟨_, rfl⟩)

end Sys2Proof.Machine
end

section
/-! PROOFS. The instructions of the matrix slot at issue: MMA, MMZ, MMAT and MMZT occupy the array and record their product, and the tile
instructions record a landing, a result or a late write (R189, R193, R194, R200 to R204). -/

open Sys2Proof Sys2Proof.Machine

namespace Sys2Proof.Machine

section Matrix

variable {s : State} {i : Instr} {eff : State → State} {f : Core → Core}

/-- An instruction of the matrix slot has no address and no condition: when it is well-formed and its units serve, it takes its effect. -/
theorem exec_mx (hslot : slotOf i = some .mx) (he : exec i s = slotExec i s eff) (heff : s.Issues (eff s) f)
    (hn : (s.core s.cur).nonUniform i = none := by rfl) (ha : s.addressFault s.cur i = none := by rfl) :
    WellFormed i → s.Serves i → ∃ z, exec i s = .next z ∧ s.Issues z f :=
  exec_issues hslot (by decide) he heff hn ha

/-- The length of the accumulators that an array instruction lands (R189, R200). -/
theorem Core.arrayResult_length {c : Core} {now : Nat} {af bf : BitVec 5} {t : BitVec 4} {aoff : BitVec 11} {woff : BitVec 12} {zero trans : Bool}
    {fa fb : MFmt} {sh : Shape} (ha : mfmt af.toNat = some fa) (hb : mfmt bf.toNat = some fb) (hsh : shapeOf fa fb = some sh) :
    (c.arrayResult now af bf t aoff woff zero trans).2 = sh.m * sh.n * sh.acc.bytes := by
  simp only [Core.arrayResult, ha, hb, hsh]

/-- An array instruction occupies the array for the q cycles of its shape (R189, R193). -/
theorem mxBusy_mma {af bf : BitVec 5} {fa fb : MFmt} {sh : Shape} (ha : mfmt af.toNat = some fa) (hb : mfmt bf.toNat = some fb)
    (hsh : shapeOf fa fb = some sh) (t : BitVec 4) (aoff : BitVec 11) (woff : BitVec 12) : mxBusy (.mma af bf t aoff woff) = sh.q := by
  simp only [mxBusy, mxShape, ha, hb, hsh, Option.map_some]

/-- An array instruction records its product, q and the drain from now, and occupies the array for q cycles (R193, R194, R200). -/
theorem exec_arrayStarts {q len : Nat} {af bf : BitVec 5} {t : BitVec 4} {aoff : BitVec 11} {woff : BitVec 12} {zero trans : Bool}
    (he : exec i s = slotExec i s (fun s => s.arrayStart s.cur i af bf t aoff woff zero trans)) (hslot : slotOf i = some .mx)
    (hlat : (s.core s.cur).mxLat i = mxBusy i + (if (s.core s.cur).latcls.getLsbD 2 then 14 else 12)) (hq : mxBusy i = q)
    (hlen : ((s.core s.cur).arrayResult s.now af bf t aoff woff zero trans).2 = len)
    (hn : (s.core s.cur).nonUniform i = none := by rfl) (ha : s.addressFault s.cur i = none := by rfl) :
    let c := s.core s.cur
    WellFormed i → s.Serves i → ∃ z, exec i s = .next z ∧
      (z.core s.cur).tiles = c.tiles ++ [⟨c.nextId, t.toNat, s.now + (q + (if c.latcls.getLsbD 2 then 14 else 12)), true, 0, len,
        (c.arrayResult s.now af bf t aoff woff zero trans).1, c.regs.pc.toNat, c.schedule⟩] ∧
      (z.core s.cur).arrayFree = s.now + q ∧ (z.core s.cur).results = c.results ∧
      c.SameRegisters (z.core s.cur) ∧ c.SameBuffers (z.core s.cur) ∧ s.SameElsewhere z s.cur := by
  intro c hw hs
  obtain ⟨z, hz, hkeeps, rsv, hcore⟩ := exec_mx hslot he (s.issues_arrayStart i af bf t aoff woff zero trans) hn ha hw hs
  refine ⟨z, hz, ?_, ?_, (congrArg Core.results hcore :), hkeeps.frame⟩
  · rw [hcore, ← hq, ← hlat, ← hlen]
    rfl
  · rw [hcore, ← hq]

end Matrix

/-- Settles O31: the four instructions have one shape and differ in the start and in the order of B. -/
theorem arrayInstructionsStart : Obligations.ArrayInstructionsStart := by
  unfold Obligations.ArrayInstructionsStart
  intro s af bf t aoff woff fa fb sh ha hb hsh c starts
  have hbusy : mxBusy (.mma af bf t aoff woff) = sh.q := mxBusy_mma ha hb hsh t aoff woff
  have hlen (zero trans : Bool) : (c.arrayResult s.now af bf t aoff woff zero trans).2 = sh.m * sh.n * sh.acc.bytes :=
    Core.arrayResult_length ha hb hsh
  exact ⟨exec_arrayStarts (.refl (execMma af bf t aoff woff s)) rfl rfl hbusy (hlen false false),
    exec_arrayStarts (.refl (execMmz af bf t aoff woff s)) rfl rfl hbusy (hlen true false),
    exec_arrayStarts (.refl (execMmat af bf t aoff woff s)) rfl rfl hbusy (hlen false true),
    exec_arrayStarts (.refl (execMmzt af bf t aoff woff s)) rfl rfl hbusy (hlen true true)⟩

/-! ## The tile instructions -/

section Tiles

variable {s : State} {i : Instr}

/-- An instruction that records a landing on a tile does nothing else (R194). -/
theorem exec_lands {t : BitVec 4} {r : State → Nat × Nat} {lat len val : Nat}
    (he : exec i s = slotExec i s (fun s => s.tileResult s.cur i t.toNat false (r s))) (hslot : slotOf i = some .mx)
    (hlat : (s.core s.cur).mxLat i = lat) (hr : r s = (val, len))
    (hn : (s.core s.cur).nonUniform i = none := by rfl) (ha : s.addressFault s.cur i = none := by rfl) :
    let c := s.core s.cur
    WellFormed i → s.Serves i → ∃ z, exec i s = .next z ∧
      (c.SameRegisters (z.core s.cur) ∧ c.SameBuffers (z.core s.cur) ∧ s.SameElsewhere z s.cur) ∧ (z.core s.cur).results = c.results ∧
      (z.core s.cur).tiles = c.tiles ++ [⟨c.nextId, t.toNat, s.now + lat, false, 0, len, val, c.regs.pc.toNat, c.schedule⟩] := by
  intro c hw hs
  obtain ⟨z, hz, hkeeps, rsv, hcore⟩ := exec_mx hslot he (s.issues_tileResult i t.toNat false (r s)) hn ha hw hs
  refine ⟨z, hz, hkeeps.frame, (congrArg Core.results hcore :), ?_⟩
  rw [hcore, ← hlat, hr]
  rfl

/-- The element format that an instruction takes is the one its AF names. -/
theorem tileNum_of_tileFmt {af : BitVec 5} {e8m10 : Bool} {f : NumFmt} (hf : tileFmt af e8m10 = some f) : tileNum af e8m10 = f := by
  rw [tileNum, hf, Option.getD_some]

/-- What MLDC and MBIAS land: the packed accumulators and their length (R203). -/
theorem Core.ldcBytes_of_tileFmt (c : Core) {af : BitVec 5} {f : NumFmt} (hf : tileFmt af false = some f) (t : Nat) (cl : Bool) (o : SliceOp)
    (bias : Bool) : c.ldcBytes (tileNum af false) t cl o bias = ((c.ldcBytes f t cl o bias).1, 256 * tileG f o * (accOf f).bytes) := by
  rw [tileNum_of_tileFmt hf]
  rfl

/-- A lane of the lines that MCVT writes holds its accumulators read out, cut to the slices of the operand (R203). -/
theorem Core.laneOf_cvtLanes (c : Core) (f : NumFmt) (t : Nat) (d : SliceOp) {l : Nat} (hl : l < 256) :
    laneOf (linesOf d.w (c.cvtLanes f t d)) l = packBits f.width ((List.range (tileG f d)).map (fun k =>
      readout (accOf f) f (elemAt (8 * (accOf f).bytes) (c.tileBytes t) (tileG f d * l + k)))) % 2 ^ (4 * d.w) := by
  rw [laneOf_linesOf _ _ _ (by simp [Core.cvtLanes]) hl, Core.cvtLanes, nth_map 0 0 _ _ _ (by simpa using hl), nth_allLanes l hl]

end Tiles

/-- Settles O33: MCLR, MADDC, MLDC and MBIAS by `exec_lands`, MCVT by the lines that it records, MSTC by its late write. -/
theorem tileInstructions : Obligations.TileInstructions := by
  unfold Obligations.TileInstructions
  intro s af t u cl d o aoff c frame lands
  refine ⟨exec_lands (.refl (execMclr t s)) rfl rfl rfl, exec_lands (.refl (execMaddc t u s)) rfl rfl rfl, fun f hf => ⟨?mldc, ?mbias, ?mcvt⟩,
    fun f hf => ?mstc⟩
  case mldc => exact exec_lands (.refl (execMldc af t cl o s)) rfl rfl (c.ldcBytes_of_tileFmt hf t.toNat cl o false)
  case mbias => exact exec_lands (.refl (execMbias af t cl o s)) rfl rfl (c.ldcBytes_of_tileFmt hf t.toNat cl o true)
  case mcvt =>
    intro hw hs
    obtain ⟨z, hz, hkeeps, rsv, hcore⟩ := exec_mx (i := .mcvt af t cl d) rfl (.refl (execMcvt af t cl d s))
      ((s.issues_record ..).mxReserve _) rfl rfl hw hs
    refine ⟨z, hz, hkeeps.frame, (congrArg Core.tiles hcore :), _, (congrArg Core.results hcore :), rfl, rfl, _, rfl, linesOf_length ..,
      fun l hl => ?_⟩
    rw [tileNum_of_tileFmt hf]
    exact c.laneOf_cvtLanes f t.toNat d hl
  case mstc =>
    intro hw hs
    obtain ⟨z, hz, hkeeps, rsv, hcore⟩ := exec_mx (i := .mstc af t aoff) rfl (.refl (execMstc af t aoff s))
      (State.Issues.mxReserve State.issues_updCore _) rfl rfl hw hs
    refine ⟨z, hz, hkeeps.frame, (congrArg Core.tiles hcore :), ?_⟩
    rw [hcore, mstcRange, hf, tileNum_of_tileFmt hf]

end Sys2Proof.Machine
end

section
/-! PROOFS. The scale loads, FILL, PARK and UNPK at issue (R205, R232, R233). -/

open Sys2Proof Sys2Proof.Machine

namespace Sys2Proof.Machine

/-! ## Values -/

/-- A FILL writes its scalar into every word (R232). -/
theorem fillBytes_elem {units i : Nat} (x : Word) (hi : i < 2 * units) : fillBytes units x / 2 ^ (64 * i) % 2 ^ 64 = x.toNat :=
  packBits_elem_of_lt (by rw [nth_eq_getElem _ _ _ (by simpa using hi), List.getElem_replicate]) x.isLt

/-- Words packed one after another (R92). -/
theorem packBits_toNat_elem {b : Nat} (F : Nat → BitVec b) {w i : Nat} (hi : i < w) :
    packBits b (((List.range w).map F).map (fun x => x.toNat)) / 2 ^ (b * i) % 2 ^ b = (F i).toNat :=
  packBits_elem_of_lt (by rw [List.map_map, nth_map_range _ _ _ _ hi, Function.comp]) (F i).isLt

/-! ## Instructions -/

section Fill

variable {s : State} {i : Instr} {eff : State → State} {f : Core → Core}

/-- A well-formed instruction of the fill slot, whose units serve and which has no address fault, takes its effect. -/
theorem exec_sf (hslot : slotOf i = some .sf) (he : exec i s = slotExec i s eff) (heff : s.Issues (eff s) f)
    (hn : (s.core s.cur).nonUniform i = none := by rfl) :
    WellFormed i → s.Serves i → s.addressFault s.cur i = none → ∃ z, exec i s = .next z ∧ s.Issues z f :=
  fun hw hs ha => exec_issues hslot (by decide) he heff hn ha hw hs

/-- A scale load reads the A buffer at issue and records what it read (R205). -/
theorem exec_scaleLoad {b : Bool} {sel : BitVec 4} {aoff : BitVec 15}
    (he : exec i s = slotExec i s (fun s => (s.scaleLoad s.cur b sel aoff).sfReserve s.cur i 0)) (hslot : slotOf i = some .sf)
    (hn : (s.core s.cur).nonUniform i = none := by rfl) :
    let c := s.core s.cur
    WellFormed i → s.Serves i → s.addressFault s.cur i = none → ∃ z, exec i s = .next z ∧
      (c.SameRegisters (z.core s.cur) ∧ c.SameBuffers (z.core s.cur) ∧ s.SameElsewhere z s.cur) ∧
      (z.core s.cur).scales = c.scales ++ [⟨c.nextId, s.now + 4, b, 16 * (sel.toNat + 1),
        c.bufRead .a (16 * aoff.toNat) (16 * (sel.toNat + 1))⟩] := by
  intro c hw hs ha
  obtain ⟨z, hz, hkeeps, rsv, hcore⟩ := exec_sf hslot he (State.Issues.sfReserve State.issues_updCore i 0) hn hw hs ha
  exact ⟨z, hz, hkeeps.frame, (congrArg Core.scales hcore :)⟩

end Fill

/-- Settles O34: each instruction records what it read at issue, and nothing else (`exec_sf`). -/
theorem fillSlotInstructions : Obligations.FillSlotInstructions := by
  unfold Obligations.FillSlotInstructions
  intro s sel aoff x n coff cl o c frame does
  refine ⟨exec_scaleLoad (.refl (execSlda sel aoff s)) rfl, exec_scaleLoad (.refl (execSldb sel aoff s)) rfl, ?fill, ?park, ?unpk⟩
  case fill =>
    intro hw hs ha
    obtain ⟨z, hz, hkeeps, rsv, hcore⟩ := exec_sf (i := .fill x n aoff) rfl (.refl (execFill x n aoff s))
      (State.Issues.sfReserve State.issues_updCore _ _) rfl hw hs ha
    exact ⟨z, hz, hkeeps.frame, _, (congrArg Core.fills hcore :), rfl, rfl, rfl, fun i hi => fillBytes_elem _ (by omega)⟩
  case park =>
    intro hw hs ha
    obtain ⟨z, hz, hkeeps, rsv, hcore⟩ := exec_sf (i := .park coff cl o) rfl (.refl (execPark coff cl o s))
      (State.Issues.sfReserve State.issues_updCore _ _) rfl hw hs ha
    exact ⟨z, hz, hkeeps.frame, _, (congrArg Core.parks hcore :), rfl, rfl, rfl, fun i hi => packBits_toNat_elem _ hi⟩
  case unpk =>
    intro hw hs ha
    obtain ⟨z, hz, hkeeps, rsv, hcore⟩ := exec_sf (i := .unpk coff cl o) rfl (.refl (execUnpk coff cl o s))
      ((s.issues_record ..).sfReserve _ _) rfl hw hs ha
    exact ⟨z, hz, hkeeps.frame, _, (congrArg Core.results hcore :), rfl, rfl, rfl⟩

end Sys2Proof.Machine
end

section
/-! PROOFS. Late writes and scale loads in their cycle (R194, R204, R205, R232, R233). -/

open Sys2Proof Sys2Proof.Machine

namespace Sys2Proof.Machine

/-! ## Late writes -/

/-- A late write: its bytes take its value; every other byte of every buffer, the registers and all memories stay (R194, R212). -/
theorem State.lateWrite_spec (s : State) (n : Nat) (b : Buf) (w : LateWrite) :
    s.SameMemory (s.lateWrite n b w) ∧ (s.core n).SameRegisters ((s.lateWrite n b w).core n) ∧
      (∀ k, k < w.len → Memory.read (((s.lateWrite n b w).core n).buf b) (w.off + k) = BitVec.ofNat 8 (w.val / 2 ^ (8 * k))) ∧
      ∀ e a, (e ≠ b ∨ a < w.off ∨ w.off + w.len ≤ a) →
        Memory.read (((s.lateWrite n b w).core n).buf e) a = Memory.read ((s.core n).buf e) a := by
  by_cases hlen : w.len = 0
  · rw [State.lateWrite, hlen, State.bufWrite_zero]
    exact ⟨⟨fun _ => rfl, rfl, rfl⟩, .refl _, fun k hk => absurd hk (Nat.not_lt_zero k), fun _ _ _ => rfl⟩
  · obtain ⟨hself, hother, hregs, hmem⟩ := s.bufWrite_spec n ((s.core n).before w.id) b w.off w.len w.val (allBits w.len) w.bundle w.sch hlen
    refine ⟨hmem, hregs, fun k hk => ?_, fun e a h => ?_⟩
    · rw [State.lateWrite, hself, Memory.read_writeBits_allBits _ _ _ _ _ hk, show 256 ^ k = 2 ^ (8 * k) from (pow_mul 2 8 k).symm]
    · by_cases he : e = b
      · subst he
        rw [State.lateWrite, hself, Memory.read_writeBits_of_not_mem _ _ _ _ _ _ (h.resolve_left (fun hne => hne rfl))]
      · rw [State.lateWrite, hother e he]

theorem Core.SameBuffers.buf {c d : Core} (h : c.SameBuffers d) (b : Buf) : d.buf b = c.buf b := by
  obtain ⟨ha, hc, hw⟩ := h
  cases b
  · exact ha
  · exact hc
  · exact hw

/-- An event that takes a pending write off its list and lets it take effect. -/
theorem exec_writes {s : State} {n : Nat} {i : Instr} {c : Core} {b : Buf} {w : LateWrite}
    (he : exec i s = .next ((s.setCore n c).lateWrite n b w))
    (hr : (s.core n).SameRegisters c := by simp [Core.SameRegisters]) (hb : (s.core n).SameBuffers c := by exact ⟨rfl, rfl, rfl⟩) :
    ∃ t, exec i s = .next t ∧ s.SameMemory t ∧ (s.core n).SameRegisters (t.core n) ∧
      (∀ k, k < w.len → Memory.read ((t.core n).buf b) (w.off + k) = BitVec.ofNat 8 (w.val / 2 ^ (8 * k))) ∧
      ∀ e a, (e ≠ b ∨ a < w.off ∨ w.off + w.len ≤ a) → Memory.read ((t.core n).buf e) a = Memory.read ((s.core n).buf e) a := by
  obtain ⟨hmem, hregs, hbytes, hothers⟩ := (s.setCore n c).lateWrite_spec n b w
  rw [State.core_setCore_self] at hregs hothers
  exact ⟨_, he, hmem, hr.trans hregs, hbytes, fun e a h => (hothers e a h).trans (by rw [hb.buf])⟩

section Due

variable {s : State} {n id : Nat} {w : LateWrite}

theorem exec_tileLanding_due {l : TileLanding} (hl : (s.core n).tiles.find? (fun x => x.id == id) = some l) (hdue : l.land ≤ s.now) :
    exec (.tileLanding n id) s = .next ((s.setCore n { s.core n with tiles := (s.core n).tiles.filter (fun m => m.id != id) }).lateWrite n .c
      ⟨id, l.land, 32768 * l.tile + l.off, l.len, l.val, l.bundle, l.sch⟩) := by
  change execTileLanding n id s = _
  simp only [execTileLanding, hl, if_neg (Nat.not_lt.mpr hdue)]

theorem exec_mstcLanding_due (hw : (s.core n).mstcs.find? (fun x => x.id == id) = some w) (hdue : w.due ≤ s.now) :
    exec (.mstcLanding n id) s =
      .next ((s.setCore n { s.core n with mstcs := (s.core n).mstcs.filter (fun m => m.id != id) }).lateWrite n .a w) := by
  change execMstcLanding n id s = _
  simp only [execMstcLanding, hw, if_neg (Nat.not_lt.mpr hdue)]

theorem exec_fillComplete_due (hw : (s.core n).fills.find? (fun x => x.id == id) = some w) (hdue : w.due ≤ s.now) :
    exec (.fillComplete n id) s =
      .next ((s.setCore n { s.core n with fills := (s.core n).fills.filter (fun m => m.id != id) }).lateWrite n .a w) := by
  change execFillComplete n id s = _
  simp only [execFillComplete, hw, if_neg (Nat.not_lt.mpr hdue)]

theorem exec_parkWrite_due (hw : (s.core n).parks.find? (fun x => x.id == id) = some w) (hdue : w.due ≤ s.now) :
    exec (.parkWrite n id) s =
      .next ((s.setCore n { s.core n with parks := (s.core n).parks.filter (fun m => m.id != id) }).lateWrite n .c w) := by
  change execParkWrite n id s = _
  simp only [execParkWrite, hw, if_neg (Nat.not_lt.mpr hdue)]

/-! ## Scale loads -/

/-- A scale load lands in its register; the locket may take it as well (R205, R320). -/
theorem exec_scaleLanding_due {w : ScaleLoad} (hw : (s.core n).scales.find? (fun x => x.id == id) = some w) (hdue : w.due ≤ s.now) :
    ∃ k, exec (.scaleLanding n id) s = .next (s.setCore n { s.core n with
      scales := (s.core n).scales.filter (fun m => m.id != id)
      regs := (s.core n).regs.landScale w.b w.n w.val
      locket := k }) := by
  change ∃ k, execScaleLanding n id s = _
  simp only [execScaleLanding, hw, if_neg (Nat.not_lt.mpr hdue)]
  split <;> exact ⟨_, rfl⟩

end Due

/-- The bytes of a register of b bits after its n low bytes are replaced (R205). -/
theorem elemAt_mergeBits_allBits {b : Nat} (old v n : Nat) {k : Nat} (hk : 8 * k + 8 ≤ b) :
    elemAt 8 (BitVec.ofNat b (mergeBits old v (allBits n))).toNat k = if k < n then elemAt 8 v k else elemAt 8 old k := by
  refine Nat.eq_of_testBit_eq fun j => ?_
  rw [apply_ite (fun x => Nat.testBit x j)]
  simp only [elemAt_eq, Nat.testBit_mod_two_pow, Nat.testBit_div_two_pow]
  by_cases hj : j < 8
  · have hmask : (allBits n).testBit (j + 8 * k) = decide (k < n) := by
      rw [allBits, Nat.testBit_two_pow_sub_one]
      exact decide_eq_decide.mpr (by omega)
    rw [BitVec.testBit_toNat, BitVec.getLsbD_ofNat, mergeBits_testBit, hmask, decide_eq_true (show j + 8 * k < b by omega)]
    simp [hj]
  · simp [hj]

/-- The scale registers after a load: the first n bytes of the one that b names take the value, and the other keeps its own (R205). -/
theorem Regs.landScale_elem (r : Regs) (b : Bool) (n val : Nat) {k : Nat} (hk : k < 256) :
    (elemAt 8 (if b then (r.landScale b n val).scaleB else (r.landScale b n val).scaleA).toNat k =
        if k < n then elemAt 8 val k else elemAt 8 (if b then r.scaleB else r.scaleA).toNat k) ∧
      (if b then (r.landScale b n val).scaleA = r.scaleA else (r.landScale b n val).scaleB = r.scaleB) := by
  cases b
  · exact ⟨elemAt_mergeBits_allBits _ _ _ (by omega), rfl⟩
  · exact ⟨elemAt_mergeBits_allBits _ _ _ (by omega), rfl⟩

theorem Regs.landScale_s (r : Regs) (b : Bool) (n val : Nat) : (r.landScale b n val).s = r.s := by cases b <;> rfl

/-- Settles O35: the four late writes by `exec_writes`, and a scale load by the bytes of the register it lands in. -/
theorem lateWritesLand : Obligations.LateWritesLand := by
  unfold Obligations.LateWritesLand
  intro s n id c writes
  refine ⟨fun l hl hdue => ?tile, fun w hw hdue => ?mstc, fun w hw hdue => ?fill, fun w hw hdue => ?park, fun w hw hdue _ => ?scale⟩
  case tile => exact exec_writes (exec_tileLanding_due hl hdue)
  case mstc => exact exec_writes (exec_mstcLanding_due hw hdue)
  case fill => exact exec_writes (exec_fillComplete_due hw hdue)
  case park => exact exec_writes (exec_parkWrite_due hw hdue)
  case scale =>
    obtain ⟨k, he⟩ := exec_scaleLanding_due hw hdue
    refine ⟨_, he, s.setCore_sameElsewhere n _, ?_⟩
    rw [State.core_setCore_self]
    exact ⟨⟨rfl, rfl, rfl⟩, Regs.landScale_s .., rfl, rfl, fun k hk => Regs.landScale_elem c.regs w.b w.n w.val hk⟩

end Sys2Proof.Machine
end
